-- ==== Sys2Proof/Word.lean ====
section
/-!
DEFINITION. The word types of the module and their plainest arithmetic: bytes, 32-bit and 64-bit words, and the bit
field `fld` of a natural number (bit ranges include both ends and bit 0 is the least significant, as the manual's
conventions say).
-/
namespace Sys2Proof

/-- One byte of any structure that the module keeps in memory (R1). -/
abbrev Byte := BitVec 8

/-- One BAR0 register word (R4). -/
abbrev Word := BitVec 32

/-- A 64-bit register (R5). -/
abbrev DWord := BitVec 64

/-- Bits [hi:lo] of a number. -/
def fld (n hi lo : Nat) : Nat := (n >>> lo) % 2 ^ (hi - lo + 1)

/-- The number `n` with bits [hi:lo] replaced by `v`, taken modulo the width of the range. -/
def putFld (n hi lo v : Nat) : Nat :=
  n - (fld n hi lo <<< lo) + ((v % 2 ^ (hi - lo + 1)) <<< lo)

/-- Bit `i` of a number. -/
def bitOf (n i : Nat) : Bool := n.testBit i

/-- A Boolean as 0 or 1. -/
def b2n (b : Bool) : Nat := if b then 1 else 0

/-- `n` divided by `d`, rounded up. -/
def ceilDiv (n d : Nat) : Nat := (n + d - 1) / d

/-- The two's complement value of the low `w` bits of `n`. -/
def sx (w n : Nat) : Int :=
  let m := n % 2 ^ w
  if 2 ^ (w - 1) ≤ m then (m : Int) - (2 : Int) ^ w else m

end Sys2Proof
end

