-- ==== Sys2Proof/Syntax.lean ====
section
/-!
DEFINITION. The commands of the block: one constructor of `Instr` for each row of the opcode table, with the operands
that the row's rule needs. A command is either something that reaches the module from outside (a host access, a pin, a
management packet, a peer's message) or an event of the module's own engines, named by the unit it happens to and by
whatever the outside world supplies to it (a measurement, a choice of the placement engine).
-/
namespace Sys2Proof

/-- A physical tile by its window index 32 × column + row (R6). -/
abbrev TileIx := Fin 1152
/-- A PCIe function: 0 the physical function, 1 to 16 the virtual functions (R255). -/
abbrev Fn := Fin 17
/-- An almanac number (R123). -/
abbrev AlmIx := BitVec 8
/-- A BAR0 byte offset: BAR0 is 64 MiB (R261). -/
abbrev Off := BitVec 26
/-- A port number (R287). -/
abbrev PortIx := BitVec 3
/-- A logical plot (R326). -/
abbrev PlotIx := BitVec 5

/-- A descriptor: its almanac, its submission's ring count (SUB_POS) and its index (R163). -/
structure DescRef where
  alm : AlmIx
  pos : Word
  idx : BitVec 16
  deriving DecidableEq, Repr

/-- One access to memory space by the host: a read of bytes, or a write of data (R268). -/
inductive Access where
  | read (count : Nat)
  | write (data : List Byte)
  deriving DecidableEq, Repr

/-- A ring in tile store: base granule and length in granules (R106). -/
structure Ring where
  base : Nat
  len : Nat
  deriving DecidableEq, Repr

/-- The fields of a pass, built by the descriptor sequencer (R89). -/
structure PassFields where
  semiring : BitVec 3
  aFmt : BitVec 4
  bFmt : BitVec 4
  accFmt : BitVec 4
  outFmt : BitVec 4
  biasFmt : BitVec 4
  strict : Bool
  inf : Bool
  bias : Bool
  aScaled : Bool
  bScaled : Bool
  flagPlane : Bool
  panelMax : Bool
  kSteps : Nat
  kOrigin : Word
  mExt : Nat
  nExt : Nat
  aRing : Ring
  bRing : Ring
  aSide : Ring
  bSide : Ring
  biasBase : Nat
  outBase : Nat
  /-- The pass's drain is the root conversion of its outputs (R236). -/
  root : Bool
  deriving DecidableEq, Repr

/-- Where the sequencer puts a unit in tile store (R89, R106): the operand rings and side rings in granules, the bias block
and the output area, and the k indices that one arming of each panel's context brings, 0 for the whole panel (R173). A unit
that has no pass uses `a`, `b` and `out` for the operands of slots 0, 1 and 2. -/
structure Areas where
  a : Ring
  b : Ring
  aSide : Ring
  bSide : Ring
  bias : Nat
  out : Nat
  aChunk : Nat
  bChunk : Nat
  deriving DecidableEq, Repr

/-- Whose granule transfer of a tile's stream engine it is (R172): a direct arming's, by context; that of a slot of a unit
built on the tile, by the unit's number there; an output area's, by unit number and slot; a multicast stream's, by tree
entry; a page copy's. -/
inductive Carrier where
  | direct (ctx : BitVec 6)
  | fill (no : Nat) (slot : Nat)
  | out (no : Nat) (slot : Nat)
  | stream (entry : BitVec 6)
  | page (handle : Word) (page : Nat)
  deriving DecidableEq, Repr

/-- Who set a flag last, as ALM_FLAG_SETTER shows it (R230). -/
inductive Setter where
  | none
  | descriptor (alm : AlmIx) (idx : BitVec 16)
  | arming (tile : TileIx) (ctx : BitVec 6)
  | host (fn : Fn)
  deriving DecidableEq, Repr

/-- One addition to a flag (R211). -/
structure FlagAdd where
  amount : Word
  by_ : Setter
  deriving DecidableEq, Repr

/-- Accesses to one page in one epoch, as the placement engine counted them (R195). -/
structure PageCount where
  handle : Word
  page : Nat
  byTile : List (Nat × Nat)
  byModule : List (Nat × Nat)
  deriving DecidableEq, Repr

/-- The parts of one tally as twin modules compare them: the program digest, the element count and Merkle leaves of each
operand of each role, and the record bytes (R251). -/
structure TallyParts where
  tally : List Byte
  program : List Byte
  weights : List (Nat × List (List Byte))
  inputs : List (Nat × List (List Byte))
  outputs : List (Nat × List (List Byte))
  record : List Byte
  deriving DecidableEq, Repr

/-- The configuration octets of one lane's initial lane alignment sequence (R293). -/
structure LaneIlas where
  lane : BitVec 3
  did : Nat
  bid : Nat
  lid : Nat
  l : Nat
  scr : Bool
  f : Nat
  k : Nat
  m : Nat
  n : Nat
  np : Nat
  cs : Nat
  s : Nat
  hd : Bool
  subclassv : Nat
  jesdv : Nat
  fchkOk : Bool
  deriving DecidableEq, Repr

/-- What the module finds on the serial NOR pins (R362) and the image bytes it reads there. -/
structure NorDevice where
  signature : Bool
  bfpt : Bool
  addr4 : Bool
  octal : Bool
  quad144 : Bool
  quad114 : Bool
  densityLog2 : Nat
  data : List Byte
  deriving DecidableEq, Repr

/-- What a seam link does (R463): the direction of the link from its tile. -/
inductive Dir where
  | north | east | south | west
  deriving DecidableEq, Repr

/-- Where a management packet came from: the mailbox, or one whole MCTP message (R416, R426); a pool member that passes a
buffer request to the steward, or the steward's record of a request that it has granted to a member (R269). -/
inductive MgmtSrc where
  | mailbox
  | mctp (bytes : List Byte)
  | peer (module : Nat) (bytes : List Byte)
  | replica (module : Nat) (request reply : List Byte)
  deriving DecidableEq, Repr

/-- What the rest of the pool says to a buffer request (R269, R274): the steward's status and payload, where this module is
not the steward; and, to the steward, whether another member uses the handle. -/
structure PoolAnswer where
  code : BitVec 16
  payload : List Byte
  busy : Bool
  deriving DecidableEq, Repr

/-- The fields of a function's configuration space that the host writes (R255, R260, R261): the BARs and, in the physical
function, the virtual functions' BARs; Max_Payload_Size and Max_Read_Request_Size as encoded, the tag enables, and the
corrected-error status of AER, which is cleared by writing 1. -/
inductive CfgField where
  | bar0 | bar2 | vfBar0 | vfBar2 | maxPayload | maxReadRequest | tags | aerCorrected
  deriving DecidableEq, Repr

/-- Where a configuration command came from: a CFG_CMD write or a management packet (R392). -/
inductive CfgSrc where
  | reg (word : Word)
  | mgmt (src : MgmtSrc)
  deriving DecidableEq, Repr

/-- Where a service command came from: a register write, a management packet, or the fallow policy with its target and
cause (R467, R473). -/
inductive SvcSrc where
  | reg (word : Word)
  | mgmt (src : MgmtSrc)
  | policy (target : Nat) (cause : Nat)
  deriving DecidableEq, Repr

/-- One MCTP packet's size in bytes and its message integrity check bit (R426). -/
structure MctpPkt where
  size : Nat
  integrity : Bool
  deriving DecidableEq, Repr

/-- Who a granule is read for (R401). -/
inductive Reader where
  | descriptor (d : DescRef)
  | runAhead (d : DescRef)
  | hostWindow
  | cacheFill
  | copy
  | arming (t : TileIx) (ctx : BitVec 6)
  deriving DecidableEq, Repr

/-- What moves a receive link to resync (R298). -/
inductive ResyncCause where
  | codeErrors (lane : BitVec 3) (count : Nat) (ns : Nat)
  | misplacedA (lane : BitVec 3) (multiframes : Nat)
  deriving DecidableEq, Repr

/-- A parity event in a front-end core's memories (R466): none, one in X or Y memory, or one in program memory P. -/
inductive Parity where
  | none | data | program
  deriving DecidableEq, Repr

/-- The commands, in the order of the opcode table. -/
inductive Instr where
  -- host register accesses (00_scope)
  | registerWrite (fn : Fn) (off : Off) (size : Nat) (val : DWord)
  | latchedLowWordRead (fn : Fn) (off : Off) (size : Nat)
  | latchedHighWordRead (fn : Fn) (off : Off) (size : Nat)
  | bufferedLowWordWrite (fn : Fn) (off : Off) (val : Word)
  | bufferedHighWordWrite (fn : Fn) (off : Off) (val : Word)
  -- power and resets (01_module, 13_management_and_resets)
  | p54vRise (removedMs : Nat)
  | supplyShutdown (mv : Nat) (heldUs : Nat)
  | por
  | pwrOkRise
  | internalResetRelease (cfgSrc : BitVec 2) (poolId : BitVec 6)
  | romBootEnd
  | pinReset (lowNs : Nat)
  | hostReset
  | flr (fn : Fn)
  | softReset
  | moduleRemovalInsertion (inserted : Bool)
  | presenceAsserted (fell : Nat)
  | dieSensorUpdate (hotspot inlet outlet : Byte)
  | domeAlertCauseWrite (val : Word)
  | throttleUpdate (powerW : Nat) (packageC : Nat)
  -- the array (03_sward_tile)
  | passIssue (t : TileIx)
  | kStepEntry (t : TileIx) (corrected : Nat) (bad : Option (Nat × Nat))
  | passDrainStart (t : TileIx)
  | passDrainEnd (t : TileIx)
  | preemptionRequest (t : TileIx) (d : DescRef)
  | preemptionResume (t : TileIx) (d : DescRef)
  | tileExcClear (t : TileIx) (val : Word)
  -- the vector engine (03_sward_tile)
  | veInvocation (t : TileIx) (d : DescRef) (iter : Nat)
  | veNop (t : TileIx)
  | veEnd (t : TileIx)
  | loop (t : TileIx) (count : BitVec 16) (body : BitVec 9)
  | vld (t : TileIx) (v : BitVec 6) (areg : BitVec 3) (offset : BitVec 16) (corrected : Nat) (bad : Bool)
  | vst (t : TileIx) (v : BitVec 6) (areg : BitVec 3) (offset : BitVec 16)
  | vldb (t : TileIx) (v : BitVec 6) (areg : BitVec 3) (offset : BitVec 16) (corrected : Nat) (bad : Bool)
  | aset (t : TileIx) (areg : BitVec 3) (imm : BitVec 16)
  | ainc (t : TileIx) (areg : BitVec 3) (imm : BitVec 16)
  | fadd (t : TileIx) (vd va vb : BitVec 6)
  | fsub (t : TileIx) (vd va vb : BitVec 6)
  | fmul (t : TileIx) (vd va vb : BitVec 6)
  | ffma (t : TileIx) (vd va vb vc : BitVec 6)
  | fmax (t : TileIx) (vd va vb : BitVec 6)
  | fmin (t : TileIx) (vd va vb : BitVec 6)
  | fabs (t : TileIx) (vd va : BitVec 6)
  | fneg (t : TileIx) (vd va : BitVec 6)
  | fcmp (t : TileIx) (md : BitVec 3) (va vb : BitVec 6) (code : BitVec 3)
  | sel (t : TileIx) (vd : BitVec 6) (ms : BitVec 3) (va vb : BitVec 6)
  | iadd (t : TileIx) (vd va vb : BitVec 6)
  | isub (t : TileIx) (vd va vb : BitVec 6)
  | imul (t : TileIx) (vd va vb : BitVec 6)
  | vand (t : TileIx) (vd va vb : BitVec 6)
  | vor (t : TileIx) (vd va vb : BitVec 6)
  | vxor (t : TileIx) (vd va vb : BitVec 6)
  | shl (t : TileIx) (vd va : BitVec 6) (imm : BitVec 5)
  | shr (t : TileIx) (vd va : BitVec 6) (imm : BitVec 6)
  | frcp (t : TileIx) (vd va : BitVec 6)
  | frsq (t : TileIx) (vd va : BitVec 6)
  | fexp2 (t : TileIx) (vd va : BitVec 6)
  | flog2 (t : TileIx) (vd va : BitVec 6)
  | ftanh (t : TileIx) (vd va : BitVec 6)
  | lsum (t : TileIx) (vd va : BitVec 6)
  | lmax (t : TileIx) (vd va : BitVec 6)
  | lbcast (t : TileIx) (vd va : BitVec 6) (lane : BitVec 6)
  | cvt (t : TileIx) (vd va : BitVec 6) (src dst : BitVec 4) (inf : Bool)
  | cvts (t : TileIx) (vd va vb : BitVec 6) (dst : BitVec 4)
  | scale (t : TileIx) (vd va : BitVec 6) (dst : BitVec 4)
  -- almanac registers (04_descriptors)
  | almDoorbell (fn : Fn) (a : AlmIx) (tail : Word)
  | almEnable (fn : Fn) (a : AlmIx) (cfg : Word)
  | almReset (fn : Fn) (a : AlmIx)
  | almAbort (fn : Fn) (a : AlmIx)
  | almCountWrite (fn : Fn) (a : AlmIx) (n : BitVec 4) (val : Word)
  -- submissions and descriptors
  | submissionRead (a : AlmIx)
  | descriptorStart (d : DescRef) (t : TileIx) (plot : Option PlotIx)
  | unitPlacement (d : DescRef) (unit : Nat) (t : TileIx) (plot : Option PlotIx) (areas : Areas)
  | runAheadRead (d : DescRef) (slot : BitVec 2) (t : TileIx)
  | mma (d : DescRef)
  | fold (d : DescRef)
  | vec (d : DescRef)
  | moveCopy (d : DescRef)
  | gather (d : DescRef)
  | scatter (d : DescRef)
  | moveTier (d : DescRef)
  | reduceSum (d : DescRef)
  | reduceMax (d : DescRef)
  | reduceMin (d : DescRef)
  | countSet (d : DescRef)
  | countLoad (d : DescRef)
  | countAdd (d : DescRef)
  | fence (d : DescRef)
  | fenceReadReturn (d : DescRef) (module : BitVec 6) (ok : Bool)
  | barrierArriveAndWait (d : DescRef)
  | barrierArrive (d : DescRef)
  | barrierWait (d : DescRef)
  | transit (d : DescRef)
  | tally (d : DescRef)
  | descriptorCommit (d : DescRef)
  | descriptorFail (d : DescRef)
  | descriptorRestart (d : DescRef) (code : BitVec 16)
  -- direct armings and streams (05_streams_and_placement)
  | tileStmArm (t : TileIx) (val : Word)
  | tileStmStop (t : TileIx) (val : Word)
  | tileStmReserveWrite (t : TileIx) (val : Word)
  | directReserveApplied (t : TileIx)
  | granuleTransferIssue (t : TileIx)
  | granuleArrival (t : TileIx) (carrier : Carrier) (transfer : Nat)
  | armingDone (t : TileIx) (ctx : BitVec 6)
  | shadowArmingActive (t : TileIx) (ctx : BitVec 6)
  | migrationEpochEnd (counts : List PageCount)
  | pageRemap (handle : Word) (page : Nat)
  | cmnGroupWrite (g : BitVec 8) (val : Word)
  | heldGroupWriteEffect (g : BitVec 8) (tiles : List Nat)
  | seamReplay (t : TileIx) (dir : Dir)
  | linkRetrainEnd (t : TileIx) (dir : Dir) (failedHalves : Nat) (lost : Bool)
  | multicastGranuleSend (t : TileIx) (entry : BitVec 6) (route : DWord) (d : DescRef) (slot : BitVec 3) (credits : List Nat)
  | mcastLag (t : TileIx) (entry : BitVec 6) (receiver : TileIx)
  -- synchronisation (06_synchronisation)
  | flagUpdate (f : BitVec 16) (host : Option (Fn × Word)) (adds : List FlagAdd)
  | almFlagWrite (fn : Fn) (f : BitVec 16) (val : Word)
  | almFlagAddWrite (fn : Fn) (f : BitVec 16) (val : Word)
  | wakeArrival (d : DescRef) (wait : Bool)
  | waitReregistration (d : DescRef) (wait : Bool)
  | barrierConfigWrite (b : BitVec 8) (val : Word)
  | almBarArrive (b : BitVec 8) (val : Word)
  | moduleArrival (b : BitVec 8) (source : BitVec 6) (phase : Bool)
  | barrierRelease (b : BitVec 8) (phase : Bool)
  | waitStall (d : DescRef)
  -- twin mode (07_determinism_and_tally)
  | twinEnable (val : Word)
  | twinMasksArrival (source : BitVec 6) (partner : BitVec 6) (masks : List Word)
  | partnerTallyArrival (d : DescRef) (parts : TallyParts)
  | twinPartnerLost (d : DescRef)
  -- the host link and windows (08_host_and_commons)
  | linkSettled (speed : BitVec 4) (width : BitVec 5) (flit : Bool) (replays : Nat) (corrected : BitVec 16)
  | dStateChange (fn : Fn) (d3hot : Bool) (writes : List (CfgField × DWord))
  | atomicopRequest (fn : Fn)
  | vectorUnmask (fn : Fn) (vec : BitVec 9)
  | windowEnable (fn : Fn) (w : BitVec 8) (val : Word)
  | windowAccess (fn : Fn) (w : BitVec 8) (y : BitVec 28) (acc : Access)
  | apertureRequest (requester : Option (BitVec 6)) (handle : Word) (offset : Nat) (acc : Access)
  -- pools
  | form
  | poolGreeting (source : BitVec 6) (id : BitVec 6) (digest : DWord) (admitted : Bool)
  | formationEnd (lists : List (Nat × BitVec 64)) (timedOut : Bool)
  | join (replies : List (Nat × DWord))
  | leave
  | leavePagesMoved
  | peerRequestRetry (module : BitVec 6) (ok : Bool)
  | moduleRemoval (module : BitVec 6) (withinReplication : Bool) (left : Bool)
  | removalNotice (source : BitVec 6)
  -- instrument lanes (09_instrument_lanes_and_meridian)
  | linkEnable (p : PortIx) (tx : Bool) (val : DWord)
  | laneCgs (p : PortIx) (lane : BitVec 3) (complemented : Bool)
  | ilasCheck (p : PortIx) (lanes : List LaneIlas)
  | laneRelease (p : PortIx) (arrivals : List Nat)
  | sysrefEvent (off : BitVec 8)
  | sysrefArm (val : Word)
  | synciRise (p : PortIx)
  | synciLow (p : PortIx) (octets : Nat)
  | laneDown (p : PortIx) (lane : BitVec 3) (signal : Bool)
  | laneRejoin (p : PortIx) (lane : BitVec 3) (clearUs : Nat)
  | linkResync (p : PortIx) (cause : ResyncCause)
  | instclkFault (spread drift : Bool) (khz : BitVec 20)
  | instclkRecovery (khz : BitVec 20) (inToleranceMs : Nat)
  -- front-end cores
  | fecRun (p : PortIx) (val : Word)
  | batchComplete (p : PortIx) (first : Option Nat) (samples : List (BitVec 4 × Nat × BitVec 16))
  | fecInvocation (p : PortIx)
  | fecNop (p : PortIx)
  | fecEnd (p : PortIx)
  | rep (p : PortIx) (body : BitVec 6) (count : BitVec 16)
  | clr (p : PortIx) (dst : BitVec 2)
  | mac (p : PortIx) (dst : BitVec 2) (xr yr : BitVec 2)
  | mac2 (p : PortIx) (dst : BitVec 2) (xr yr : BitVec 2)
  | msu (p : PortIx) (dst : BitVec 2) (xr yr : BitVec 2)
  | macd (p : PortIx) (dst : BitVec 2) (src : BitVec 3) (xr : BitVec 2)
  | ldx (p : PortIx) (dst : BitVec 3) (xr : BitVec 2) (parity : Parity)
  | ldy (p : PortIx) (dst : BitVec 3) (yr : BitVec 2)
  | sty (p : PortIx) (src : BitVec 3) (yr : BitVec 2)
  | ldi (p : PortIx) (dst : BitVec 3) (imm : BitVec 24)
  | adda (p : PortIx) (dst src : BitVec 2)
  | sha (p : PortIx) (dst : BitVec 2) (n : BitVec 6)
  | rnd (p : PortIx) (dst : BitVec 3) (src : BitVec 2)
  | mova (p : PortIx) (dst : BitVec 2) (src : BitVec 3)
  | out (p : PortIx) (slot : BitVec 10) (src : BitVec 3)
  | emit (p : PortIx) (count : BitVec 11)
  | seta (p : PortIx) (r : BitVec 3) (imm : BitVec 13)
  | setm (p : PortIx) (r : BitVec 3) (imm : BitVec 13)
  | setn (p : PortIx) (r : BitVec 3) (imm : BitVec 13)
  -- output slots, the meridian, swaps
  | slotEnable (p : PortIx) (slot : BitVec 5) (val : Word)
  | slotFire (p : PortIx) (slot : BitVec 5) (bad : Bool)
  | heldCodeUpdate (p : PortIx) (conv : BitVec 4)
  | mtrCfgWrite (val : DWord)
  | meridianTick (zero : Bool) (bad : List (BitVec 8))
  | meridianLost
  | transitLate (d : DescRef)
  | swapEnable (p : BitVec 4) (val : Word)
  | swapCycleWrite (p : BitVec 4) (cycle : DWord)
  | swapInversion (p : BitVec 4)
  | swapDrained (p : BitVec 4)
  -- plots (10_programmable_logic)
  | offline (p : PlotIx)
  | offlineForce (p : PlotIx)
  | plotDrainEnd (p : PlotIx)
  | release (p : PlotIx)
  | plotOnline (p : PlotIx) (edges : List Nat)
  | plotReset (p : PlotIx)
  | plotPortRequest (p : PlotIx) (source : Option DescRef) (addr : Nat) (acc : Access)
  | plotPortGrant (p : PlotIx)
  | plotPortAcknowledge (p : PlotIx)
  | pllLockChange (n : BitVec 2) (locked : Bool)
  | bankVioMeasurement (b : Fin 12) (mv : BitVec 16)
  | pltFtGroupWrite (p : PlotIx) (val : Word)
  | ftGroupWriteEffect (p : PlotIx)
  -- configuration (11_configuration)
  | fullLoadStart (nor : NorDevice)
  | imageStagingEnd
  | flashDownshift (reread : List Byte)
  | frameWriteEnd (bad : Option Nat)
  | doneDriveRelease
  | doneHighTimer (doneHigh : Bool) (us : Nat)
  | fullRelease
  | normalPersonality
  | stageWindowWrite (off : BitVec 19) (size : Nat) (val : DWord)
  | verify (src : CfgSrc)
  | loadFull (src : CfgSrc)
  | loadPartial (src : CfgSrc)
  | partialLoadEnd (bad : Option Nat)
  | commit (src : CfgSrc)
  | commitEnd (ok : Bool)
  | stageCopy (src : CfgSrc)
  | installKey (src : CfgSrc)
  | revokeKey (src : CfgSrc)
  | eraseStore (src : CfgSrc)
  | reservedCfgCommand (word : Word)
  | gleanerFrameRead (upset : List (BitVec 11)) (goldenReadable : Bool) (rewriteOk : Bool)
  | presenceWindowExpiry
  -- LPDDR6 (12_lpddr6_memory)
  | lpddr6TrainingEnd (passed : List (BitVec 4))
  | lpddr6ZeroInitEnd
  | lpddr6ReadCheck (handle : Word) (granule : Nat) (badBytes : Nat) (reader : Reader)
  | allBankRefresh (sub : Fin 96)
  | memTemperatureRead (temps : List Nat)
  | neighbourRefresh (sub : Fin 96) (bank : BitVec 4) (row : BitVec 19)
  | packageSpare (src : SvcSrc)
  | spareCopyEnd
  -- management packets (13_management_and_resets)
  | reservedOpcode (src : MgmtSrc)
  | identify (src : MgmtSrc)
  | status (src : MgmtSrc) (powerW : BitVec 16) (mv10 : BitVec 16)
  | jobStatus (src : MgmtSrc)
  | regRead (src : MgmtSrc)
  | regWrite (src : MgmtSrc)
  | eventLogRead (src : MgmtSrc)
  | stageWrite (src : MgmtSrc)
  | plotStatus (src : MgmtSrc)
  | plotCommand (src : MgmtSrc)
  | fallowMap (src : MgmtSrc)
  | fallowApprove (src : MgmtSrc)
  | tileRetire (src : SvcSrc)
  | tileRetired (t : TileIx)
  | coreSpare (src : SvcSrc)
  | plotRelocate (src : SvcSrc)
  | vernierLatest (src : MgmtSrc)
  | vernierRecords (src : MgmtSrc)
  | vernierMark (src : MgmtSrc)
  | vernierFwReplace (src : MgmtSrc)
  | lifetimeReset (src : MgmtSrc)
  | bufferAlloc (src : MgmtSrc) (pool : PoolAnswer)
  | bufferFree (src : MgmtSrc) (pool : PoolAnswer)
  | bufferInfo (src : MgmtSrc) (pool : PoolAnswer)
  | poolStatus (src : MgmtSrc)
  | deviceReset (src : MgmtSrc)
  | tileReset (src : MgmtSrc)
  | debugEnable (src : MgmtSrc)
  | debugDisable (src : MgmtSrc)
  | diagRead (src : MgmtSrc)
  | setEndpointId (pkt : MctpPkt) (eid : Byte)
  | getEndpointId (pkt : MctpPkt)
  | getEndpointUuid (pkt : MctpPkt)
  | getMctpVersionSupport (pkt : MctpPkt)
  | getMessageTypeSupport (pkt : MctpPkt)
  | getVendorDefinedMessageSupport (pkt : MctpPkt)
  | unsupportedMctpControl (pkt : MctpPkt) (command : Byte)
  | getVersion
  | getCapabilities
  | negotiateAlgorithms (asymOffered hashOffered : Bool)
  | getDigests
  | getCertificate (slot : BitVec 3) (offset length : BitVec 16)
  | challenge (slot : BitVec 3) (nonce : List Byte)
  | getMeasurements (index : Byte) (signed : Bool)
  | unsupportedSpdmRequest (code : Byte)
  -- the Vernier (14_vernier_and_presence)
  | vernierPowerUp
  | energySample (microvolts microamps : Nat)
  | fwLoadAttempt (verified : Bool)
  | intervalEnd
  | vernierPowerLoss
  | sealCheck (isOpen : Bool)
  -- faults and fallow capacity (15_faults_and_fallow)
  | tileFault (t : TileIx)
  | selfTestEnd (t : TileIx) (passed : Bool)
  | wearMeasurement (t : TileIx) (drift : BitVec 16)
  | rowSpare (t : TileIx) (bank : BitVec 4) (row : BitVec 11)
  | inputV (mv : Nat)
  | imageHeaderStaged
  | stageCopyEnd
  | coreSpared (parityFree : Bool)
  | plotRelocated (bad : Option Nat)
  | entdaa (address : BitVec 7)
  | vfEnable (enable : Bool) (numVfs : BitVec 16) (ari : Bool)
  deriving DecidableEq, Repr

end Sys2Proof
end

