-- ==== Sys2Proof/Config.lean ====
section
/-!
DEFINITION. What one shipped module fixes and the manual leaves to it (fuses, keys, firmware), and the free values:
constants with no body, so that no proof can see a value. Each is named in the assumption log.
-/
namespace Sys2Proof.Config

/-- CFG_SERIAL, the module's fused serial (R393). -/
opaque serial : BitVec 64

/-- At which corner of the mesh the two edges with the front-end cores meet (R189): the manual does not say. -/
opaque coreCorner : Fin 4
/-- The 64-bit digest that a greeting carries, of the VALID peer entries and their bases (R277): the manual names no
function. -/
opaque peerDigest : List (Nat × Nat) → BitVec 64

/-- TILE_ID as fused at manufacturing test, STATE and LOGICAL (R121): which 128 tiles are fallow (R15). -/
opaque fusedTileState : Nat → Nat
/-- The fused logical index of a tile in service (R121). -/
opaque fusedLogical : Nat → Nat

/-- The Vernier's own fused serial (R439). -/
opaque vernierSerial : BitVec 64
/-- The energy register in mJ at the state taken as the start of the model (R437). -/
opaque vernierEnergy0 : Nat
/-- The octets of the Vernier's public modulus (R441, VRN_PUBKEY). -/
opaque vernierModulus : Nat → Byte
/-- The octets of VRN_CERT: a byte count, then a DER chain (R455). -/
opaque vernierCert : Nat → Byte
/-- RSASSA-PSS signature octet `i` of the record numbered `n` (R441): the key is never disclosed and the salt is
random. -/
opaque vernierSignature : Nat → Nat → Byte
/-- The modulus of the Vernier firmware key, held in its boot ROM (R447). -/
opaque vernierFwModulus : Nat

/-- ROM, dome controller and Vernier firmware versions (R422, IDENTIFY). -/
opaque romVersion : Nat
/-- Dome controller firmware version. -/
opaque domeFwVersion : Nat
/-- Version of the firmware in the Vernier's active slot at manufacture. -/
opaque vernierFwVersion : Nat
/-- SHA-512 octets of the ROM (index 1), the dome firmware (2) and the Vernier's first firmware (3) (R428). -/
opaque firmwareDigest : Nat → Nat → Byte
/-- MCTP endpoint UUID octets (R426). -/
opaque endpointUuid : Nat → Byte
/-- SPDM certificate chain octets of slot 0 (R427). -/
opaque spdmCert : Nat → Byte
/-- The last octet's number in that chain; DSP0274's offsets have 16 bits (PRESUMED). -/
opaque spdmCertLast : BitVec 16
/-- Length of the chain in bytes. -/
def spdmCertLen : Nat := spdmCertLast.toNat + 1
/-- Octet `i` of the `n`th SPDM signature (R427): under an undisclosed key. -/
opaque spdmSignature : Nat → Nat → Byte
/-- Cuolnal's PCI vendor identifier (R426). -/
opaque pciVendor : Nat
/-- DataTransferSize and MaxSPDMmsgSize of CAPABILITIES (R427 names no size). -/
opaque spdmSizes : Nat
/-- Octet `i` of the `n`th SPDM nonce (R427): random. -/
opaque spdmNonce : Nat → Nat → Byte
/-- The fallow tiles that hold the staging area and golden copy (R359): the manual does not say which. -/
opaque stagingTile : Nat → Bool
/-- What DIAG_READ finds at an address of a tier where no buffer's page lies (R424). -/
opaque diagByte : Nat → Nat → Byte
/-- The modulus in configuration key slot 0 at shipment: Cuolnal's key (R390). -/
opaque factoryKey : Nat

/-- A free number, one for each number: what the manual leaves open and the machine goes on with. -/
opaque freeNat : Nat → Nat

/-- A lane of CVT when FROM or TO is FP64, which no 32-bit lane holds (R115 states no packing for it). -/
opaque cvtWide : Nat → Nat → Word → Word
/-- The flags of such a lane. -/
opaque cvtWideFlags : Nat → Nat → Word → BitVec 5
/-- A lane of FCMP under a compare code 4 to 7, which R116 leaves undefined. -/
opaque cmpOther : Nat → Word → Word → Bool

/-- What plot `p`'s design answers to the `n`th read, at byte `addr` of its window (R347): the design is the user's. -/
opaque plotByte : Nat → Nat → Nat → Byte
/-- A byte of another module's register or plot window (R273): that module's state is outside this model. -/
opaque remoteByte : Nat → Nat → Nat → Byte

/-- The term of the user semiring of a field tile (R353): operand bits of a and b to accumulator bits. -/
opaque userTerm : Nat → Nat → BitVec 64
/-- The combination of the user semiring (R353). -/
opaque userCombine : BitVec 64 → BitVec 64 → BitVec 64
/-- The identity of the user semiring (R353). -/
opaque userIdentity : BitVec 64
/-- The exception flags (R72 bits [5:0]) of a user term (R353). -/
opaque userFlags : Nat → Nat → BitVec 6
/-- The number that an element of a user format stands for, as FP64 bits (R353: the format's meaning is the user's). -/
opaque userDecode : Nat → Nat → BitVec 64
/-- The element of a user format that an accumulator of a format converts to. -/
opaque userEncode : Nat → Nat → Nat → Nat
/-- The exception flags of that conversion. -/
opaque userEncodeFlags : Nat → Nat → Nat → BitVec 6
/-- A user vector operation 0x60 + u on one lane (R351, R354). -/
opaque userOp : Nat → Word → Word → Word

/-- The multiplexer input counts of the fabric: the number of inputs of multiplexer `m` of a frame, and where its
select field lies (R332); 0 inputs: no multiplexer there. -/
opaque muxInputs : Nat → Nat → Nat
/-- Lowest bit of multiplexer `m`'s select field in its frame. -/
opaque muxLow : Nat → Nat → Nat
/-- Width of multiplexer `m`'s select field. -/
opaque muxWidth : Nat → Nat → Nat
/-- Number of multiplexers in a frame. -/
opaque muxCount : Nat → Nat

/-! The fabric (R326 to R338): where the image's bits configure each element is not in the manual. -/

/-- An element of the logic ring that has inputs: by frame and place in it a logic cell, a DSP block or a block RAM; a
pin's I/O cell; and a border cell, leaving or entering a plot at a site. -/
inductive Element where
  | cell (frame i : Nat)
  | dsp (frame i : Nat)
  | ram (frame i : Nat)
  | pin (i : Nat)
  | leave (site position : Nat)
  | enter (site position : Nat)
  deriving DecidableEq, Repr

/-- A signal of the fabric. -/
inductive Wire where
  | zero
  | mux (frame m : Nat)
  | lut (frame i half : Nat)
  | carry (frame i half : Nat)
  | flop (frame i n : Nat)
  | dspOut (frame i bit : Nat)
  | ramOut (frame i port bit : Nat)
  | pinIn (i : Nat) (falling : Bool)
  | left (site position : Nat)
  | entered (site position : Nat)
  | meridian (bit : Nat)
  | resetRequest (site : Nat)
  deriving DecidableEq, Repr, Inhabited

/-- The logic cells, DSP blocks and block RAMs that lie in a frame (R327), by their places in it. -/
opaque frameCells : Nat → List Nat
/-- DSP blocks of a frame. -/
opaque frameDsps : Nat → List Nat
/-- Block RAMs of a frame. -/
opaque frameRams : Nat → List Nat
/-- The settings that a frame's contents give a logic cell, a DSP block or a block RAM: frame, place, contents. -/
opaque cellBits : Nat → Nat → Nat → Nat
/-- A DSP block's settings. -/
opaque dspBits : Nat → Nat → Nat → Nat
/-- A block RAM's settings. -/
opaque ramBits : Nat → Nat → Nat → Nat
/-- Initial contents of a block RAM: frame, place, contents of the frame, word. -/
opaque ramInit : Nat → Nat → Nat → Nat → BitVec 64
/-- The frame in which a pin's I/O cell lies, and the settings it gives. -/
opaque pinFrame : Nat → Nat
/-- An I/O cell's settings: pin, contents of its frame. -/
opaque pinBits : Nat → Nat → Nat
/-- The routing multiplexer that drives input `k` of an element (R332), by frame and number. -/
opaque elemInput : Element → Nat → Nat × Nat
/-- Input 1 to n of a multiplexer: frame, multiplexer, input. -/
opaque muxWire : Nat → Nat → Nat → Wire
/-- The cell below a logic cell, or a DSP block, in its column, within its region (R328, R330). -/
opaque cellBelow : Nat → Nat → Option (Nat × Nat)
/-- The DSP block below one. -/
opaque dspBelow : Nat → Nat → Option (Nat × Nat)
/-- A signal that a combinational loop feeds: the manual gives it no level. -/
opaque loopLevel : Wire → Bool
/-- A pre-adder sum outside 24 bits as the multiplier takes it (R330 gives the two widths only). -/
opaque wideFactor : BitVec 25 → BitVec 24
/-- A DSP accumulator whose exact sum lies outside 56 bits (R330). -/
opaque accOver : Int → BitVec 56
/-- What a block RAM's port shows after an edge at which it writes (R331 gives the other port's reading). -/
opaque ramWritten : Nat → Nat → Nat → Nat → BitVec 64
/-- A block RAM bit that two ports on different clocks write in one core cycle. -/
opaque ramRace : Nat → Nat → Nat → Bool
/-- The bits of block RAM words that an upset flips in a core cycle: frame, place, word, data and check bits. -/
opaque ramUpsets : Nat → List (Nat × Nat × Nat × BitVec 72)
/-- Global clock tree `t` has a rising edge in a core cycle, where its source runs (R333). -/
opaque treeEdge : Nat → Nat → Bool
/-- The level outside a pin in a core cycle, at the rising and the falling edge of its clock. -/
opaque pinLevel : Nat → Nat → Bool → Bool

/-- The physical block of tier storage that the placement engine gives a page (R165): diagnostic addresses only. -/
opaque pageOffset : Nat → Nat

/-- The values that the placement engine gives the regulator of a tile's channel, from which BURST and RATE are taken; the
manual leaves them to the engine (R200). -/
opaque regulator (tile ch : Nat) : BitVec 8 × BitVec 9

end Sys2Proof.Config
end

