-- ==== Sys2Proof/Machine/State.lean ====
section
/-!
DEFINITION. The state of the module as plain data, the reasons a command can stop, and the state right after a POR.
Every register of the BAR0 map has one home, the register file `regs`, which lists only the words that differ from
their reset value (RegMap); everything else the manual names stands in a field of its own.
-/
namespace Sys2Proof.Machine
open Sys2Proof

/-- Why a command faults. -/
inductive Fault where
  /-- Raised by `execMac2` (XR or YR odd, R307) and by `execOut` (a staging slot past the 1,020 of R300): a form that
  names a part the manual does not give. Safe: the model stops where the manual gives nothing. -/
  | noSuchPlace
  deriving DecidableEq, Repr

/-- Why a command is refused. -/
inductive Refusal where
  /-- Raised only by an arm of `exec` whose command has no meaning yet. Safe: nothing is claimed of it. -/
  | notModelled (mnemonic : String)
  deriving DecidableEq, Repr

/-- What the module sends to the outside: messages on PCIe, to peers, on its pins' buses. -/
inductive Sent where
  | msix (fn : Nat) (vec : Nat)
  | completerAbort
  | unsupportedRequest
  | greeting (dst : Nat) (id : Nat) (digest : Nat)
  | fenceRead (dst : Nat)
  | moduleArrival (dst : Nat) (b : Nat) (phase : Bool)
  | arrivalReturned (dst : Nat) (b : Nat)
  | release (dst : Nat) (b : Nat) (phase : Bool)
  | twinMasks (dst : Nat) (masks : List Nat)
  | tally (dst : Nat) (alm : Nat) (pos : Nat) (idx : Nat) (digest : List Byte)
  | retry (dst : Nat)
  | mctp (bytes : List Byte)
  | i3cInterrupt
  | spdm (code : Nat) (body : List Byte)
  | poolRequest (dst : Nat) (request : List Byte)
  | poolReply (dst : Nat) (reply : List Byte)
  | replicate (dst : Nat) (member : Nat) (request reply : List Byte)
  | daCode (port : Nat) (conv : Nat) (code : Nat)
  /-- An initial lane alignment sequence: its multiframes, and the octets of each transmit lane (R296). -/
  | ilas (port : Nat) (multiframes : Nat) (lanes : List LaneIlas)
  | granule (tile : Nat) (entry : Nat) (number : Nat) (receivers : List Nat)
  | plotRequest (plot : Nat) (addr : Nat) (acc : Access)
  deriving DecidableEq, Repr

/-- The exception summary of a pass or a descriptor (R72, R163): flags, first NaN and recorded event. -/
structure Summary where
  flags : Nat
  /-- (iteration, raised in the drain, k) of the first NaN. -/
  nan : Option (Nat × Bool × Nat)
  /-- (iteration, in drain, k, m, n, cause) of the recorded event. -/
  evt : Option (Nat × Bool × Nat × Nat × Nat × Nat)
  deriving DecidableEq, Repr

/-- How far a descriptor has come (R140, R160). -/
inductive RunPhase where
  | waiting
  | running
  | computed
  | finished
  deriving DecidableEq, Repr

/-- A sequence context's row state (R149). -/
structure SeqRow where
  m : Word
  l : Word
  acc : List Word
  deriving DecidableEq, Repr

/-- A live sequence context (R148). -/
structure SeqCtx where
  rows : Nat
  dims : Nat
  positions : Nat
  /-- The tile whose near store holds it (R205). -/
  tile : Nat
  state : List SeqRow
  deriving DecidableEq, Repr

/-- A pin of a buffer (R193). -/
structure Pin where
  tier : Nat
  group : Bool
  affinity : Nat
  deriving DecidableEq, Repr

/-- The run of one descriptor. -/
structure Run where
  phase : RunPhase
  code : Nat
  detailHandle : Nat
  detailOffset : Nat
  /-- Its predecessors have all completed with OK, so its stall timer runs (R228). -/
  predsMet : Bool
  /-- Its predecessors have all completed with OK and no SERIAL gate holds it, so its waits are registered (R223). -/
  armed : Bool
  /-- The core cycle in which each flag wait held, once it has (R211, R212). -/
  wait0 : Option Nat
  wait1 : Option Nat
  reg0 : Bool
  reg1 : Bool
  /-- The waits whose wake has reached the tile (R223). -/
  woke : List Nat
  ready : Option Nat
  readyCycle : Option Nat
  restarts : Nat
  /-- The core cycle of its first start, once it has started. -/
  startCycle : Option Nat
  startMeridian : Nat
  counts : List Nat
  tiles : List Nat
  unitsPlaced : List (Nat × Nat)
  preempted : Bool
  stallReported : Bool
  /-- Core cycle from which the wait-stall timer runs, and the time it ran before a pre-emption (R225, R228). -/
  stallFrom : Nat
  stallElapsed : Nat
  fencePending : List Nat
  /-- The module's count of writes to other modules when the reads of a pool-scope FENCE went out (R214). -/
  fenceIssued : Option Nat
  barPhase : Option Nat
  barReleased : Bool
  barHeld : Bool
  summary : Summary
  tally : List Byte
  parts : Option TallyParts
  countValue : Option Nat
  /-- The sequence context as it stands after the commit (R150); none inside: freed. -/
  seqNew : Option (Nat × Option SeqCtx)
  /-- The pin of a buffer as it stands after the commit (R193, R194), and whether a MOVE TIER has begun its copies. -/
  pinNew : Option (Nat × Option Pin)
  tierBegun : Bool
  /-- The slots that its sequencer contexts read ahead of its start, each with the tile (R185). -/
  runAhead : List (Nat × Nat)
  /-- For each handle of an enabled swap pair that a view names, the member that is read (R322). -/
  swaps : List (Nat × Nat)
  /-- The handles that its input views read, once it has started (R324). -/
  reads : List Nat
  /-- By view index, the address after the last one that the run has asked a plot window for (R168). -/
  windowNext : List (Nat × Nat)
  twinSent : Option Nat
  twinOk : Bool
  deriving DecidableEq, Repr

/-- A submission that an almanac has taken (R133). -/
structure Sub where
  pos : Nat
  slots : Nat
  header : BitVec 1024
  views : List (BitVec 256)
  descs : List (BitVec 1024)
  runs : List Run
  finished : Bool
  firstStart : Option Nat
  firstMeridian : Nat
  lastEnd : Nat
  lastMeridian : Nat
  deriving DecidableEq, Repr

/-- An almanac's inner state beside its registers (R123 to R132). -/
structure Alm where
  /-- Ring count of the next submission to read. -/
  next : Nat
  subs : List Sub
  halted : Bool
  tookLoop : Bool
  /-- The count registers that COUNT commits of one core cycle have written, with that cycle (R145). -/
  countCommits : List (Nat × Nat)
  deriving DecidableEq, Repr

/-- A live handle (R269 to R273). -/
structure Handle where
  id : Nat
  size : Nat
  kind : Nat
  tier : Nat
  access : Nat
  plot : Nat
  winOffset : Nat
  home : Nat
  pin : Option Pin
  lost : List Nat
  deriving DecidableEq, Repr

/-- Where a page lies (R165): module, tier (0 tile store, 1 near store, 2 LPDDR6) and tile. -/
structure PagePlace where
  module : Nat
  tier : Nat
  tile : Nat
  deriving DecidableEq, Repr

/-- A page copy under way (R196). -/
structure PageCopy where
  handle : Nat
  page : Nat
  dest : PagePlace
  /-- The tile whose stream engine copies it, with transfers of class 3. -/
  tile : Nat
  /-- The MOVE TIER that asked for it. -/
  owner : Option DescRef
  issued : Nat
  outstanding : List Nat
  /-- The cycle in which it began (R197). -/
  start : Nat
  deriving DecidableEq, Repr

/-- The placement engine beside the pages' places (R167, R195). -/
structure Engine where
  /-- The cycle in which the epoch began. -/
  epochStart : Nat
  /-- Granule accesses of the epoch, by page: by requesting tile, and by requesting module. -/
  byTile : List (Nat × List (Nat × Nat))
  byModule : List (Nat × List (Nat × Nat))
  /-- Accesses to each page in the epoch before. -/
  last : List (Nat × Nat)
  /-- By page, the consecutive epochs in which each module met the cross-module condition. -/
  epochRuns : List (Nat × List (Nat × Nat))
  /-- Lines of the near-store cache: handle, 4 KiB line and the tile that holds it. -/
  cache : List (Nat × Nat × Nat)
  deriving DecidableEq, Repr

/-- A pass (R89, R98, R99). -/
structure Pass where
  owner : DescRef
  /-- The number of its unit among those built on the tile. -/
  no : Nat
  fields : PassFields
  /-- Its k indices; the last k-step holds what they leave over (R88). -/
  kLen : Nat
  /-- By panel, the pitch and the start that cut k into groups of one scale byte (R136). -/
  aGroups : Nat × Nat
  bGroups : Nat × Nat
  bank : Nat
  t0 : Option Nat
  entered : Nat
  /-- The cycle in which its last k-step entered. -/
  tLast : Option Nat
  /-- Stall cycles met after its last k-step entered (R101). -/
  shift : Nat
  drainStart : Option Nat
  drainShift : Nat
  summary : Summary
  /-- Flag-plane bits by output 32m + n (R76). -/
  planes : List (Nat × Nat)
  deriving DecidableEq, Repr

/-- One element that a stream context brings to a tile (R106, R173): the arming of the context that brings it; its handle,
its bits and its index in the buffer; its first bit in the area; and the first and the last k-step that take it. -/
structure Place where
  arming : Nat
  handle : Nat
  bits : Nat
  index : Int
  pos : Nat
  first : Nat
  last : Nat
  deriving DecidableEq, Repr

/-- A stream context that fills an area of tile store for a unit (R170, R174): its slot (MMA: 0 A, 1 B, 2 bias, 3 A scales,
4 B scales), the ring, and the side ring where it splits F19 elements (R107). -/
structure Fill where
  slot : Nat
  ring : Ring
  side : Ring
  split : Bool
  places : List Place
  /-- Transfers issued, and those of them that have not arrived. -/
  issued : Nat
  outstanding : List Nat
  /-- The multicast stream that feeds it: source tile and tree entry (R202). -/
  remote : Option (Nat × Nat)
  deriving DecidableEq, Repr

/-- What a unit does on its tile: a pass, an invocation of the vector engine, or nothing that a command shows. -/
inductive UnitWork where
  | pass (p : Pass)
  | invocation
  | other
  deriving DecidableEq, Repr

/-- A unit that the sequencer has built on a tile (R89, R187): its number there, its contexts, its output areas (slot, base
and granules), and whether its pass has issued or its invocation begun. -/
structure BuiltUnit where
  owner : DescRef
  unit : Nat
  no : Nat
  work : UnitWork
  fills : List Fill
  outs : List (Nat × Nat × Nat)
  issued : Bool
  deriving DecidableEq, Repr

/-- An output area that its context reads out (R174). -/
structure OutArea where
  owner : DescRef
  no : Nat
  slot : Nat
  base : Nat
  count : Nat
  issued : Nat
  outstanding : List Nat
  deriving DecidableEq, Repr

/-- A multicast stream of a tile (R202 to R204). -/
structure Stream where
  entry : Nat
  owner : DescRef
  slot : Nat
  ring : Ring
  side : Ring
  places : List Place
  /-- The next granule, whether its read is under way or done, and the receivers that have granted space for it. -/
  next : Nat
  reading : Bool
  loaded : Bool
  credits : List Nat
  /-- The one receiver that holds the stream: since how many consecutive cycles, and the last of them. -/
  heldBy : Option (Nat × Nat × Nat)
  lagged : List Nat
  deriving DecidableEq, Repr

/-- A flit of the Hedgerow (R198): its channel (0 request, 1 response, 2 multicast, 3 control), source and destination, its
entry in the source's route table, the receivers of a tree that it has still to pass, the transfer that it belongs to (tile,
key and number), and the first cycle in which it may move on. -/
structure Flit where
  ch : Nat
  src : Nat
  dst : Nat
  rowFirst : Bool
  entry : Nat
  drops : List Nat
  tag : Nat × Nat × Nat
  ready : Nat
  deriving DecidableEq, Repr

/-- The Hedgerow (R198 to R201). -/
structure Hedge where
  /-- Flits that wait for injection, by 4 × tile + channel. -/
  waiting : List (Nat × List Flit)
  /-- Input queues, by 4 × (5 × tile + port) + channel; ports 0 north, 1 east, 2 south, 3 west, 4 the tile's own. -/
  queues : List (Nat × List Flit)
  /-- The channel that each output last served in rotation, plus one, by 4 × tile + direction. -/
  served : List (Nat × Nat)
  /-- Tokens of each regulator in 1/256 flit, by 4 × tile + channel. -/
  tokens : List (Nat × Nat)
  /-- By link, 4 × tile + direction: the first cycle in which it takes its next flit, and the consecutive replays of the flit
  that it carries. -/
  busy : List (Nat × Nat)
  replays : List (Nat × Nat)
  /-- Links that failed 16 replays and wait for their retraining, and links that run on one half (R463). -/
  failed : List Nat
  half : List Nat
  deriving DecidableEq, Repr

/-- Where a vector-engine write goes. -/
inductive VeDest where
  | v (r : Nat)
  | m (r : Nat)
  | a (r : Nat)
  deriving DecidableEq, Repr

/-- A pending vector-engine write (R110): when it takes effect, where, and the new value. -/
structure VePend where
  due : Nat
  dest : VeDest
  lanes : List Word
  mask : BitVec 64
  addr : Int
  deriving DecidableEq, Repr

/-- A pending VST (R110): the granules and the cycle from which a VLD sees them. -/
structure VeStore where
  due : Nat
  granule : Int
  lanes : List Word
  deriving DecidableEq, Repr

/-- An address register (R108). -/
structure VeAddr where
  val : Int
  base : Nat
  limit : Nat
  deriving DecidableEq, Repr

/-- A vector-engine loop level (R117). -/
structure VeLoop where
  first : Nat
  last : Nat
  left : Nat
  deriving DecidableEq, Repr

/-- The vector engine of a tile (R108, R109). -/
structure Ve where
  running : Option (DescRef × Nat)
  pc : Nat
  /-- Issue cycle since the invocation began. -/
  cyc : Nat
  v : List (Nat × List Word)
  m : List (Nat × BitVec 64)
  a : List (Nat × VeAddr)
  loops : List VeLoop
  pend : List VePend
  stores : List VeStore
  /-- Granules that the invocation's VSTs wrote. -/
  written : List Nat
  /-- Operands that may be written, by address register (R151). -/
  write : List Nat
  flags : Nat
  checking : Bool
  failure : Nat
  /-- The micro-program store: the words of the resident programs, most recently used first (R108). -/
  resident : List (List Nat)
  /-- The first cycle in which the next invocation may begin (R109). -/
  next : Nat
  deriving DecidableEq, Repr

/-- A direct arming (R175). -/
structure Arming where
  src : Nat
  dst : Nat
  srcOff : Nat
  dstOff : Nat
  srcStride : Int
  dstStride : Int
  rows : Nat
  rowBytes : Nat
  recHandle : Nat
  recIndex : Nat
  add : Nat
  flag : Nat
  loop : Bool
  seq : Nat
  /-- The first core cycle in which a transfer may issue (R177). -/
  first : Nat
  /-- The next transfer, 2^24 × the source granule + the row's place in source order; none: all have issued (R173). -/
  issued : Option Nat
  outstanding : List Nat
  bytes : Nat
  code : Nat
  detail : Nat
  ended : Bool
  deriving DecidableEq, Repr

/-- A stream context (R169, R177). -/
structure StmCtx where
  active : Option Arming
  shadow : Option Arming
  seq : Nat
  recordCycle : Option Nat
  deriving DecidableEq, Repr

/-- A tile that has left service for good (R469, R470): its substitute, the cause, whether it was a loop tile, and the
logical index that it held. -/
structure Retire where
  sub : Option Nat
  cause : Nat
  loop : Bool
  logical : Nat
  deriving DecidableEq, Repr

/-- A tile's state beside its registers. -/
structure Tile where
  preempt : Bool
  /-- The tile belongs to a loop group and is being emptied of other work (R190). -/
  loopDue : Bool
  passes : List Pass
  issuedPasses : Nat
  /-- The cycle after the last drain's end; 0: none yet. -/
  lastDrainEnd : Nat
  /-- The first cycle in which the array takes its next k-step. -/
  arrayNext : Nat
  /-- The thread whose pass issued last (R102). -/
  lastThread : Option DescRef
  bankBits : List (Nat × BitVec 64)
  store : List Host.Cell
  excStamp : Option (Nat × Nat)
  ve : Ve
  stm : List (Nat × StmCtx)
  /-- The units built on the tile, how many there have been, their output areas, and its multicast streams. -/
  units : List BuiltUnit
  built : Nat
  outputs : List OutArea
  streams : List Stream
  /-- The cycle of the last granule issue; by class, the carrier served last, and the cycle since which the class has waited
  with a transfer ready (R172). -/
  issueCycle : Option Nat
  turns : List (Nat × Nat)
  waits : List (Nat × Nat)
  directWanted : Option Nat
  threads : List (DescRef × Nat)
  faults : List Nat
  selfTest : Bool
  spareUsed : List (Nat × Nat)
  rowMap : List (Nat × Nat)
  retiring : Option Retire
  resetting : Bool
  /-- Route-table entries that the placement engine has written (R199). -/
  routes : List (Nat × Nat)
  deriving DecidableEq, Repr

/-- A barrier object's inner state on this module (R218). -/
structure Bar where
  /-- Phases complete locally; SENSE is its parity. -/
  phase : Nat
  /-- Phases released; GENERATION is this number. -/
  released : Nat
  count : Nat
  waiters : List (DescRef × Nat)
  held : List (Option DescRef)
  /-- Home only: module arrivals (module, phase parity). -/
  arrivals : List (Nat × Bool)
  deriving DecidableEq, Repr

/-- One receive lane's inner state (R291 to R298). -/
structure Lane where
  synced : Bool
  inverted : Bool
  logical : Option Nat
  deriving DecidableEq, Repr

/-- A front-end core (R300). -/
structure Core where
  program : List Nat
  xInit : List Nat
  y : List (Nat × BitVec 24)
  o : List (Nat × BitVec 24)
  acc : List (Nat × BitVec 56)
  d : List (Nat × BitVec 24)
  /-- Address registers 0–3 XA, 4–7 YA: value, base, length, offset. -/
  addr : List (Nat × (Nat × Nat × Nat × Int))
  pc : Nat
  cycles : Nat
  running : Bool
  /-- The batch of the running invocation: first ring position and stamp. -/
  batch : Option (Nat × Nat)
  waiting : Option (Nat × Nat)
  frameNo : Nat
  /-- An EMIT's frame has left since RUN, or may still be leaving (R304). -/
  emitted : Bool
  heldX : List (Nat × Word)
  repLeft : Nat
  repFirst : Nat
  repLast : Nat
  parityEvents : List Nat
  deriving DecidableEq, Repr

/-- A port's links and core (R287 to R313). -/
structure Port where
  lanes : List (Nat × Lane)
  lmfcAligned : Bool
  /-- The core cycle in which the LMFC counter was last set to 0 (R295). -/
  lmfcZero : Nat
  /-- The core cycle in which the receive link entered its RX_STATE (R290). -/
  rxSince : Nat
  /-- The core cycle from which SYNCI has been high (R296). -/
  synci : Option Nat
  /-- The core cycle in which the transmit link entered its TX_STATE. -/
  txSince : Nat
  core : Core
  /-- The newest held code of each converter (R311, R312), and the slot and core cycle of its last firing (R310). -/
  held : List (Nat × BitVec 24)
  heldBy : List (Nat × Nat × Nat)
  /-- Held codes still in their 64 cycles: converter, the core cycle from which a frame carries it, code (R312). -/
  coming : List (Nat × Nat × BitVec 24)
  /-- The held code that the frames of each converter carry. -/
  live : List (Nat × BitVec 24)
  sentCode : List (Nat × Nat)
  /-- Meridian cycle in which each slot last fired, plus one. -/
  fired : List (Nat × Nat)
  deriving DecidableEq, Repr

/-- The meridian's inner state (R314 to R319). -/
structure Meridian where
  cycleNo : Nat
  phase : Nat
  tick : Nat
  tickCycle : Nat
  /-- D of R316, once defined. -/
  d : Option Nat
  /-- The level of ZERO at the last tick since ENABLE was set. -/
  prevZero : Option Bool
  errors : Nat
  everStarted : Bool
  running : Bool
  deriving DecidableEq, Repr

/-- A request at a plot's port (R347). -/
structure PortReq where
  source : Option DescRef
  addr : Nat
  acc : Access
  /-- Of a host's read: its answer begins the answer of the host's access, and the bytes 0xFF past the handle's end that
  follow it (R268). -/
  first : Bool
  tail : Nat
  deriving DecidableEq, Repr

/-- A DSP block's three pipeline stages (R330): the pre-added input and the other factor, the product, the accumulator. -/
structure Dsp where
  pre : BitVec 25
  b : BitVec 24
  product : BitVec 48
  acc : BitVec 56
  deriving DecidableEq, Repr

/-- A block RAM port's output with its SECDED signals (R331). -/
structure RamPort where
  data : BitVec 64
  corrected : Bool
  uncorrectable : Bool
  deriving DecidableEq, Repr

/-- A pin's I/O cell (R338): the two bits of its input, output and tristate registers, and its delays in taps. -/
structure IoCell where
  inRise : Bool
  inFall : Bool
  outRise : Bool
  outFall : Bool
  triRise : Bool
  triFall : Bool
  inTaps : Nat
  outTaps : Nat
  deriving DecidableEq, Repr

/-- The logic ring's own state (R326 to R340), by frame and place in it. -/
structure Fabric where
  /-- The flip-flops that hold 1: frame, cell, number. -/
  flops : List (Nat × Nat × Nat)
  dsps : List ((Nat × Nat) × Dsp)
  /-- Block RAM words of 64 bits: frame, block, word. -/
  rams : List ((Nat × Nat × Nat) × BitVec 64)
  /-- The bits of a word, check bits above data, that an upset has flipped. -/
  flips : List ((Nat × Nat × Nat) × BitVec 72)
  /-- Block RAM ports 0 (A) and 1 (B). -/
  ramPorts : List ((Nat × Nat × Nat) × RamPort)
  ios : List (Nat × IoCell)
  /-- The leaving signals, by plot and position, whose border cell holds 1 while parked (R340). -/
  held : List (Nat × Nat)
  deriving DecidableEq, Repr

/-- A logical plot's inner state (R342 to R349). -/
structure Plot where
  accepted : List PortReq
  waiting : List PortReq
  /-- The tile that the port served last (R348). -/
  lastTile : Nat
  /-- Gates open, the sixteenth edge still to come (R345, R346). -/
  releasing : Bool
  /-- The reset request at the plot's border (R334). -/
  resetRequest : Bool
  /-- The plot holds a design. -/
  design : Bool
  /-- Capability word, user word and latencies of the plot's image (R351). -/
  words : Nat × Nat × Nat
  /-- BUILD_TAG of the partial image loaded into the plot; 0 with its full-image design or none (R428). -/
  tag : Nat
  /-- Units that run on the plot's field tile: descriptor and contexts (R356). -/
  units : List (DescRef × Nat)
  /-- A held write of PLT_FT_GROUP (R355). -/
  ftHeld : Option Nat
  deriving DecidableEq, Repr

/-- A configuration command under way (R387). -/
structure CfgRun where
  command : Nat
  plot : Nat
  slot : Nat
  commitAfter : Bool
  /-- The store is being written (R382 steps 2 to 5). -/
  committing : Bool
  /-- A management packet gave the command. -/
  packet : Bool
  deriving DecidableEq, Repr

/-- The configuration machinery (R358 to R393). -/
structure Cfg where
  staging : List Host.Cell
  /-- One past the highest byte staged. -/
  staged : Nat
  store : List Host.Cell
  storeBytes : Nat
  journalBegin : Option (Nat × List Byte)
  journalEnd : Bool
  /-- Configuration memory, its golden copy and the criticality masks, by physical frame address (R327, R389). -/
  frames : List (Nat × Nat)
  golden : List (Nat × Nat)
  masks : List (Nat × Nat)
  /-- The loaded full image's declaration and BUILD_TAG, and the digest of its signed bytes (R428). -/
  declaration : List Byte
  tag : Nat
  loadedHash : List Byte
  /-- Pin entries that partial images have set, by pin (R386). -/
  pins : List (Nat × Nat)
  keys : List (Nat × Nat)
  run : Option CfgRun
  releaseBegun : Bool
  trainingEnded : Bool
  framesWritten : Bool
  /-- LOAD_PULL as it holds the banks now (R376). -/
  loadPull : Nat
  /-- The place of the gleaner's next frame in its scan (R388). -/
  scanAt : Nat
  nor : Option NorDevice
  /-- A second reading of the NOR image is due (R363). -/
  reread : Bool
  tilesReleased : Bool
  deriving DecidableEq, Repr

/-- The LPDDR6 controllers' inner state (R394 to R414). -/
structure Lpddr where
  /-- By bank (16 × subchannel + bank), its table of rows and counts (R408). -/
  tables : List (Nat × List (Nat × Nat))
  /-- By subchannel, refreshes issued and the time since the origin from which the next one falls due (R405). -/
  refreshes : List (Nat × (Nat × Nat))
  /-- The core cycle in which training ended. -/
  origin : Nat
  /-- Physical packages on the short refresh interval, with the cycle since which they have read 80 °C or below (R407). -/
  hot : List (Nat × Option Nat)
  /-- The logical package being spared, and the cycle in which its copy began (R411). -/
  spare : Option (Nat × Nat)
  /-- Uncorrectable granules, by handle and granule of the buffer (R401, R402). -/
  badGranules : List (Nat × Nat)
  /-- By logical package, the cycles of its corrected and of its uncorrectable events (R466). -/
  corrected : List (Nat × List Nat)
  uncorrected : List (Nat × List Nat)
  deriving DecidableEq, Repr

/-- A background area's last command (R420). -/
structure Job where
  code : Nat
  sequence : Nat
  state : Nat
  opcode : Nat
  deriving DecidableEq, Repr

/-- The management transports and the dome controller (R416 to R434). -/
structure Mgmt where
  jobs : List (Nat × Job)
  mbxRequest : Option (List Byte)
  lastMbx : Option (List Byte × List Byte)
  lastMctp : Option (List Byte × List Byte)
  eid : Nat
  dynAddr : Nat
  debug : Bool
  /-- The presence-gated command that waits: opcode, acceptance cycle, and whether CFG_CMD gave it. -/
  presence : Option (Nat × Nat × Bool)
  /-- The cycle in which DEVICE_RESET was answered (R433). -/
  softDue : Option Nat
  /-- The tile whose TILE reset runs (R434). -/
  tileResetJob : Option Nat
  spdmNegotiated : Bool
  spdmCount : Nat
  deriving DecidableEq, Repr

/-- A marker of the Vernier (R445). -/
structure Mark where
  job : Nat
  energy : Nat
  offsetUs : Nat
  deriving DecidableEq, Repr

/-- The Vernier (R435 to R451). -/
structure Vrn where
  powered : Bool
  fwRunning : Bool
  /-- The integrator, in units of 10^-18 J. -/
  joules : Nat
  /-- Records, newest first. -/
  records : List (List Byte)
  nextInterval : Nat
  lastEnergyMj : Nat
  lastHash : List Byte
  /-- Microseconds since the open interval began, and since the Vernier's power-up (R438). -/
  sampleUs : Nat
  upUs : Nat
  first : Bool
  sealTouched : Bool
  sealIsOpen : Bool
  fwVersion : Nat
  lastRecordFw : Nat
  fwDigestNew : Option (List Byte)
  marks : List Mark
  pMax : Nat
  pMin : Nat
  vMax : Nat
  vMin : Nat
  flags : Nat
  msEnergy : Nat
  msVolts : Nat
  msSamples : Nat
  /-- A record body stored at a loss of power, still to be signed (R440). -/
  stored : Option (List Byte)
  /-- Firmware being written into the inactive slot: its VERSION and digest (R449). -/
  replacing : Option (Nat × List Byte)
  deriving DecidableEq, Repr

/-- A pending fallow proposal (R468). -/
structure Proposal where
  id : Nat
  kind : Nat
  cause : Nat
  target : Nat
  deriving DecidableEq, Repr

/-- A port's core being spared (R474): which of its links were enabled. -/
structure CoreSpare where
  port : Nat
  rx : Bool
  tx : Bool
  deriving DecidableEq, Repr

/-- Fallow bookkeeping beside its registers (R465 to R478). -/
structure Fallow where
  proposals : List Proposal
  nextId : Nat
  /-- Triggers that wait for a proposal slot: kind, target, cause (R468). -/
  waiting : List (Nat × Nat × Nat)
  /-- Mechanisms that an automatic policy or an approval has set off (R467, R468). -/
  auto : List (Nat × Nat × Nat)
  cores : List (Nat × Nat)
  sites : List (Nat × Nat)
  /-- The kind and target of the mechanism that area 1's background command set off (R420). -/
  job : Option (Nat × Nat)
  coreSparing : Option CoreSpare
  /-- The plot being relocated, and whether it was online (R475). -/
  relocating : Option (Nat × Bool)
  /-- Plots that were online when a fault of their site forced them offline (R469). -/
  forced : List Nat
  /-- Consecutive milliseconds of margin (R464). -/
  marginMs : Nat
  /-- HOTSPOT at the last thermal shutdown. -/
  lastThermal : Nat
  /-- By unit, the core cycle of its last class 1 log entry, plus one (R460). -/
  logged : List (Nat × Nat)
  deriving DecidableEq, Repr

/-- Pool formation and membership beside its registers (R275 to R286). -/
structure Pool where
  answered : List Nat
  excluded : List Nat
  lastHandle : Nat
  unreachable : List (Nat × Nat)
  /-- The other modules written to since the last completed pool-scope FENCE, each with the number of its last write, and
  the count of such writes (R214). -/
  written : List (Nat × Nat)
  writeNo : Nat
  stewardLost : Bool
  /-- FORM waits for DONE to be high (R277). -/
  formWait : Bool
  /-- The cycle in which the greetings went out. -/
  formAt : Nat
  /-- By source, the last masks that came in from a module whose ENABLE is set: the partner it names, its masks (R248). -/
  twinHeard : List (Nat × Nat × List Nat)
  /-- The partner's tallies that this module has not compared yet (R249). -/
  tallies : List (DescRef × TallyParts)
  deriving DecidableEq, Repr

/-- Power, pins and the start-up sequence (R20 to R40). -/
structure Power where
  converters : Bool
  pwrOk : Bool
  strapsPending : Bool
  romBooted : Bool
  thermalLatch : Bool
  present : Bool
  /-- The power has gone, so the next start is a POR (R32, R40). -/
  porDue : Bool
  flashRstN : Bool
  /-- Conditions of DOME_ALERT_CAUSE that hold now (R38). -/
  alertHold : Nat
  /-- The causes that the hardware has set in a core cycle: that cycle and their bits (R38). -/
  alertStamp : Option (Nat × Nat)
  deriving DecidableEq, Repr

/-- The PCIe side (R255 to R268). -/
structure HostIf where
  latches : List (Nat × Word)
  wbuf : List (Nat × Word)
  d3hot : List Nat
  msix : List (Nat × Word)
  numVfs : Nat
  vfEnable : Bool
  vfActive : Bool
  degraded : Bool
  /-- A change of PERSONALITY whose message waits for vector 256 to be unmasked (R263, R264). -/
  personalityMsg : Bool
  /-- The data of the last read that the host sent. -/
  readBytes : List Byte
  /-- Configuration space: the fields that the host writes (R255, R261), by 16 × function + field. -/
  config : List (Nat × Nat)
  /-- ARI Capable Hierarchy (R260). -/
  ari : Bool
  /-- Window accesses that wait for the remap of a page: function, window, offset in it and the access (R197). -/
  waiting : List (Nat × Nat × Nat × Access)
  deriving DecidableEq, Repr

/-- The whole module. -/
structure State where
  pending : List Instr
  cycle : Nat
  /-- The model's own: how many free values have been taken. -/
  free : Nat
  regs : List (Nat × Word)
  mem : List Host.Cell
  host : HostIf
  power : Power
  alms : List (Nat × Alm)
  seqs : List (Nat × SeqCtx)
  handles : List Handle
  places : List (Nat × PagePlace)
  copies : List PageCopy
  engine : Engine
  /-- Both halves of a seam link have failed (R463). -/
  seamFailed : Bool
  hedge : Hedge
  tiles : List (Nat × Tile)
  groupTiles : List (Nat × List Nat)
  groupHeld : List (Nat × Nat)
  setters : List (Nat × Setter)
  /-- The sum of the additions that each flag has had in the current core cycle, for a flag that has had one (R212). -/
  flagAdds : List (Nat × Nat)
  bars : List (Nat × Bar)
  ports : List (Nat × Port)
  /-- LNK_SYSREF.ARM was written and no event has come since (R295). -/
  sysrefArmed : Bool
  meridian : Meridian
  /-- By swap pair, the member that was active before an inversion whose drain has not been reported (R324). -/
  swapOld : List (Nat × Nat)
  plots : List (Nat × Plot)
  fabric : Fabric
  /-- By I/O bank, the cycle from which its VIO has been within tolerance, plus one (R337). -/
  banks : List (Nat × Nat)
  cfg : Cfg
  lpddr : Lpddr
  mgmt : Mgmt
  vrn : Vrn
  fallow : Fallow
  pool : Pool
  sent : List Sent
  deriving DecidableEq, Repr

/-- A logic ring with nothing configured. -/
def Fabric.reset : Fabric := ⟨[], [], [], [], [], [], []⟩

/-- The placement engine with nothing counted and an empty cache. -/
def Engine.reset : Engine := ⟨0, [], [], [], [], []⟩

/-- A Hedgerow that carries nothing. -/
def Hedge.reset : Hedge := ⟨[], [], [], [], [], [], [], []⟩

/-- A summary with nothing in it (R91). -/
def Summary.zero : Summary := ⟨0, none, none⟩

/-- A descriptor that has not started. -/
def Run.fresh : Run where
  phase := .waiting
  code := 0
  detailHandle := 0
  detailOffset := 0
  predsMet := false
  armed := false
  wait0 := none
  wait1 := none
  reg0 := false
  reg1 := false
  woke := []
  ready := none
  readyCycle := none
  restarts := 0
  startCycle := none
  startMeridian := 2 ^ 64 - 1
  counts := []
  tiles := []
  unitsPlaced := []
  preempted := false
  stallReported := false
  stallFrom := 0
  stallElapsed := 0
  fencePending := []
  fenceIssued := none
  barPhase := none
  barReleased := false
  barHeld := false
  summary := Summary.zero
  tally := []
  parts := none
  countValue := none
  seqNew := none
  pinNew := none
  tierBegun := false
  runAhead := []
  swaps := []
  reads := []
  windowNext := []
  twinSent := none
  twinOk := false

/-- An almanac with nothing taken. -/
def Alm.reset : Alm := ⟨0, [], false, false, []⟩

/-- An idle vector engine. -/
def Ve.reset : Ve where
  running := none
  pc := 0
  cyc := 0
  v := []
  m := []
  a := []
  loops := []
  pend := []
  stores := []
  written := []
  write := []
  flags := 0
  checking := false
  failure := 0
  resident := []
  next := 0

/-- An idle stream context. -/
def StmCtx.reset : StmCtx := ⟨none, none, 0, none⟩

/-- A tile with its stores cleared and nothing running. -/
def Tile.reset : Tile where
  preempt := false
  loopDue := false
  passes := []
  issuedPasses := 0
  lastDrainEnd := 0
  arrayNext := 0
  lastThread := none
  bankBits := []
  store := []
  excStamp := none
  ve := Ve.reset
  stm := []
  units := []
  built := 0
  outputs := []
  streams := []
  issueCycle := none
  turns := []
  waits := []
  directWanted := none
  threads := []
  faults := []
  selfTest := false
  spareUsed := []
  rowMap := []
  retiring := none
  resetting := false
  routes := []

/-- A barrier object after reset (R218). -/
def Bar.reset : Bar := ⟨0, 0, 0, [], [], []⟩

/-- A lane that has synchronised to nothing. -/
def Lane.reset : Lane := ⟨false, false, none⟩

/-- A front-end core with every register 0 and a program that is a single END (R373). -/
def Core.reset : Core where
  program := [1 <<< 42]
  xInit := []
  y := []
  o := []
  acc := []
  d := []
  addr := []
  pc := 0
  cycles := 0
  running := false
  batch := none
  waiting := none
  frameNo := 0
  emitted := false
  heldX := []
  repLeft := 0
  repFirst := 0
  repLast := 0
  parityEvents := []

/-- A port with both links disabled. -/
def Port.reset : Port where
  lanes := []
  lmfcAligned := false
  lmfcZero := 0
  rxSince := 0
  synci := none
  txSince := 0
  core := Core.reset
  held := []
  heldBy := []
  coming := []
  live := []
  sentCode := []
  fired := []

/-- The meridian before its first tick. -/
def Meridian.reset : Meridian := ⟨0, 0, 0, 0, none, none, 0, false, false⟩

/-- An empty plot. -/
def Plot.reset : Plot := ⟨[], [], 0, false, false, false, (0, 0, 0), 0, [], none⟩

/-- The configuration machinery after POR: nothing staged, nothing loaded, an erased store and the factory key. -/
def Cfg.reset : Cfg where
  staging := []
  staged := 0
  store := []
  storeBytes := 0
  journalBegin := none
  journalEnd := false
  frames := []
  golden := []
  masks := []
  declaration := []
  tag := 0
  loadedHash := []
  pins := []
  keys := [(0, Config.factoryKey)]
  run := none
  releaseBegun := false
  trainingEnded := false
  framesWritten := false
  loadPull := 0
  scanAt := 0
  nor := none
  reread := false
  tilesReleased := false

/-- The LPDDR6 controllers before training. -/
def Lpddr.reset : Lpddr := ⟨[], [], 0, [], none, [], [], []⟩

/-- The management side after POR. -/
def Mgmt.reset : Mgmt where
  jobs := []
  mbxRequest := none
  lastMbx := none
  lastMctp := none
  eid := 0
  dynAddr := 0
  debug := false
  presence := none
  softDue := none
  tileResetJob := none
  spdmNegotiated := false
  spdmCount := 0

/-- The Vernier as it leaves manufacture, powered and loading (R447). -/
def Vrn.reset : Vrn where
  powered := true
  fwRunning := false
  joules := Config.vernierEnergy0 * 10 ^ 15
  records := []
  nextInterval := 0
  lastEnergyMj := Config.vernierEnergy0
  lastHash := List.replicate 64 0
  sampleUs := 0
  upUs := 0
  first := true
  sealTouched := false
  sealIsOpen := false
  fwVersion := Config.vernierFwVersion
  lastRecordFw := Config.vernierFwVersion
  fwDigestNew := none
  marks := []
  pMax := 0
  pMin := 2 ^ 32 - 1
  vMax := 0
  vMin := 2 ^ 16 - 1
  flags := 0
  msEnergy := 0
  msVolts := 0
  msSamples := 0
  stored := none
  replacing := none

/-- Fallow capacity at shipment: core 8 and sites 32 and 33 fallow (R326, R325). -/
def Fallow.reset : Fallow := ⟨[], 1, [], [], [], [], none, none, none, [], 0, 0, []⟩

/-- No pool. -/
def Pool.reset : Pool := ⟨[], [], 0, [], [], 0, false, false, 0, [], []⟩

/-- Power right after P54V has risen: converters on, PWR_OK still low (R30), the Vernier's firmware not yet running
(R447). -/
def Power.reset : Power := ⟨true, false, true, false, false, true, false, false, 0x80, none⟩

/-- The PCIe side before its link is up. -/
def HostIf.reset : HostIf := ⟨[], [], [], [], 0, false, false, false, false, [], [], false, []⟩

/-- The module right after a POR (R429, R431): every register at its reset value, every store cleared, P54V applied
and PWR_OK not yet high. DOME_ALERT_CAUSE.VERNIER is set at once, since the Vernier is not recording (R38, R447). -/
def State.reset : State where
  pending := []
  cycle := 0
  free := 0
  regs := [(0x108, 0x80)]
  mem := []
  host := HostIf.reset
  power := Power.reset
  alms := []
  seqs := []
  handles := []
  places := []
  copies := []
  engine := Engine.reset
  seamFailed := false
  hedge := Hedge.reset
  tiles := []
  groupTiles := []
  groupHeld := []
  setters := []
  flagAdds := []
  bars := []
  ports := []
  sysrefArmed := false
  meridian := Meridian.reset
  swapOld := []
  plots := []
  fabric := Fabric.reset
  banks := []
  cfg := Cfg.reset
  lpddr := Lpddr.reset
  mgmt := Mgmt.reset
  vrn := Vrn.reset
  fallow := Fallow.reset
  pool := Pool.reset
  sent := []

end Sys2Proof.Machine
end

