-- ==== Sys2Proof/Machine/Flags.lean ====
section
/-!
DEFINITION. Exception flags and summaries (R72 to R74): the flag bits, the recorded event and the first NaN.
-/
namespace Sys2Proof.Machine
open Sys2Proof

/-- NAN_IN of R72. -/
def fNan : Nat := 1
/-- INVALID. -/
def fInvalid : Nat := 2
/-- OVERFLOW. -/
def fOverflow : Nat := 4
/-- SATURATED. -/
def fSat : Nat := 8
/-- UNDERFLOW. -/
def fUnder : Nat := 16
/-- INEXACT. -/
def fInexact : Nat := 32

/-- EVT_CAUSE of a set of flags: INVALID first (R73), then OVERFLOW, then SATURATED; 0: no event. -/
def causeOf (fl : Nat) : Nat :=
  if fl.testBit 1 then 1 else if fl.testBit 2 then 2 else if fl.testBit 3 then 3 else 0

/-- The lower of two events by (iteration, drain, k, m, n, cause) (R73, R164). -/
def evtMin (a b : Option (Nat × Bool × Nat × Nat × Nat × Nat)) : Option (Nat × Bool × Nat × Nat × Nat × Nat) :=
  match a, b with
  | none, y => y
  | x, none => x
  | some (i, d, k, m, n, c), some (i', d', k', m', n', c') =>
    if i < i' then a else if i' < i then b else
    if b2n d < b2n d' then a else if b2n d' < b2n d then b else
    if k < k' then a else if k' < k then b else
    if m < m' then a else if m' < m then b else
    if n < n' then a else if n' < n then b else
    if c ≤ c' then a else b

/-- The lower of two first NaNs by (iteration, drain, k) (R73, R164). -/
def nanMin (a b : Option (Nat × Bool × Nat)) : Option (Nat × Bool × Nat) :=
  match a, b with
  | none, y => y
  | x, none => x
  | some (i, d, k), some (i', d', k') =>
    if i < i' then a else if i' < i then b else
    if b2n d < b2n d' then a else if b2n d' < b2n d then b else
    if k ≤ k' then a else b

/-- Two summaries merged (R74). -/
def Summary.merge (a b : Summary) : Summary where
  flags := a.flags ||| b.flags
  nan := nanMin a.nan b.nan
  evt := evtMin a.evt b.evt

/-- The flags `fl` raised at coordinate (iteration, k, m, n) during accumulation. -/
def flagsAt (fl iter k m n : Nat) : Summary where
  flags := fl
  nan := if fl.testBit 0 then some (iter, false, k) else none
  evt := if causeOf fl = 0 then none else some (iter, false, k, m, n, causeOf fl)

/-- The flags `fl` raised in output conversion at (m, n) (R73). -/
def flagsDrain (fl iter m n : Nat) : Summary where
  flags := fl
  nan := if fl.testBit 0 then some (iter, true, 0) else none
  evt := if causeOf fl = 0 then none else some (iter, true, 0, m, n, causeOf fl)

/-- Flags with no coordinate (R112). -/
def flagsOnly (fl : Nat) : Summary := ⟨fl, none, none⟩

/-- The 64-bit summary of a pass in local coordinates (R72). -/
def summaryWord (s : Summary) : Nat :=
  let w := s.flags % 64
  let w := match s.nan with
    | some (_, d, k) => if d then putFld w 10 10 1 else putFld w 63 44 k
    | none => w
  match s.evt with
  | some (_, d, k, m, n, c) =>
    putFld (putFld (putFld (putFld (putFld w 11 11 (b2n d)) 13 12 c) 18 14 n) 23 19 m) 43 24 (if d then 0 else k)
  | none => w

/-- The flag-plane entry of an element's flags (R76). -/
def planeBits (fl : Nat) : Nat :=
  b2n (fl.testBit 0) + 2 * b2n (fl.testBit 1) + 4 * b2n (fl.testBit 2 || fl.testBit 3) + 8 * b2n (fl.testBit 4)

end Sys2Proof.Machine
end

