-- ==== Sys2Proof/Machine/Arith.lean ====
section
/-!
DEFINITION. Number formats and exact arithmetic (chapter 02): decoding a bit pattern to the number it stands for,
rounding, encoding and conversion, and the arithmetic of one k-step and one combine.
-/
namespace Sys2Proof.Machine
open Sys2Proof

/-- What a bit pattern stands for: a NaN, an infinity, or ± m × 2^e (m = 0: a zero with its sign). -/
inductive Num where
  | nan
  | inf (neg : Bool)
  | fin (neg : Bool) (m : Nat) (e : Int)
  deriving DecidableEq, Repr

/-- Exponent bits, fraction bits and bias of a floating-point format code (R45); F19 is FP32 with 13 low bits taken as
zero (R46). -/
def fmtShape (f : Nat) : Nat × Nat × Nat :=
  match f with
  | 0 => (11, 52, 1023)
  | 3 => (8, 7, 127)
  | 4 => (5, 10, 15)
  | 5 => (5, 2, 15)
  | 6 => (4, 3, 7)
  | 7 => (3, 2, 3)
  | 8 => (2, 1, 1)
  | _ => (8, 23, 127)

/-- Bits of an element in memory (R45). -/
def fmtBits (f : Nat) : Nat :=
  match f with
  | 0 => 64 | 3 => 16 | 4 => 16 | 5 => 8 | 6 => 8 | 7 => 6 | 8 => 4 | 9 => 8 | _ => 32

/-- The format encodes infinities (R49). -/
def fmtHasInf (f : Nat) : Bool := f == 0 || f == 1 || f == 2 || f == 3 || f == 4 || f == 5

/-- The canonical NaN of a format, where it has one (R49). -/
def canonNan (f : Nat) : Option Nat :=
  match f with
  | 0 => some 0x7FF8000000000000
  | 1 => some 0x7FC00000
  | 3 => some 0x7FC0
  | 4 => some 0x7E00
  | 5 => some 0x7E
  | 6 => some 0x7F
  | _ => none

/-- The number an element's bits stand for (R45, R46, R49). -/
def decodeNum (f bits : Nat) : Num :=
  if f = 9 then let v := sx 8 bits; .fin (v < 0) v.natAbs 0
  else if f = 10 then let v := sx 24 bits; .fin (v < 0) v.natAbs (-23)
  else
    let b := if f = 2 then bits / 2 ^ 13 * 2 ^ 13 else bits
    let (eb, fb, bias) := fmtShape f
    let fr := b % 2 ^ fb
    let ex := b / 2 ^ fb % 2 ^ eb
    let ng := b.testBit (eb + fb)
    if fmtHasInf f ∧ ex = 2 ^ eb - 1 then (if fr = 0 then .inf ng else .nan)
    else if f = 6 ∧ ex = 15 ∧ fr = 7 then .nan
    else if ex = 0 then .fin ng fr (1 - (bias : Int) - fb)
    else .fin ng (2 ^ fb + fr) ((ex : Int) - bias - fb)

/-- An element with its E8M0 scale byte applied (R53, R54). -/
def scaleNum (f : Nat) (sc : Nat) (v : Num) : Num :=
  if sc = 255 then .nan else
  match v with
  | .fin ng m e => .fin ng m (e + (sc : Int) - 127 - (if f = 9 then 6 else 0))
  | v => v

/-- `m` divided by 2^`s`, to nearest, ties to even. -/
def rne (m s : Nat) : Nat :=
  if s = 0 then m else
  let q := m >>> s
  let r := m % 2 ^ s
  if r > 2 ^ (s - 1) ∨ (r = 2 ^ (s - 1) ∧ q % 2 = 1) then q + 1 else q

/-- The magnitude m × 2^e rounded to `prec` bits with no bit below 2^`emin`: the rounded magnitude and whether it is
exact. -/
def roundMag (prec : Nat) (emin : Int) (m : Nat) (e : Int) : Nat × Int × Bool :=
  if m = 0 then (0, emin, true) else
  let q := max (e + Nat.log2 m - ((prec : Int) - 1)) emin
  if q ≤ e then (m * 2 ^ (e - q).toNat, q, true)
  else
    let s := (q - e).toNat
    let r := rne m s
    (r, q, r * 2 ^ s == m)

/-- m × 2^e < m' × 2^e'. -/
def magLt (m : Nat) (e : Int) (m' : Nat) (e' : Int) : Bool :=
  let b := min e e'
  decide (m * 2 ^ (e - b).toNat < m' * 2 ^ (e' - b).toNat)

/-- The exponent of the leading bit of a nonzero magnitude. -/
def leadExp (m : Nat) (e : Int) : Int := e + Nat.log2 m

/-- The largest finite magnitude of a floating-point format (R50's table). -/
def maxFin (f : Nat) : Nat × Int :=
  let (eb, fb, bias) := fmtShape f
  if f = 6 then (14, 5)
  else if f = 7 ∨ f = 8 then (2 ^ (fb + 1) - 1, (2 ^ eb - 1 - bias : Int) - fb)
  else (2 ^ (fb + 1) - 1, (bias : Int) - fb)

/-- The bits of ± m × 2^q, already rounded to the format and within its finite range. -/
def packFloat (f : Nat) (ng : Bool) (m : Nat) (q : Int) : Nat :=
  let (eb, fb, bias) := fmtShape f
  let sgn := b2n ng * 2 ^ (eb + fb)
  if m = 0 then sgn else
  let ex := leadExp m q
  if ex < 1 - (bias : Int) then sgn + m * 2 ^ (q - (1 - (bias : Int) - fb)).toNat
  else
    let lb := Nat.log2 m
    let fr := if lb ≤ fb then m * 2 ^ (fb - lb) else m / 2 ^ (lb - fb)
    sgn + (ex + bias).toNat * 2 ^ fb + (fr - 2 ^ fb)

/-- The infinity of a format. -/
def infBits (f : Nat) (ng : Bool) : Nat :=
  let (eb, fb, _) := fmtShape f
  b2n ng * 2 ^ (eb + fb) + (2 ^ eb - 1) * 2 ^ fb

/-- The largest finite value of a format with a sign. -/
def maxBits (f : Nat) (ng : Bool) : Nat := let (m, e) := maxFin f; packFloat f ng m e

/-- Rounding quantum of a format's subnormals. -/
def fmtEmin (f : Nat) : Int := let (_, fb, bias) := fmtShape f; 1 - (bias : Int) - fb

/-- Significand precision of a format. -/
def fmtPrec (f : Nat) : Nat := (fmtShape f).2.1 + 1

/-- A signed integer as the low `w` bits. -/
def intBits (w : Nat) (v : Int) : Nat := (v % (2 : Int) ^ w).toNat

/-- ± m × 2^e to a whole number of units 2^u, ties to even. -/
def roundInt (ng : Bool) (m : Nat) (e u : Int) : Int :=
  let r : Nat := if u ≤ e then m * 2 ^ (e - u).toNat else rne m (u - e).toNat
  if ng then -(r : Int) else r

/-- Conversion of a value to an output format, with its flags (R77 to R80). -/
def convert (f : Nat) (infMode : Bool) (v : Num) : Nat × Nat :=
  if f = 9 ∨ f = 10 then
    let w := if f = 9 then 8 else 24
    let u : Int := if f = 9 then 0 else -23
    let hi : Int := 2 ^ (w - 1) - 1
    let lo : Int := -(2 ^ (w - 1))
    let out := fun (x : Int) => if f = 9 then intBits 8 x else intBits 32 x
    match v with
    | .nan => (0, fInvalid)
    | .inf ng => (out (if ng then lo else hi), fSat)
    | .fin ng m e =>
      let r := roundInt ng m e u
      if hi < r then (out hi, fSat)
      else if r < lo then (out lo, fSat)
      else (out r, if r = 0 ∧ m ≠ 0 then fUnder else 0)
  else
    match v with
    | .nan => match canonNan f with
      | some b => (b, fNan)
      | none => (0, fInvalid)
    | .inf ng => if fmtHasInf f then (infBits f ng, 0) else (maxBits f ng, fSat)
    | .fin ng m e =>
      let (r, q, _) := roundMag (fmtPrec f) (fmtEmin f) m e
      let (mm, me) := maxFin f
      if r ≠ 0 ∧ magLt mm me r q then
        (if fmtHasInf f ∧ infMode then (infBits f ng, fOverflow) else (maxBits f ng, fSat))
      else (packFloat f ng r q, if r = 0 ∧ m ≠ 0 then fUnder else 0)

/-- choose_scale of R82; the FP32 bits of the magnitude and the element format. -/
def chooseScale (x32 f : Nat) : Nat :=
  let emax : Int := match f with | 5 => 15 | 6 => 8 | 7 => 4 | 8 => 2 | _ => 0
  match decodeNum 1 (x32 % 2 ^ 31) with
  | .fin _ m e =>
    if m = 0 then 0 else
    let s := leadExp m e - emax
    let s := if s < -127 then -127 else if 127 < s then 127 else s
    (s + 127).toNat
  | _ => 255

/-- Conversion of a value to a scaled element format under a scale byte (R83). -/
def convertScaled (f sc : Nat) (v : Num) : Nat × Nat :=
  if sc = 255 then convert f false .nan else
  match v with
  | .fin ng m e =>
    let w := Num.fin ng m (e - (sc : Int) + 127 + (if f = 9 then 6 else 0))
    let (b, fl) := convert f false w
    (b, fl &&& (fNan ||| fInvalid ||| fUnder))
  | v => convert f false v

/-! One binary32 or binary64 operation (R64, R111). -/

/-- ± m × 2^e rounded to a floating-point format under roundTiesToEven, with OVERFLOW, UNDERFLOW and INEXACT as R64 and
R111 raise them; `sat` replaces an overflow by the largest finite value (R67). R64 judges UNDERFLOW on the rounded result;
DEDUCED (log entry 113): so does R111's "tiny". -/
def roundIeee (f : Nat) (sat ng : Bool) (m : Nat) (e : Int) : Num × Nat :=
  let (r, q, exact) := roundMag (fmtPrec f) (fmtEmin f) m e
  let (mm, me) := maxFin f
  if r ≠ 0 ∧ magLt mm me r q then
    (if sat then (.fin ng mm me, fSat ||| fInexact) else (.inf ng, fOverflow ||| fInexact))
  else
    let tiny := r = 0 ∨ leadExp r q < 1 - ((fmtShape f).2.2 : Int)
    (.fin ng r q, if exact then 0 else if tiny then fInexact ||| fUnder else fInexact)

/-- The exact sum of two finite numbers, with the zero sign of R71. -/
def addExact (n1 : Bool) (m1 : Nat) (e1 : Int) (n2 : Bool) (m2 : Nat) (e2 : Int) : Bool × Nat × Int :=
  if m1 = 0 ∧ m2 = 0 then (n1 && n2, 0, 0) else
  let b := min e1 e2
  let x : Int := (m1 * 2 ^ (e1 - b).toNat : Nat)
  let y : Int := (m2 * 2 ^ (e2 - b).toNat : Nat)
  let z := (if n1 then -x else x) + (if n2 then -y else y)
  (decide (z < 0), z.natAbs, b)

/-- IEEE addition of two numbers in a format. -/
def addNum (f : Nat) (sat : Bool) (a b : Num) : Num × Nat :=
  match a, b with
  | .nan, _ => (.nan, fNan)
  | _, .nan => (.nan, fNan)
  | .inf x, .inf y => if x = y then (.inf x, 0) else (.nan, fInvalid)
  | .inf x, _ => (.inf x, 0)
  | _, .inf y => (.inf y, 0)
  | .fin n1 m1 e1, .fin n2 m2 e2 => let (n, m, e) := addExact n1 m1 e1 n2 m2 e2; roundIeee f sat n m e

/-- The exact product (R60 step 1): NAN_IN for a NaN operand, INVALID for 0 × ∞. -/
def mulExact (a b : Num) : Num × Nat :=
  match a, b with
  | .nan, _ => (.nan, fNan)
  | _, .nan => (.nan, fNan)
  | .inf x, .inf y => (.inf (x != y), 0)
  | .inf x, .fin n m _ => if m = 0 then (.nan, fInvalid) else (.inf (x != n), 0)
  | .fin n m _, .inf y => if m = 0 then (.nan, fInvalid) else (.inf (n != y), 0)
  | .fin n1 m1 e1, .fin n2 m2 e2 => (.fin (n1 != n2) (m1 * m2) (e1 + e2), 0)

/-- The negative of a number. -/
def negNum : Num → Num
  | .nan => .nan
  | .inf n => .inf (!n)
  | .fin n m e => .fin (!n) m e

/-- The exact sum of two operands as one term: INVALID for ∞ + (−∞). -/
def sumExact (a b : Num) : Num × Nat :=
  match a, b with
  | .nan, _ => (.nan, fNan)
  | _, .nan => (.nan, fNan)
  | .inf x, .inf y => if x = y then (.inf x, 0) else (.nan, fInvalid)
  | .inf x, _ => (.inf x, 0)
  | _, .inf y => (.inf y, 0)
  | .fin n1 m1 e1, .fin n2 m2 e2 => let (n, m, e) := addExact n1 m1 e1 n2 m2 e2; (.fin n m e, 0)

/-- The magnitude of a number. -/
def absNum : Num → Num
  | .nan => .nan
  | .inf _ => .inf false
  | .fin _ m e => .fin false m e

/-- a < b in the order of R71: −0 lies below +0. Neither is a NaN. -/
def numLt (a b : Num) : Bool :=
  match a, b with
  | .inf x, .inf y => x && !y
  | .inf x, _ => x
  | _, .inf y => !y
  | .fin n1 m1 e1, .fin n2 m2 e2 =>
    if m1 = 0 ∧ m2 = 0 then n1 && !n2
    else match n1 && m1 != 0, n2 && m2 != 0 with
    | true, true => magLt m2 e2 m1 e1
    | true, false => true
    | false, true => false
    | false, false => magLt m1 e1 m2 e2
  | _, _ => false

/-- The exact product of R60 for each semiring: a × b, |a − b| or (a − b)² (R94). -/
def termOf (sem : Nat) (a b : Num) : Num × Nat :=
  if sem = 0 then mulExact a b
  else
    let (d, fl) := sumExact a (negNum b)
    match d with
    | .nan => (.nan, fl)
    | .inf _ => (.inf false, 0)
    | .fin _ m e => if sem = 1 then (.fin false m e, 0) else (.fin false (m * m) (e + e), 0)

/-- An overflowing product replaced before alignment (R67): the term and its flags. -/
def clampTerm (acc : Nat) (infMode : Bool) (t : Num) : Num × Nat :=
  match t with
  | .fin n m e =>
    if m ≠ 0 ∧ ((fmtShape acc).2.2 : Int) < leadExp m e then
      (if infMode then (.inf n, fOverflow) else let (mm, me) := maxFin acc; (.fin n mm me, fSat))
    else (t, 0)
  | t => (t, 0)

/-- Steps 2 to 7 of R60 over the terms of one step, the running accumulator last, with R61 and R67. Infinite terms of both
signs are an invalid operation also where the output is a NaN already: its later k-steps are still judged term by term
(R69). DEDUCED: the same beside a NaN term of the same step (log entry 106). -/
def fastSum (acc : Nat) (infMode : Bool) (terms : List Num) : Num × Nat :=
  let neg := terms.any (· == .inf true)
  let pos := terms.any (· == .inf false)
  if terms.any (· == .nan) then (.nan, if neg && pos then fInvalid else 0)
  else
    if neg && pos then (.nan, fInvalid)
    else if neg then (.inf true, 0)
    else if pos then (.inf false, 0)
    else
      let fins := terms.filterMap fun t => match t with
        | .fin n m e => some (n, m, e)
        | _ => none
      let nz := fins.filter fun t => t.2.1 != 0
      match nz with
      | [] => (.fin (fins.all fun t => t.1) 0 0, 0)
      | (_, m0, e0) :: rest =>
        let top := rest.foldl (fun x t => max x (leadExp t.2.1 t.2.2)) (leadExp m0 e0)
        let width : Int := if acc = 0 then 55 else 26
        let low := top - width
        let cut := fun (t : Bool × Nat × Int) =>
          let mag : Nat := if low ≤ t.2.2 then t.2.1 * 2 ^ (t.2.2 - low).toNat else t.2.1 / 2 ^ (low - t.2.2).toNat
          if t.1 then -(mag : Int) else (mag : Int)
        let sum := nz.foldl (fun x t => x + cut t) 0
        if sum = 0 then (.fin false 0 0, 0)
        else
          let ng := decide (sum < 0)
          let (r, q, _) := roundMag (fmtPrec acc) low sum.natAbs low
          if leadExp r q < 1 - ((fmtShape acc).2.2 : Int) then (.fin ng 0 0, fUnder)
          else
            let (mm, me) := maxFin acc
            if magLt mm me r q then (if infMode then (.inf ng, fOverflow) else (.fin ng mm me, fSat))
            else (.fin ng r q, 0)

/-- The bits that hold a number of an accumulator format exactly. -/
def accBits (f : Nat) (v : Num) : Nat := (convert f false v).1

/-- Minimum or maximum of an accumulator and a term, ignoring a NaN (R70, R71). -/
def pickNum (isMax : Bool) (a t : Num) : Num :=
  match a, t with
  | .nan, t => t
  | a, .nan => a
  | a, t => if isMax then (if numLt a t then t else a) else (if numLt t a then t else a)

/-- The largest 56-bit integer. -/
def i56max : Int := 2 ^ 55 - 1

/-- A sum put into a signed range, with SATURATED outside it (R63). -/
def clampInt (lo hi x : Int) : Int × Nat :=
  if hi < x then (hi, fSat) else if x < lo then (lo, fSat) else (x, 0)

/-- A finite number as a whole number of units 2^u; every value handed to an integer accumulator is one. -/
def numUnits (u : Int) : Num → Int
  | .fin n m e => roundInt n m e u
  | _ => 0

/-- The weight of an integer accumulator as a power of two (R56). -/
def accUnit (f : Nat) : Int := if f = 9 then 0 else -46

/-- What a cell does in one k-step: the semiring, the accumulator format, strict or fast, and the overflow mode. -/
structure CellOp where
  sem : Nat
  acc : Nat
  strict : Bool
  inf : Bool
  deriving DecidableEq, Repr

/-- The initial accumulator bits: the identity of R94. -/
def identityBits (o : CellOp) : Nat :=
  let intAcc := o.acc = 9 ∨ o.acc = 10
  match o.sem with
  | 3 => if intAcc then intBits 64 i56max else infBits o.acc false
  | 4 => if intAcc then intBits 64 (-(2 ^ 55)) else infBits o.acc true
  | 5 => 0xFFFFFFFF * 2 ^ 32 + (if intAcc then 0x7FFFFFFF else 0x7F800000)
  | 6 => 0xFFFFFFFF * 2 ^ 32 + (if intAcc then 0x80000000 else 0xFF800000)
  | _ => 0

/-- A bias element converted to the accumulator format (R93), over the index of R94 for a compare. -/
def biasBits (o : CellOp) (v : Num) : Nat × Nat :=
  let held := fun (b : Nat) => if o.sem = 5 ∨ o.sem = 6 then 0xFFFFFFFF * 2 ^ 32 + b % 2 ^ 32 else b
  if o.acc = 9 ∨ o.acc = 10 then
    let lim : Nat := if o.sem = 5 ∨ o.sem = 6 then 31 else 55
    let hi : Int := 2 ^ lim - 1
    let lo : Int := -(2 ^ lim)
    match v with
    | .nan => (held 0, fInvalid)
    | .inf n => (held (intBits 64 (if n then lo else hi)), fSat)
    | .fin n m e =>
      let r := roundInt n m e (accUnit o.acc)
      let (x, fl) := clampInt lo hi r
      (held (intBits 64 x), if r = 0 ∧ m ≠ 0 then fl ||| fUnder else fl)
  else let (b, fl) := convert o.acc o.inf v; (held b, fl)

/-- NAN_IN when either operand is a NaN. -/
def nanFlag (a b : Num) : Nat := if a = .nan ∨ b = .nan then fNan else 0

/-- a + b rounded once to the accumulator format (R63, R64), with its flags: INEXACT in strict mode only, a sum below the
normal range flushed in fast mode (R61). -/
def sumTerm (o : CellOp) (a b : Num) : Num × Nat :=
  let (t, fl) := sumExact a b
  match t with
  | .fin n m e =>
    let (r, rf) := roundIeee o.acc (!o.inf) n m e
    if o.strict then (r, fl ||| rf)
    else
      match r with
      | .fin n' m' e' =>
        if m ≠ 0 ∧ (m' = 0 ∨ leadExp m' e' < 1 - ((fmtShape o.acc).2.2 : Int)) then (.fin n' 0 0, fl ||| fUnder)
        else (r, fl ||| (rf &&& (fSat ||| fOverflow)))
      | r => (r, fl ||| (rf &&& (fSat ||| fOverflow)))
  | t => (t, fl)

/-- One k-step into one cell (R60 to R71, R94, R95): the terms in increasing k, and the result with the flags raised at
each k. An accumulator overflow stands at the step's lowest k (R73). DESIGN CHOICE (log entry 107): R73 places neither the
INVALID of ∞ − ∞ in the sum of a fast step of several products, which stands at the step's lowest k as its overflow does,
nor the overflow of a rounded a + b in ADD_MIN or ADD_MAX, which belongs to one term and stands at that term's own k. -/
def cellStep (o : CellOp) (kOrigin : Nat) (bits : Nat) (ts : List (Nat × Num × Num)) : Nat × List (Nat × Nat) :=
  let k0 := match ts with
    | [] => 0
    | (k, _) :: _ => k
  let intAcc : Bool := o.acc == 9 || o.acc == 10
  if o.sem ≤ 2 then
    if intAcc then
      ts.foldl (fun (st : Nat × List (Nat × Nat)) t =>
        let (k, a, b) := t
        let (p, pf) := termOf o.sem a b
        let (x, fl) := clampInt (-(2 ^ 55)) i56max (sx 64 st.1 + numUnits (accUnit o.acc) p)
        (intBits 64 x, st.2 ++ [(k, pf), (k0, fl)])) (bits, [])
    else if o.strict then
      ts.foldl (fun (st : Nat × List (Nat × Nat)) t =>
        let (k, a, b) := t
        let (p, pf) := termOf o.sem a b
        let acc := decodeNum o.acc st.1
        if acc = .nan then (st.1, st.2 ++ [(k, pf)])
        else if p = .nan then (accBits o.acc .nan, st.2 ++ [(k, pf)])
        else
          let (r, fl) := addNum o.acc (!o.inf) acc p
          (accBits o.acc r, st.2 ++ [(k, pf ||| fl)])) (bits, [])
    else
      let terms := ts.map fun t =>
        let (k, a, b) := t
        let (p, pf) := termOf o.sem a b
        let (q, qf) := clampTerm o.acc o.inf p
        (k, q, pf ||| qf)
      let (r, fl) := fastSum o.acc o.inf (terms.map (fun t => t.2.1) ++ [decodeNum o.acc bits])
      (accBits o.acc r, terms.map (fun t => (t.1, t.2.2)) ++ [(k0, fl)])
  else if o.sem ≤ 4 then
    ts.foldl (fun (st : Nat × List (Nat × Nat)) t =>
      let (k, a, b) := t
      if intAcc then
        let x := numUnits (accUnit o.acc) (sumExact a b).1
        let y := sx 64 st.1
        (intBits 64 (if o.sem = 4 then max x y else min x y), st.2)
      else
        let (p, pf) := sumTerm o a b
        (accBits o.acc (pickNum (o.sem == 4) (decodeNum o.acc st.1) p), st.2 ++ [(k, pf ||| nanFlag a b)])) (bits, [])
  else
    ts.foldl (fun (st : Nat × List (Nat × Nat)) t =>
      let (k, a, b) := t
      let nf := nanFlag a b
      let shut : Bool := match b with
        | .nan => true
        | .fin _ m _ => m == 0
        | _ => false
      if shut || a == .nan then (st.1, st.2 ++ [(k, nf)])
      else
        let idx := (kOrigin + k) % 2 ^ 32
        if intAcc then
          let x := numUnits 0 a
          let y := sx 32 st.1
          if (if o.sem = 6 then decide (y < x) else decide (x < y)) then (idx * 2 ^ 32 + intBits 32 x, st.2)
          else st
        else
          let (c, cf) := clampTerm o.acc o.inf a
          let held := decodeNum 1 (st.1 % 2 ^ 32)
          let win : Bool := held == .nan || (if o.sem = 6 then numLt held c else numLt c held)
          (if win then idx * 2 ^ 32 + accBits 1 c else st.1, st.2 ++ [(k, nf ||| cf)])) (bits, [])

/-- One combine of two nodes in the accumulator format (R235), with its flags. A NaN operand of a sum makes a NaN and
raises NAN_IN (R69). -/
def combineBits (o : CellOp) (l r : Nat) : Nat × Nat :=
  let intAcc : Bool := o.acc == 9 || o.acc == 10
  if o.sem ≤ 2 then
    if intAcc then let (x, fl) := clampInt (-(2 ^ 55)) i56max (sx 64 l + sx 64 r); (intBits 64 x, fl)
    else
      let a := decodeNum o.acc l
      let b := decodeNum o.acc r
      if a = .nan ∨ b = .nan then (accBits o.acc .nan, fNan)
      else
        let (v, fl) := if o.strict then addNum o.acc (!o.inf) a b else fastSum o.acc o.inf [a, b]
        (accBits o.acc v, fl)
  else if o.sem ≤ 4 then
    if intAcc then (intBits 64 (if o.sem = 4 then max (sx 64 l) (sx 64 r) else min (sx 64 l) (sx 64 r)), 0)
    else (accBits o.acc (pickNum (o.sem == 4) (decodeNum o.acc l) (decodeNum o.acc r)), 0)
  else
    let win : Bool :=
      if intAcc then (if o.sem = 6 then decide (sx 32 l < sx 32 r) else decide (sx 32 r < sx 32 l))
      else
        let a := decodeNum 1 (l % 2 ^ 32)
        let b := decodeNum 1 (r % 2 ^ 32)
        if b = .nan then false else if a = .nan then true
        else if o.sem = 6 then numLt a b else numLt b a
    (if win then r else l, 0)

/-- The number an accumulator holds, as output conversion takes it (R80, R96). -/
def accNum (o : CellOp) (bits : Nat) : Num :=
  let ofInt := fun (v : Int) (e : Int) => Num.fin (v < 0) v.natAbs e
  if o.sem = 5 ∨ o.sem = 6 then
    (if o.acc = 9 then ofInt (sx 32 bits) 0 else decodeNum 1 (bits % 2 ^ 32))
  else if o.acc = 9 ∨ o.acc = 10 then ofInt (sx 64 bits) (accUnit o.acc)
  else decodeNum o.acc bits

/-- A non-NaN magnitude rounded to FP32 toward +∞ (R81). -/
def panelWord (v : Num) : Option Nat :=
  match v with
  | .nan => none
  | .inf _ => some 0x7F800000
  | .fin _ m e =>
    if m = 0 then some 0 else
    let q := max (leadExp m e - 23) (-149)
    let r : Nat := if q ≤ e then m * 2 ^ (e - q).toNat else
      (m + 2 ^ (q - e).toNat - 1) / 2 ^ (q - e).toNat
    let (mm, me) := maxFin 1
    some (if magLt mm me r q then 0x7F800000 else packFloat 1 false r q)

/-- Terms per k-step, P (R55, R66, R97), for a pair of formats; FP64 takes 4 cycles for its one. -/
def rateP (sem a b : Nat) (strict : Bool) : Nat :=
  let narrow := fun f => f == 5 || f == 6 || f == 7 || f == 8
  let half := fun f => f == 2 || f == 3 || f == 4
  if narrow a then
    (if sem = 0 then (if strict then 1 else if a = 8 ∧ b = 8 then 16 else 8)
     else if (sem = 3 ∨ sem = 4) ∧ strict then 1 else 4)
  else if a = 9 then (if sem = 0 then 8 else 4)
  else if half a then (if strict then 1 else 4)
  else if a = 10 then 2
  else 1

end Sys2Proof.Machine
end

