-- ==== Sys2Proof/Machine/Special.lean ====
section
/-!
DEFINITION. FRCP, FRSQ, FEXP2, FLOG2 and FTANH (R113): the binary32 result nearest the exact one, ties to even. The
exact value is bracketed by a fixed-point number of 512 fraction bits with a sticky bit below it; an irrational value
never lies on a rounding boundary.
-/
namespace Sys2Proof.Machine
open Sys2Proof

/-- Fraction bits of the fixed-point numbers below. -/
def fxBits : Nat := 512
/-- 1 in fixed point. -/
def fxOne : Nat := 2 ^ fxBits

/-- The sum of the terms t, t·z/(d)…: each term is the last one times `z`, and the `i`th is divided by `d i`. -/
def fxSeries (z : Nat) (d : Nat → Nat) : Nat → Nat → Nat → Nat → Nat
  | 0, _, _, acc => acc
  | n + 1, i, t, acc => fxSeries z d n (i + 1) (t * z / fxOne) (acc + t / d i)

/-- 2·atanh(z) = 2·(z + z³/3 + z⁵/5 + …) in fixed point. -/
def fxAtanh2 (z : Nat) : Nat := 2 * fxSeries (z * z / fxOne) (fun i => 2 * i + 1) 180 0 z 0

/-- ln 2 = 2·atanh(1/3) in fixed point. -/
def fxLn2 : Nat := fxAtanh2 (fxOne / 3)

/-- The exponential series e^x for 0 ≤ x < 1 in fixed point, by Horner's rule from the highest term. -/
def fxExpAux (x : Nat) : Nat → Nat → Nat
  | 0, acc => acc
  | n + 1, acc => fxExpAux x n (fxOne + x * acc / fxOne / (n + 1))

/-- e^x for 0 ≤ x < 1 in fixed point. -/
def fxExp (x : Nat) : Nat := fxExpAux x 120 fxOne

/-- 2^f for 0 ≤ f < 1 in fixed point. -/
def fxExp2 (f : Nat) : Nat := fxExp (f * fxLn2 / fxOne)

/-- A positive irrational value just above `q` × 2^`e`, as a magnitude with its sticky bit. -/
def stickyMag (q : Nat) (e : Int) : Nat × Int := (2 * q + 1, e - 1)

/-- Rounding to binary32 with the flags of R111. -/
def round32 (ng : Bool) (m : Nat) (e : Int) : Num × Nat :=
  let (v, fl) := roundIeee 1 false ng m e
  (v, fl &&& (fOverflow ||| fUnder))

/-- 1/x. -/
def frcpNum : Num → Num × Nat
  | .nan => (.nan, fNan)
  | .inf n => (.fin n 0 0, 0)
  | .fin n m e =>
    if m = 0 then (.inf n, 0) else
    let k := Nat.log2 m + 40
    let q := 2 ^ k / m
    if q * m = 2 ^ k then round32 n q (-e - k) else
    let (a, b) := stickyMag q (-e - k)
    round32 n a b

/-- 1/√x. -/
def frsqNum : Num → Num × Nat
  | .nan => (.nan, fNan)
  | .inf n => if n then (.nan, fInvalid) else (.fin false 0 0, 0)
  | .fin n m e =>
    if m = 0 then (.inf n, 0)
    else if n then (.nan, fInvalid)
    else
      let (m, e) := if e % 2 = 0 then (m, e) else (2 * m, e - 1)
      let k := Nat.log2 m + 40
      let q := Nat.sqrt (2 ^ (2 * k) / m)
      if q * q * m = 2 ^ (2 * k) then round32 false q (-(e / 2) - k) else
      let (a, b) := stickyMag q (-(e / 2) - k)
      round32 false a b

/-- A finite number as a fixed-point integer, for e ≥ −512. -/
def fxOf (ng : Bool) (m : Nat) (e : Int) : Int :=
  let v : Nat := if -(fxBits : Int) ≤ e then m * 2 ^ (e + fxBits).toNat else m / 2 ^ (-(e + fxBits)).toNat
  if ng then -(v : Int) else v

/-- 2^x. -/
def fexp2Num : Num → Num × Nat
  | .nan => (.nan, fNan)
  | .inf n => if n then (.fin false 0 0, 0) else (.inf false, 0)
  | .fin n m e =>
    if m = 0 then (.fin false 1 0, 0)
    else if 8 ≤ leadExp m e then (if n then (.fin false 0 0, fUnder) else (.inf false, fOverflow))
    else
      let x := fxOf n m e
      let whole := x / (fxOne : Int)
      let f := (x % (fxOne : Int)).toNat
      if f = 0 then round32 false 1 whole
      else
        let (a, b) := stickyMag (fxExp2 f) (whole - fxBits)
        round32 false a b

/-- log2 x. -/
def flog2Num : Num → Num × Nat
  | .nan => (.nan, fNan)
  | .inf n => if n then (.nan, fInvalid) else (.inf false, 0)
  | .fin n m e =>
    if m = 0 then (.inf true, 0)
    else if n then (.nan, fInvalid)
    else
      let lb := Nat.log2 m
      let ex : Int := e + lb
      if m = 2 ^ lb then round32 (ex < 0) ex.natAbs 0
      else
        let z := (m - 2 ^ lb) * fxOne / (m + 2 ^ lb)
        let fr := fxAtanh2 z * fxOne / fxLn2
        let v := ex * (fxOne : Int) + fr
        let (a, b) := stickyMag v.natAbs (-(fxBits : Int))
        round32 (v < 0) a b

/-- tanh x = (e^2x − 1)/(e^2x + 1). -/
def ftanhNum : Num → Num × Nat
  | .nan => (.nan, fNan)
  | .inf n => (.fin n 1 0, 0)
  | .fin n m e =>
    if m = 0 then (.fin n 0 0, 0)
    else if leadExp m e < -40 then
      -- tanh x lies just below x, nearer than 2^-80 of it
      round32 n (m * 2 ^ 80 - 1) (e - 80)
    else if 5 ≤ leadExp m e then round32 n (2 ^ 80 - 1) (-80)
    else
      -- 2x in units of ln 2, so that e^2x = 2^w · 2^f
      let x := (fxOf false m e).toNat
      let y := 2 * x * fxOne / fxLn2
      let w := y / fxOne
      let f := y % fxOne
      let ex := fxExp2 f * 2 ^ w
      let (a, b) := stickyMag ((ex - fxOne) * fxOne / (ex + fxOne)) (-(fxBits : Int))
      round32 n a b

end Sys2Proof.Machine
end

