-- ==== Sys2Proof/Machine/Sparse.lean ====
section
/-!
DEFINITION. Sparse data by key: lists of (key, value) pairs with keys strictly rising and no entry equal to what an
unlisted key reads as. The register file, the Commons memory and every per-unit table use these operations.
-/
namespace Sys2Proof.Machine
open Sys2Proof

/-- The value at a key; an unlisted key reads as the default. -/
def smGet {α : Type} (d : α) (k : Nat) : List (Nat × α) → α
  | [] => d
  | (j, v) :: t => if j = k then v else smGet d k t

/-- The entry at a key put in before the first higher key. -/
def smInsert {α : Type} (k : Nat) (v : α) : List (Nat × α) → List (Nat × α)
  | [] => [(k, v)]
  | (j, w) :: t => if k < j then (k, v) :: (j, w) :: t else (j, w) :: smInsert k v t

/-- Every entry at a key taken out. -/
def smErase {α : Type} (k : Nat) (l : List (Nat × α)) : List (Nat × α) := l.filter fun e => e.1 != k

/-- The value at a key set; setting the default removes the entry. -/
def smSet {α : Type} [DecidableEq α] (d : α) (k : Nat) (v : α) (l : List (Nat × α)) : List (Nat × α) :=
  if v = d then smErase k l else smInsert k v (smErase k l)

/-- The canonical form for a default that depends on the key. -/
def smWf {α : Type} [DecidableEq α] (d : Nat → α) : List (Nat × α) → Bool
  | [] => true
  | (k, v) :: t => decide (v ≠ d k) && (t.all fun e => decide (k < e.1)) && smWf d t

/-- The canonical form of a memory whose unlisted bytes read 0 (R270: a new buffer reads as zero until written; R103: a
cleared store reads zero). -/
def Memory.wf (m : List Host.Cell) : Bool := smWf (fun _ => (0 : Byte)) m

/-- One byte. -/
def rdByte (m : List Host.Cell) (a : Nat) : Byte := smGet 0 a m

/-- One byte stored. -/
def wrByte (m : List Host.Cell) (a : Nat) (b : Byte) : List Host.Cell := smSet 0 a b m

/-- `n` bytes from `a` upward, lowest address first. -/
def rdBytes (m : List Host.Cell) (a : Nat) : Nat → List Byte
  | 0 => []
  | n + 1 => rdByte m a :: rdBytes m (a + 1) n

/-- A list of bytes stored from `a` upward. -/
def wrBytes (m : List Host.Cell) (a : Nat) : List Byte → List Host.Cell
  | [] => m
  | b :: t => wrBytes (wrByte m a b) (a + 1) t

/-- Every byte from `lo` up to but not including `hi` made 0. -/
def clrBytes (m : List Host.Cell) (lo hi : Nat) : List Host.Cell := m.filter fun c => !(decide (lo ≤ c.1) && decide (c.1 < hi))

/-- Little-endian bytes of a number (R1). -/
def leBytes : Nat → Nat → List Byte
  | 0, _ => []
  | n + 1, v => BitVec.ofNat 8 v :: leBytes n (v / 256)

/-- The number that little-endian bytes hold (R1). -/
def leNat : List Byte → Nat
  | [] => 0
  | b :: t => b.toNat + 256 * leNat t

/-- `n` bytes from `a` as one little-endian number (R1). -/
def rdNat (m : List Host.Cell) (a n : Nat) : Nat := leNat (rdBytes m a n)

/-- `n` bytes of a number stored little-endian from `a` (R1). -/
def wrNat (m : List Host.Cell) (a n v : Nat) : List Host.Cell := wrBytes m a (leBytes n v)

/-- A field of a per-unit table read, changed and stored. -/
def smMod {α : Type} [DecidableEq α] (d : α) (k : Nat) (f : α → α) (l : List (Nat × α)) : List (Nat × α) :=
  smSet d k (f (smGet d k l)) l

end Sys2Proof.Machine
end

