-- ==== Sys2Proof/Machine/RegMap.lean ====
section
/-!
DEFINITION. The BAR0 map: where each register lies, which of its bits a host write sets or clears (R3), its reset value,
and which resets clear it (R431). The rows stand in the order of the manual's register tables.
-/
namespace Sys2Proof.Machine
open Sys2Proof

/-- Which resets return a register to its reset value (R431). -/
inductive RegClass where
  /-- Kept across every reset. -/
  | kept
  /-- Cleared by POR and PIN. -/
  | porPin
  /-- Cleared by POR, PIN and SOFT. -/
  | soft
  /-- As soft, and by a TILE reset of its tile. -/
  | tile
  /-- Cleared by POR, PIN and the tile's TILE reset, kept at SOFT. -/
  | tilePP
  /-- An almanac's registers (R130). -/
  | alm
  /-- A function's handle windows (R431). -/
  | win
  /-- The mailbox: cleared by POR, PIN, HOST and the physical function's FLR. -/
  | mailbox
  /-- Flags (R226). -/
  | flag
  deriving DecidableEq, Repr

/-- A family of registers: `n1` groups `s1` bytes apart of `n2` registers `s2` bytes apart. -/
structure RegRow where
  base : Nat
  n1 : Nat
  s1 : Nat
  n2 : Nat
  s2 : Nat
  wide : Bool
  rw : Nat
  w1c : Nat
  reset : Nat
  cls : RegClass
  deriving DecidableEq, Repr

/-- A single 32-bit register. -/
def r32 (base rw w1c reset : Nat) (cls : RegClass) : RegRow := ⟨base, 1, 8, 1, 8, false, rw, w1c, reset, cls⟩
/-- A single 64-bit register. -/
def r64 (base rw w1c reset : Nat) (cls : RegClass) : RegRow := ⟨base, 1, 8, 1, 8, true, rw, w1c, reset, cls⟩
/-- `n` 32-bit registers `s` bytes apart. -/
def a32 (base n s rw w1c reset : Nat) (cls : RegClass) : RegRow := ⟨base, 1, n * s, n, s, false, rw, w1c, reset, cls⟩
/-- `n` 64-bit registers `s` bytes apart. -/
def a64 (base n s rw w1c reset : Nat) (cls : RegClass) : RegRow := ⟨base, 1, n * s, n, s, true, rw, w1c, reset, cls⟩

/-- All bits of a 32-bit register. -/
def m32 : Nat := 0xFFFFFFFF
/-- All bits of a 64-bit register. -/
def m64 : Nat := 0xFFFFFFFFFFFFFFFF

/-- DOME_ registers (chapters 01, 08, 13, 14). -/
def domeRows : List RegRow :=
  [ r32 0x100 0 0 0 .porPin,            -- DOME_STRAPS
    r32 0x108 0 0xFF 0 .soft,           -- DOME_ALERT_CAUSE
    r32 0x10C 0xFF 0 0xFF .soft,        -- DOME_ALERT_ENABLE
    r32 0x110 0 0 0 .soft,              -- DOME_THERMAL
    r32 0x120 0 0 0 .porPin,            -- DOME_HOST_LINK
    r32 0x130 0 0 0 .kept,              -- DOME_RESET_CAUSE, written by each reset
    r32 0x140 0 0 0 .porPin,            -- DOME_PRESENCE
    r32 0x200 0 0 0 .mailbox,           -- DOME_MBX_CTRL
    r32 0x204 0 0x70000000 0 .mailbox,  -- DOME_MBX_STATUS
    a32 0x400 36 4 0 0 0 .tile,         -- DOME_TILE_PENDINGc, computed
    a32 0x1000 4 4 m32 0 0 .mailbox,    -- request header
    a32 0x1010 4 4 0 0 0 .mailbox,      -- reply header
    a32 0x2000 1024 4 m32 0 0 .mailbox, -- request payload
    a32 0x3000 1024 4 0 0 0 .mailbox ]  -- reply payload

/-- A 32-bit register of every tile window (R6). -/
def t32 (off rw w1c reset : Nat) (cls : RegClass) : RegRow :=
  ⟨0x1000000 + off, 1152, 0x1000, 1, 8, false, rw, w1c, reset, cls⟩
/-- A 64-bit register of every tile window (R6). -/
def t64 (off rw w1c reset : Nat) (cls : RegClass) : RegRow :=
  ⟨0x1000000 + off, 1152, 0x1000, 1, 8, true, rw, w1c, reset, cls⟩

/-- TILE_, TILE_STM_ and HDG_ registers (chapters 03 and 05). -/
def tileRows : List RegRow :=
  [ t32 0x000 0 0 0 .kept,         -- TILE_ID, fused
    t64 0x008 0 0 0 .tile,         -- TILE_SUMMARY_LAST
    ⟨0x1000010, 1152, 0x1000, 6, 4, false, 0, 0, 0, .tile⟩,  -- TILE_EXC_COUNT_
    t32 0x028 0 0 0 .tile,         -- TILE_EXC_CLEAR
    t32 0x02C 0x3F 0 0 .tile,      -- TILE_EXC_IRQ_MASK
    t32 0x030 0 0x3F 0 .tile,      -- TILE_EXC_IRQ_STATUS
    t64 0x040 0 0 0 .tile,         -- TILE_PASS_LAST
    t32 0x048 0 0 0 .tile,         -- TILE_PASS_ORIGIN
    ⟨0x1000050, 1152, 0x1000, 4, 8, true, 0, 0, 0, .tile⟩,   -- TILE_PASS_COUNT, TILE_STALL_
    t32 0x080 0x80000000 0 0 .tile, -- TILE_VE_CHK
    t32 0x084 0 0x80000000 0 .tile, -- TILE_VE_CHK_STATUS
    t32 0x090 0 0 0 .porPin,       -- TILE_STORE_ECC
    t32 0x400 0 0 0 .tile,         -- TILE_SEQ_STATUS, computed
    t32 0x404 0x7F 0 0 .tile,      -- TILE_STM_RESERVE
    t32 0x408 0x3F 0 0 .tile,      -- TILE_STM_SELECT
    t32 0x40C 0 0 0 .tile,         -- TILE_STM_STATE, computed
    t32 0x410 m32 0 0 .tile,       -- TILE_STM_SRC
    t32 0x414 m32 0 0 .tile,       -- TILE_STM_DST
    ⟨0x1000418, 1152, 0x1000, 2, 8, true, 0xFFFFFFFFFFFF, 0, 0, .tile⟩,  -- TILE_STM_SRC_OFFSET, DST_OFFSET
    ⟨0x1000428, 1152, 0x1000, 2, 8, true, m64, 0, 0, .tile⟩,             -- TILE_STM_SRC_STRIDE, DST_STRIDE
    t64 0x438 0x00FFFFFF00FFFFFF 0 0 .tile,  -- TILE_STM_SHAPE
    t64 0x440 m64 0 0 .tile,       -- TILE_STM_RECORD
    t32 0x448 m32 0 0 .tile,       -- TILE_STM_SIGNAL
    t32 0x44C 0 0 0 .tile,         -- TILE_STM_ARM
    t32 0x450 0 0 0 .tile,         -- TILE_STM_ARM_STATUS
    t32 0x454 0 0 0 .tile,         -- TILE_STM_STOP
    t32 0x800 0x3F 0 0 .soft,      -- HDG_ROUTE_SELECT
    t64 0x808 0 0 0 .soft,         -- HDG_ROUTE_ENTRY
    ⟨0x1000810, 1152, 0x1000, 4, 4, false, 0, 0, 0, .soft⟩,  -- HDG_RATE
    t32 0x820 0 0 0 .tilePP,       -- HDG_SEAM_REPLAY
    t32 0x824 m32 0 1250 .soft,    -- HDG_LAG_THRESH
    t32 0x828 0 0x80000000 0 .soft, -- HDG_LAG_STATUS
    t64 0x830 0 0 0 .tile ]        -- HDG_LAG_HELD

/-- A register of every almanac's window (R123). -/
def alm32 (off rw w1c reset : Nat) : RegRow := ⟨0x2000000 + off, 256, 0x1000, 1, 8, false, rw, w1c, reset, .alm⟩
/-- A 64-bit register of every almanac's window. -/
def alm64 (off rw w1c reset : Nat) : RegRow := ⟨0x2000000 + off, 256, 0x1000, 1, 8, true, rw, w1c, reset, .alm⟩

/-- ALM_ registers (chapters 04 and 06). -/
def almRows : List RegRow :=
  [ alm32 0x00 0 0 0, alm32 0x04 0 0 0, alm32 0x08 0 0 0, alm32 0x0C 0 0 0,  -- DOORBELL, CTRL, HEAD, TAIL
    alm32 0x10 0xC3FF1F00 0 0x00040000,   -- ALM_CFG
    alm32 0x14 m32 0 0, alm32 0x18 m32 0 0,  -- ALM_RING, ALM_CPL
    alm32 0x1C 0 0 0,                     -- ALM_STATUS
    alm32 0x20 0 0x1F 0,                  -- ALM_EVENT
    alm32 0x24 0 0 0,                     -- ALM_REFUSAL
    alm64 0x28 0 0 0,                     -- ALM_STALL
    alm32 0x30 0 0 0,                     -- ALM_STALL_INFO
    ⟨0x2000040, 256, 0x1000, 16, 4, false, m32, 0, 0, .alm⟩,  -- ALM_COUNT
    a32 0x2100000 65536 4 m32 0 0 .flag,  -- ALM_FLAGf
    a32 0x2140000 65536 4 0 0 0 .flag,    -- ALM_FLAG_ADDf
    a32 0x2180000 256 16 0xFFFDFFFF 0 0 .soft,  -- ALM_BAR_CFGb
    a32 0x2180004 256 16 0 0 0 .soft,     -- ALM_BAR_STATEb, computed
    a32 0x2180008 256 16 0 0 0 .soft,     -- ALM_BAR_GENb, computed
    a32 0x218000C 256 16 0 0 0 .soft,     -- ALM_BAR_ARRIVEb
    r32 0x2181000 0xFFFF0000 0 0xFFFF0000 .soft,       -- ALM_FLAG_RANGE0
    a32 0x2181004 16 4 m32 0 0x0000FFFF .soft,         -- ALM_FLAG_RANGEv
    r32 0x2181100 0xFFFF 0 0 .soft,       -- ALM_FLAG_SETTER_SELECT
    r32 0x2181104 0 0 0 .soft ]           -- ALM_FLAG_SETTER, computed

/-- CMN_ registers (chapters 05, 07 and 08). -/
def cmnRows : List RegRow :=
  [ r32 0x600000 0x00FFFF00 0 0x00640A00 .soft,  -- CMN_POOL_CTRL
    r64 0x600008 0 0 0 .soft,                    -- CMN_POOL_STATUS
    r64 0x600010 0 0 0 .soft,                    -- CMN_POOL_MEMBERS
    a64 0x600100 64 8 0xFFFFFFE000000001 0 0 .soft,  -- CMN_POOL_PEERi
    r32 0x608000 0xC0FFFFFF 0 0xC0080410 .soft,  -- CMN_PLACE_POLICY
    r32 0x608004 0xFFF 0 512 .soft,              -- CMN_PLACE_RESERVE
    r64 0x608008 0 0 0 .soft,                    -- CMN_MIGRATED
    a32 0x608404 255 4 0xC00007FF 0 0 .soft,     -- CMN_GROUPg, g from 1
    a64 0x608800 64 8 0 0 0 .soft,               -- CMN_SEQc, computed
    r32 0x608C00 0xFF3F 0 0 .soft,               -- CMN_GROUP_SELECT
    r32 0x608C04 0 0 0 .soft,                    -- CMN_GROUP_MEMBERS, computed
    r32 0x609000 0x803F001F 0 16 .soft,          -- CMN_TWIN_CTRL
    r32 0x609004 0 0 0 .soft,                    -- CMN_TWIN_STATUS
    r64 0x609008 0 0 0 .soft,                    -- CMN_TWIN_COMPARED
    r32 0x609010 0xFFFFFFFE 0 0 .soft,           -- CMN_TWIN_ALM0
    a32 0x609014 7 4 m32 0 0 .soft,              -- CMN_TWIN_ALMi
    r64 0x609040 0 0 0 .soft,                    -- CMN_TWIN_DIVERGE
    r64 0x609048 0 0 0 .soft,                    -- CMN_TWIN_DIVERGE_AT
    a32 0x60A000 256 16 m32 0 0 .win,            -- CMN_WIN_HANDLE, physical function
    a32 0x60A004 256 16 0xC0000000 0x00070000 0 .win,
    a64 0x60A008 256 16 0xFFFFFFFFF000 0 0 .win,
    a32 0x60B000 256 16 m32 0 0 .win,            -- virtual functions 1 to 16, 16 windows each
    a32 0x60B004 256 16 0xC0000000 0x00070000 0 .win,
    a64 0x60B008 256 16 0xFFFFFFFFF000 0 0 .win ]

/-- A register of every port's window. -/
def lnk32 (off rw w1c reset : Nat) (cls : RegClass) : RegRow :=
  ⟨0x300000 + off, 8, 0x10000, 1, 8, false, rw, w1c, reset, cls⟩
/-- A 64-bit register of every port's window. -/
def lnk64 (off rw w1c reset : Nat) (cls : RegClass) : RegRow :=
  ⟨0x300000 + off, 8, 0x10000, 1, 8, true, rw, w1c, reset, cls⟩
/-- A register of every slot of every port. -/
def slot32 (off rw : Nat) : RegRow := ⟨0x300200 + off, 8, 0x10000, 32, 32, false, rw, 0, 0, .soft⟩

/-- LNK_ and MTR_ registers (chapter 09). -/
def lnkRows : List RegRow :=
  [ lnk64 0x000 0xFF0F8FFFFFC7FFFF 0 0 .soft,  -- LNK_RX_CFG
    lnk64 0x008 0xFFFF8FFFFFC7FFFF 0 0 .soft,  -- LNK_TX_CFG
    lnk32 0x010 0xFFF81F00 0 0 .soft,          -- LNK_CLK_CFG
    lnk32 0x014 0 0 0 .soft,                   -- LNK_STATUS
    lnk32 0x018 0xFF000000 0xFF 0xFF000000 .soft,  -- LNK_EVENT
    lnk32 0x01C 0 0 0 .soft,                   -- LNK_LANE_MAP
    ⟨0x300040, 8, 0x10000, 8, 4, false, 0, 0, 0, .soft⟩,  -- LNK_LANEl
    lnk32 0x100 0xBFFFFFFF 0 0 .soft,          -- LNK_FEC_CTRL
    lnk32 0x104 0 0x40000000 0 .soft,          -- LNK_FEC_STATUS
    lnk64 0x108 0xFFFFFFFFFFFF000F 0 0 .soft,  -- LNK_FRAME_RING
    lnk64 0x110 0xFFFFFFFFFFFF0001 0 0 .soft,  -- LNK_WINDOW
    slot32 0x00 0xCFFFFFFF, slot32 0x04 m32, slot32 0x08 m32, slot32 0x0C m32, slot32 0x10 m32,
    slot32 0x14 0xFFFFFF, slot32 0x18 0, slot32 0x1C 0,
    lnk64 0x600 0 0x800000 0 .porPin,          -- LNK_MISS
    ⟨0x308000, 8, 0x10000, 8192, 4, false, m32, 0, 0, .soft⟩,  -- LNK_X
    r32 0x380000 0 0 0 .soft,                  -- LNK_INSTCLK
    r32 0x380004 0x80000000 0 0 .porPin,       -- LNK_SYSREF: SEEN kept at SOFT
    r32 0x380008 0 0 0x76543210 .kept,         -- LNK_CORE_MAP
    r64 0x400000 0x8000FFFF01FFFFFF 0 0x0000040400000000 .soft,  -- MTR_CFG
    r32 0x400008 0 0x18000000 0 .porPin,       -- MTR_STATUS
    r64 0x400010 0 0 0 .soft,                  -- MTR_COUNT, computed
    r32 0x400018 0 0 0 .soft,                  -- MTR_TICK_PERIOD
    a32 0x400100 16 32 0x8001FFFF 0 0 .soft,   -- SWAP_CTRL
    a32 0x400104 16 32 m32 0 0 .soft,          -- SWAP_A
    a32 0x400108 16 32 m32 0 0 .soft,          -- SWAP_B
    a32 0x40010C 16 32 0 0 0 .soft,            -- SWAP_STATUS
    a64 0x400110 16 32 0xFFFFFFFFFF 0 0 .soft ]  -- SWAP_CYCLE

/-- PLT_ and CFG_ registers (chapters 10 and 11). -/
def pltCfgRows : List RegRow :=
  [ a32 0x200000 32 0x100 0 0 0 .soft,              -- PLT_CTRL
    a32 0x200004 32 0x100 0 0x04000000 0 .kept,     -- PLT_STATUS: SITE kept across every reset
    a64 0x200008 32 0x100 0 0 0 .soft,              -- PLT_FT_CAP
    a32 0x200010 32 0x100 0 0 0 .soft,              -- PLT_FT_USER
    a32 0x200014 32 0x100 0 0 0 .soft,              -- PLT_FT_UOP_LAT
    a32 0x200018 32 0x100 0x800000FF 0 0 .soft,     -- PLT_FT_GROUP
    a32 0x204000 12 4 0 0 0 .soft,                  -- PLT_BANKb
    r32 0x204040 0 0 0 .soft,                       -- PLT_PLL
    r32 0x100000 0 0 0 .soft,                       -- CFG_STATUS
    r32 0x100004 0 0 0 .soft,                       -- CFG_CMD
    r32 0x100008 0 0x30000000 0 .soft,              -- CFG_CMD_STATUS
    r64 0x100010 0 0 0 .soft,                       -- CFG_DETAIL
    r32 0x100018 0x1FF 0 0 .soft,                   -- CFG_STAGE_BASE
    r32 0x10001C m32 0 0 .soft,                     -- CFG_STAGE_SRC
    r32 0x100020 m32 0 0 .soft,                     -- CFG_STAGE_LEN
    r32 0x100024 0 0 0 .kept,                       -- CFG_NV
    r32 0x100028 0 0 0 .soft,                       -- CFG_FLASH
    r64 0x100030 0 0 0 .soft,                       -- CFG_IMAGE_TAG
    r32 0x100038 0 0 0xB1520001 .kept,              -- CFG_IDENTITY
    r64 0x100040 0 0 0 .kept,                       -- CFG_SERIAL, fused
    r32 0x100048 0x80000000 0 0x80000000 .soft,     -- CFG_GLEAN_CTRL
    r32 0x10004C 0 0 0 .soft,                       -- CFG_GLEAN_STATUS
    r32 0x100050 0 0x80000000 0 .soft,              -- CFG_GLEAN_LAST
    r64 0x100058 0 0 0 .soft,                       -- CFG_GLEAN_COUNTS
    r64 0x100060 m64 0 0 .soft,                     -- CFG_GLEAN_ACTION
    a64 0x100080 4 8 0 0 0 .kept ]                  -- CFG_KEYk, computed

/-- MEM_, VRN_ and FLT_ registers (chapters 12, 14 and 15). -/
def memRows : List RegRow :=
  [ r32 0x500000 0 0 0 .soft,                     -- MEM_STATUS
    r32 0x500004 3 0 0 .kept,                     -- MEM_MAP
    r64 0x500008 0 0 0x000CBA9876543210 .kept,    -- MEM_PKG_MAP
    r32 0x500010 3 0 2 .soft,                     -- MEM_NRT
    r32 0x500014 0 0 0 .soft,                     -- MEM_SPARE_CTRL
    r32 0x500018 0 0 0 .soft,                     -- MEM_SPARE_STATUS
    r64 0x500020 0 0x8000000000000000 0 .soft,    -- MEM_ERR_LAST
    r64 0x500028 0 0 0 .porPin,                   -- MEM_NEIGHBOUR
    a64 0x500100 13 16 0 0 0 .porPin,             -- MEM_PKG_ERRp
    a32 0x500108 12 16 0 0 0x40000000 .kept,      -- MEM_PKG_INFOp, p in service at shipment
    r32 0x5001C8 0 0 0 .kept,                     -- MEM_PKG_INFO12, fallow at shipment
    r32 0x700000 0 0 0 .kept,                     -- VRN_STATUS
    r64 0x700008 0 0 0 .kept,                     -- VRN_ENERGY, computed
    r64 0x700010 0 0 0 .kept,                     -- VRN_INTERVAL, computed
    r64 0x700018 0 0 0 .kept,                     -- VRN_OLDEST, computed
    r32 0x700020 0 0 0 .kept,                     -- VRN_POWER
    r32 0x700024 0 0 0 .kept,                     -- VRN_VOLTAGE
    r32 0x700028 0 0 0 .kept,                     -- VRN_BOOTS
    r32 0x70002C 0 0 0 .kept,                     -- VRN_SEAL_EVENTS
    r32 0x700030 0 0 0 .kept,                     -- VRN_FW_VERSION
    a32 0x701000 128 4 0 0 0 .kept,               -- VRN_PUBKEY
    r32 0x701200 0 0 65537 .kept,                 -- VRN_PUBEXP
    a32 0x702000 1024 4 0 0 0 .kept,              -- VRN_CERT
    a32 0x704000 192 4 0 0 0 .kept,               -- VRN_LATEST
    r32 0x800000 0x3FF 0 0x15A .kept,             -- FLT_POLICY: 01 01 01 10 10 at shipment
    r32 0x800004 0 0 0x80021100 .kept,            -- FLT_FALLOW: 128 tiles, 2 sites, 1 core, 1 package
    r32 0x800008 0 0 0 .porPin,                   -- FLT_LOG_HEAD
    r32 0x80000C 0x001F0000 0x1F 0x001F0000 .soft, -- FLT_LOG_STATUS
    r32 0x800010 0 0 0 .porPin,                   -- FLT_THROTTLE
    r32 0x800014 m32 0 0x0C819004 .kept,          -- FLT_THRESH: 200, 400, 4
    r64 0x800018 0 0 0 .soft,                     -- FLT_PROPOSAL
    r64 0x800020 0 0 0 .kept,                     -- FLT_LIFE
    a32 0x801000 1152 4 0 0 41 .kept,             -- FLT_WEARt: 41 spare rows in every bank
    a32 0x840000 32768 4 0 0 0 .porPin ]          -- FLT_LOGe

/-- Every register of BAR0. -/
def regRows : List RegRow := domeRows ++ tileRows ++ almRows ++ cmnRows ++ lnkRows ++ pltCfgRows ++ memRows

/-- Whether a row holds the byte offset; then which group, which register of the group and which word of it. -/
def RegRow.hit (r : RegRow) (off : Nat) : Option (Nat × Nat × Nat) :=
  if off < r.base then none else
  let d := off - r.base
  let i := d / r.s1
  let j := d % r.s1 / r.s2
  let k := d % r.s1 % r.s2 / 4
  if i < r.n1 ∧ j < r.n2 ∧ k < (if r.wide then 2 else 1) then some (i, j, k) else none

/-- The row that holds an offset. -/
def findRow : List RegRow → Nat → Option (RegRow × Nat × Nat × Nat)
  | [], _ => none
  | r :: t, off => match r.hit off with
    | some p => some (r, p)
    | none => findRow t off

/-- TILE_ID as fused: STATE, die, column, row, LOGICAL_VALID and LOGICAL (R6, R121). -/
def fusedTileId (t : Nat) : Nat :=
  let col := t / 32
  let row := t % 32
  let die := (if col < 18 then 0 else 1) + (if row < 16 then 0 else 2)
  let st := Config.fusedTileState t % 8
  let serves := st = 0 || st = 1
  putFld (putFld (putFld (putFld (putFld (putFld 0 31 29 st) 28 27 die) 26 21 col) 20 16 row)
    15 15 (b2n serves)) 9 0 (if serves then Config.fusedLogical t else 0)

/-- The value a register word holds after reset, where it is not fixed by the row. -/
def resetWord (off : Nat) : Word :=
  if 0x1000000 ≤ off ∧ off < 0x1480000 ∧ off % 0x1000 = 0 then BitVec.ofNat 32 (fusedTileId ((off - 0x1000000) / 0x1000))
  else if off = 0x100040 then BitVec.ofNat 32 Config.serial.toNat
  else if off = 0x100044 then BitVec.ofNat 32 (Config.serial.toNat / 2 ^ 32)
  else if 0x200000 ≤ off ∧ off < 0x202000 ∧ off % 0x100 = 4 then BitVec.ofNat 32 (((off - 0x200000) / 0x100) * 2 ^ 20)
  else match findRow regRows off with
    | some (r, _, _, k) => BitVec.ofNat 32 (r.reset >>> (32 * k))
    | none => 0

/-! Offsets of registers, by block. -/

/-- TILE_ register `k` of tile `t`. -/
def tileR (t k : Nat) : Nat := 0x1000000 + 0x1000 * t + k
/-- ALM_ register `k` of almanac `a`. -/
def almR (a k : Nat) : Nat := 0x2000000 + 0x1000 * a + k
/-- ALM_FLAGf. -/
def flagR (f : Nat) : Nat := 0x2100000 + 4 * f
/-- ALM_BAR_CFGb. -/
def barCfgR (b : Nat) : Nat := 0x2180000 + 16 * b
/-- ALM_FLAG_RANGEv. -/
def flagRangeR (v : Nat) : Nat := 0x2181000 + 4 * v
/-- LNK_ register `k` of port `p`. -/
def lnkR (p k : Nat) : Nat := 0x300000 + 0x10000 * p + k
/-- Register `k` of slot `s` of port `p`. -/
def slotR (p s k : Nat) : Nat := 0x300200 + 0x10000 * p + 32 * s + k
/-- Register `k` of swap pair `s`. -/
def swapR (s k : Nat) : Nat := 0x400100 + 32 * s + k
/-- PLT_ register `k` of logical plot `p`. -/
def pltR (p k : Nat) : Nat := 0x200000 + 0x100 * p + k
/-- Register `k` of handle window `w` of function `fn` (R268). -/
def winR (fn w k : Nat) : Nat := if fn = 0 then 0x60A000 + 16 * w + k else 0x60B000 + 256 * (fn - 1) + 16 * w + k
/-- CMN_GROUPg. -/
def groupR (g : Nat) : Nat := 0x608400 + 4 * g
/-- CMN_POOL_PEERi. -/
def peerR (i : Nat) : Nat := 0x600100 + 8 * i
/-- MEM_PKG_ERRp. -/
def pkgErrR (p : Nat) : Nat := 0x500100 + 16 * p
/-- MEM_PKG_INFOp. -/
def pkgInfoR (p : Nat) : Nat := 0x500108 + 16 * p
/-- FLT_WEARt. -/
def wearR (t : Nat) : Nat := 0x801000 + 4 * t

/-- Named single registers. -/
def Reg.straps : Nat := 0x100
/-- DOME_ALERT_CAUSE -/
def Reg.alertCause : Nat := 0x108
/-- DOME_ALERT_ENABLE -/
def Reg.alertEnable : Nat := 0x10C
/-- DOME_THERMAL -/
def Reg.thermal : Nat := 0x110
/-- DOME_HOST_LINK -/
def Reg.hostLink : Nat := 0x120
/-- DOME_RESET_CAUSE -/
def Reg.resetCause : Nat := 0x130
/-- DOME_PRESENCE -/
def Reg.presence : Nat := 0x140
/-- DOME_MBX_STATUS -/
def Reg.mbxStatus : Nat := 0x204
/-- CFG_STATUS -/
def Reg.cfgStatus : Nat := 0x100000
/-- CFG_CMD_STATUS -/
def Reg.cfgCmdStatus : Nat := 0x100008
/-- CFG_DETAIL -/
def Reg.cfgDetail : Nat := 0x100010
/-- CFG_STAGE_BASE -/
def Reg.stageBase : Nat := 0x100018
/-- CFG_STAGE_SRC -/
def Reg.stageSrc : Nat := 0x10001C
/-- CFG_STAGE_LEN -/
def Reg.stageLen : Nat := 0x100020
/-- CFG_NV -/
def Reg.cfgNv : Nat := 0x100024
/-- CFG_FLASH -/
def Reg.cfgFlash : Nat := 0x100028
/-- CFG_IMAGE_TAG -/
def Reg.imageTag : Nat := 0x100030
/-- CFG_GLEAN_CTRL -/
def Reg.gleanCtrl : Nat := 0x100048
/-- CFG_GLEAN_STATUS -/
def Reg.gleanStatus : Nat := 0x10004C
/-- CFG_GLEAN_LAST -/
def Reg.gleanLast : Nat := 0x100050
/-- CFG_GLEAN_COUNTS -/
def Reg.gleanCounts : Nat := 0x100058
/-- CFG_GLEAN_ACTION -/
def Reg.gleanAction : Nat := 0x100060
/-- PLT_PLL -/
def Reg.pll : Nat := 0x204040
/-- LNK_INSTCLK -/
def Reg.instclk : Nat := 0x380000
/-- LNK_SYSREF -/
def Reg.sysref : Nat := 0x380004
/-- LNK_CORE_MAP -/
def Reg.coreMap : Nat := 0x380008
/-- MTR_CFG -/
def Reg.mtrCfg : Nat := 0x400000
/-- MTR_STATUS -/
def Reg.mtrStatus : Nat := 0x400008
/-- MTR_TICK_PERIOD -/
def Reg.tickPeriod : Nat := 0x400018
/-- MEM_STATUS -/
def Reg.memStatus : Nat := 0x500000
/-- MEM_MAP -/
def Reg.memMap : Nat := 0x500004
/-- MEM_PKG_MAP -/
def Reg.pkgMap : Nat := 0x500008
/-- MEM_NRT -/
def Reg.memNrt : Nat := 0x500010
/-- MEM_SPARE_STATUS -/
def Reg.spareStatus : Nat := 0x500018
/-- MEM_ERR_LAST -/
def Reg.memErrLast : Nat := 0x500020
/-- MEM_NEIGHBOUR -/
def Reg.memNeighbour : Nat := 0x500028
/-- CMN_POOL_CTRL -/
def Reg.poolCtrl : Nat := 0x600000
/-- CMN_POOL_STATUS -/
def Reg.poolStatus : Nat := 0x600008
/-- CMN_POOL_MEMBERS -/
def Reg.poolMembers : Nat := 0x600010
/-- CMN_PLACE_POLICY -/
def Reg.placePolicy : Nat := 0x608000
/-- CMN_PLACE_RESERVE -/
def Reg.placeReserve : Nat := 0x608004
/-- CMN_MIGRATED -/
def Reg.migrated : Nat := 0x608008
/-- CMN_TWIN_CTRL -/
def Reg.twinCtrl : Nat := 0x609000
/-- CMN_TWIN_STATUS -/
def Reg.twinStatus : Nat := 0x609004
/-- CMN_TWIN_COMPARED -/
def Reg.twinCompared : Nat := 0x609008
/-- CMN_TWIN_DIVERGE -/
def Reg.twinDiverge : Nat := 0x609040
/-- CMN_TWIN_DIVERGE_AT -/
def Reg.twinDivergeAt : Nat := 0x609048
/-- VRN_STATUS -/
def Reg.vrnStatus : Nat := 0x700000
/-- FLT_POLICY -/
def Reg.fltPolicy : Nat := 0x800000
/-- FLT_FALLOW -/
def Reg.fltFallow : Nat := 0x800004
/-- FLT_LOG_HEAD -/
def Reg.logHead : Nat := 0x800008
/-- FLT_LOG_STATUS -/
def Reg.logStatus : Nat := 0x80000C
/-- FLT_THROTTLE -/
def Reg.throttle : Nat := 0x800010
/-- FLT_THRESH -/
def Reg.fltThresh : Nat := 0x800014
/-- FLT_PROPOSAL -/
def Reg.fltProposal : Nat := 0x800018
/-- FLT_LIFE -/
def Reg.fltLife : Nat := 0x800020

end Sys2Proof.Machine
end

