-- ==== Sys2Proof/Machine/Ops.lean ====
section
/-!
DEFINITION. The shared operations over the whole module's state: registers and their fields, interrupt messages, the
event log, the alert causes, the meridian count, and per-unit tables.
-/
namespace Sys2Proof.Machine
open Sys2Proof

/-! Registers. -/

/-- A register word. -/
def getReg (s : State) (off : Nat) : Word := smGet (resetWord off) off s.regs

/-- A register word set. -/
def setReg (s : State) (off : Nat) (v : Word) : State := { s with regs := smSet (resetWord off) off v s.regs }

/-- A 64-bit register as a number (R5). -/
def get64 (s : State) (off : Nat) : Nat := (getReg s off).toNat + 2 ^ 32 * (getReg s (off + 4)).toNat

/-- A 64-bit register set. -/
def set64 (s : State) (off v : Nat) : State :=
  setReg (setReg s off (BitVec.ofNat 32 v)) (off + 4) (BitVec.ofNat 32 (v / 2 ^ 32))

/-- Field [hi:lo] of a 32-bit or 64-bit register. -/
def getf (s : State) (off hi lo : Nat) : Nat :=
  if hi < 32 then fld (getReg s off).toNat hi lo
  else if 32 ≤ lo then fld (getReg s (off + 4)).toNat (hi - 32) (lo - 32)
  else fld (get64 s off) hi lo

/-- Field [hi:lo] of a 32-bit or 64-bit register set. -/
def setf (s : State) (off hi lo v : Nat) : State :=
  if hi < 32 then setReg s off (BitVec.ofNat 32 (putFld (getReg s off).toNat hi lo v))
  else if 32 ≤ lo then setReg s (off + 4) (BitVec.ofNat 32 (putFld (getReg s (off + 4)).toNat (hi - 32) (lo - 32) v))
  else set64 s off (putFld (get64 s off) hi lo v)

/-- Bit `i` of a register. -/
def getb (s : State) (off i : Nat) : Bool := getf s off i i == 1

/-- Bit `i` of a register set. -/
def setb (s : State) (off i : Nat) (b : Bool) : State := setf s off i i (b2n b)

/-- A counter register field raised by one, stopping at its largest value. -/
def countUp (s : State) (off hi lo : Nat) : State :=
  if getf s off hi lo = 2 ^ (hi - lo + 1) - 1 then s else setf s off hi lo (getf s off hi lo + 1)

/-- A counter register field raised by `n`, stopping at its largest value. -/
def countUpBy (s : State) (off hi lo n : Nat) : State :=
  setf s off hi lo (min (getf s off hi lo + n) (2 ^ (hi - lo + 1) - 1))

/-- Every register word whose offset satisfies `p` returned to its reset value. -/
def clearRegs (s : State) (p : Nat → Bool) : State := { s with regs := s.regs.filter fun e => !p e.1 }

/-! Per-unit tables. -/

/-- Almanac `a`. -/
def getAlm (s : State) (a : Nat) : Alm := smGet Alm.reset a s.alms
/-- Almanac `a` set. -/
def setAlm (s : State) (a : Nat) (x : Alm) : State := { s with alms := smSet Alm.reset a x s.alms }
/-- Tile `t`. -/
def getTile (s : State) (t : Nat) : Tile := smGet Tile.reset t s.tiles
/-- Tile `t` set. -/
def setTile (s : State) (t : Nat) (x : Tile) : State := { s with tiles := smSet Tile.reset t x s.tiles }
/-- Tile `t` changed. -/
def modTile (s : State) (t : Nat) (f : Tile → Tile) : State := setTile s t (f (getTile s t))
/-- Port `p`. -/
def getPort (s : State) (p : Nat) : Port := smGet Port.reset p s.ports
/-- Port `p` set. -/
def setPort (s : State) (p : Nat) (x : Port) : State := { s with ports := smSet Port.reset p x s.ports }
/-- Port `p` changed. -/
def modPort (s : State) (p : Nat) (f : Port → Port) : State := setPort s p (f (getPort s p))
/-- Plot `p`. -/
def getPlot (s : State) (p : Nat) : Plot := smGet Plot.reset p s.plots
/-- Plot `p` set. -/
def setPlot (s : State) (p : Nat) (x : Plot) : State := { s with plots := smSet Plot.reset p x s.plots }
/-- Plot `p` changed. -/
def modPlot (s : State) (p : Nat) (f : Plot → Plot) : State := setPlot s p (f (getPlot s p))
/-- Barrier object `b`. -/
def getBar (s : State) (b : Nat) : Bar := smGet Bar.reset b s.bars
/-- Barrier object `b` set. -/
def setBar (s : State) (b : Nat) (x : Bar) : State := { s with bars := smSet Bar.reset b x s.bars }

/-! Interrupt messages (R257, R263, R264). -/

/-- Where a function's MSI-X table word lies in `HostIf.msix`; its pending-bit words follow from 0x8000. -/
def msixKey (fn k : Nat) : Nat := fn * 0x10000 + k

/-- The vector's mask bit; PCIe resets it to 1. -/
def msixMasked (s : State) (fn vec : Nat) : Bool := (smGet 1 (msixKey fn (vec * 4 + 3)) s.host.msix).getLsbD 0

/-- The vector's pending bit. -/
def msixPending (s : State) (fn vec : Nat) : Bool :=
  (smGet 0 (msixKey fn (0x8000 + vec / 32)) s.host.msix).getLsbD (vec % 32)

/-- The vector's pending bit set or cleared. -/
def setMsixPending (s : State) (fn vec : Nat) (b : Bool) : State :=
  let key := msixKey fn (0x8000 + vec / 32)
  let w := (smGet 0 key s.host.msix).toNat
  let l := smSet 0 key (BitVec.ofNat 32 (putFld w (vec % 32) (vec % 32) (b2n b))) s.host.msix
  { s with host := { s.host with msix := l } }

/-- A message to the outside world. -/
def emit (s : State) (m : Sent) : State := { s with sent := s.sent ++ [m] }

/-- One interrupt message: nothing in D3hot (R257), the pending bit of a masked vector (R264), else the message. -/
def msix (s : State) (fn vec : Nat) : State :=
  if fn ∈ s.host.d3hot then s
  else if msixMasked s fn vec then setMsixPending s fn vec true
  else emit s (.msix fn vec)

/-- A change `f` of a source's status, with the source's message when its pending condition rises (R264). -/
def risen (fn vec : Nat) (cond : State → Bool) (f : State → State) (s : State) : State :=
  if !cond s && cond (f s) then msix (f s) fn vec else f s

/-- A software write `f` of a source's status register, with the source's message when its condition holds after it
(R264). -/
def rewritten (fn vec : Nat) (cond : State → Bool) (f : State → State) (s : State) : State :=
  if cond (f s) then msix (f s) fn vec else f s

/-- The function that owns almanac `a` (R128, R129). -/
def almOwner (s : State) (a : Nat) : Nat := if a = 0 then 0 else getf s (almR a 0x10) 12 8

/-- The pending condition of almanac `a`. -/
def almCond (a : Nat) (s : State) : Bool := getf s (almR a 0x20) 4 0 != 0

/-- ALM_EVENT bit `i` of almanac `a` set (R264: vector `a` of its owner). -/
def almEvent (s : State) (a i : Nat) : State :=
  risen (almOwner s a) a (almCond a) (fun s => setb s (almR a 0x20) i true) s

/-! Alerts and pins (R37, R38, R264). -/

/-- ALERT_N is low (R37). -/
def alertCond (s : State) : Bool := (getReg s Reg.alertCause &&& getReg s Reg.alertEnable) != 0

/-- Bits of DOME_ALERT_CAUSE that the hardware has set in this cycle (R38). -/
def alertNow (s : State) : Nat := match s.power.alertStamp with
  | some (c, m) => if c = s.cycle then m else 0
  | none => 0

/-- DOME_ALERT_CAUSE bit `i` set by the hardware. -/
def alertSet (s : State) (i : Nat) : State :=
  let stamp := some (s.cycle, putFld (alertNow s) i i 1)
  let s := { s with power := { s.power with alertStamp := stamp } }
  risen 0 258 alertCond (fun s => setb s Reg.alertCause i true) s

/-- A cause that begins to hold, or stops holding (R38). -/
def alertLevel (s : State) (i : Nat) (b : Bool) : State :=
  let was := bitOf s.power.alertHold i
  let s := { s with power := { s.power with alertHold := putFld s.power.alertHold i i (b2n b) } }
  if b ∧ !was then alertSet s i else s

/-! The event log (R456 to R461). -/

/-- The log's pending condition (R461). -/
def logCond (s : State) : Bool := (getf s Reg.logStatus 4 0 &&& getf s Reg.logStatus 20 16) != 0

/-- One entry written at FLT_LOG_HEAD (R457, R458). -/
def logWrite (s : State) (cls code loc det : Nat) : State :=
  let e := getf s Reg.logHead 31 0
  let b := 0x840000 + 32 * (e % 4096)
  let s := setReg s b (BitVec.ofNat 32 (cls * 2 ^ 16 + code))
  let s := setReg s (b + 4) (BitVec.ofNat 32 e)
  let s := set64 s (b + 8) s.cycle
  let s := set64 s (b + 16) loc
  let s := set64 s (b + 24) det
  setReg s Reg.logHead (BitVec.ofNat 32 (e + 1))

/-- An entry of class 0 to 4 recorded: the ring, NEW, vector 257 and, for class 4, the alert (R456 to R461). A unit logs
at most one class 1 entry a second; the unit of a class 1 entry is its LOCATION (DEDUCED). -/
def logEntry (s : State) (cls code loc det : Nat) : State :=
  if cls = 1 ∧ smGet 0 loc s.fallow.logged ≠ 0 ∧ s.cycle < smGet 0 loc s.fallow.logged - 1 + 1250000000 then s
  else
    let s := if cls = 1 then { s with fallow := { s.fallow with logged := smSet 0 loc (s.cycle + 1) s.fallow.logged } } else s
    let s := logWrite s cls code loc det
    let s := risen 0 257 logCond (fun s => setb s Reg.logStatus cls true) s
    if cls = 4 then alertSet s 6 else s

/-! Other interrupt sources. -/

/-- Vector 259: an enabled cause of some port, or of the meridian, is set. -/
def laneCond (s : State) : Bool :=
  (List.range 8).any (fun p => (getf s (lnkR p 0x18) 7 0 &&& getf s (lnkR p 0x18) 31 24) != 0) ||
  getf s Reg.mtrStatus 28 27 != 0

/-- LNK_EVENT bit `i` of port `p` set. -/
def laneEvent (s : State) (p i : Nat) : State :=
  risen 0 259 laneCond (fun s => setb s (lnkR p 0x18) i true) s

/-- MTR_STATUS TICK_COUNT (28) or LOST (27) set. -/
def meridianEvent (s : State) (i : Nat) : State :=
  risen 0 259 laneCond (fun s => setb s Reg.mtrStatus i true) s

/-- What vector 260 watches: CMN_POOL_STATUS STATE and CODE, MEMBERS, and CMN_TWIN_STATUS. -/
def poolWatch (s : State) : Nat × Nat × Nat × Nat :=
  (getf s Reg.poolStatus 63 61, getf s Reg.poolStatus 15 0, get64 s Reg.poolMembers, getf s Reg.twinStatus 31 0)

/-- A change `f` of the pool or the twin, with vector 260 when what it watches has changed (R263). -/
def poolChange (s : State) (f : State → State) : State :=
  if poolWatch (f s) = poolWatch s then f s else msix (f s) 0 260

/-- A tile asserts its exception interrupt (R122). -/
def tileIrq (s : State) (t : Nat) : Bool := getf s (tileR t 0x30) 5 0 != 0

/-- The die of a tile (TILE_ID.DIE). -/
def tileDie (t : Nat) : Nat := (if t / 32 < 18 then 0 else 1) + (if t % 32 < 16 then 0 else 2)

/-- Some tile of the die asserts its exception interrupt (R264). -/
def dieCond (d : Nat) (s : State) : Bool := (List.range 1152).any fun t => tileDie t == d && tileIrq s t

/-- Vector 256: a management reply or a background end stands, or PERSONALITY changed (R421). -/
def mgmtCond (s : State) : Bool := getf s Reg.mbxStatus 30 29 != 0

/-- DOME_MBX_STATUS REPLY (30) or ENDED (29) set. -/
def mgmtEvent (s : State) (i : Nat) : State :=
  risen 0 256 mgmtCond (fun s => setb s Reg.mbxStatus i true) s

/-- The normal personality is running (R265). -/
def isNormal (s : State) : Bool := getb s Reg.hostLink 31

/-- DOME_HOST_LINK.PERSONALITY set; vector 256 at a change (R265). -/
def setPersonality (s : State) (b : Bool) : State :=
  if getb s Reg.hostLink 31 = b then s
  else
    let s := { s with host := { s.host with personalityMsg := msixMasked s 0 256 } }
    msix (setb s Reg.hostLink 31 b) 0 256

/-! Free values. -/

/-- A free number, a new one each time: what the manual leaves open and the machine goes on with. -/
def takeFree (s : State) : Nat × State := (Config.freeNat s.free, { s with free := s.free + 1 })

/-- One of the status codes that R12 lets the module give: OK, or a code with a used high byte and a low byte of 1 or
more. -/
def anyCode (n : Nat) : Nat :=
  let k := n % 3826
  let hi := (k - 1) / 255
  if k = 0 then 0 else (if hi < 7 then hi else hi + 1) * 256 + (k - 1) % 255 + 1

end Sys2Proof.Machine
end

