-- ==== Sys2Proof/Machine/Operands.lean ====
section
/-!
DEFINITION. The fields of headers, views, descriptors and operand slots (R133 to R138), loop nests and offsets (R144),
and where an element and its scale byte or flag-plane entry lies (R135, R136, R47, R76).
-/
namespace Sys2Proof.Machine
open Sys2Proof

/-! Views (R134). -/

/-- HANDLE of a view. -/
def vHandle (v : BitVec 256) : Nat := fld v.toNat 31 0
/-- FORMAT. -/
def vFmt (v : BitVec 256) : Nat := fld v.toNat 35 32
/-- KIND: 0 numeric, 1 index, 2 raw bytes. -/
def vKind (v : BitVec 256) : Nat := fld v.toNat 37 36
/-- SCALED. -/
def vScaled (v : BitVec 256) : Bool := bitOf v.toNat 38
/-- K_AXIS. -/
def vKAxis (v : BitVec 256) : Bool := bitOf v.toNat 39
/-- SEALED. -/
def vSealed (v : BitVec 256) : Bool := bitOf v.toNat 40
/-- COMPANION. -/
def vComp (v : BitVec 256) : Nat := fld v.toNat 95 64
/-- PITCH. -/
def vPitch (v : BitVec 256) : Nat := fld v.toNat 127 96
/-- BASE. -/
def vBase (v : BitVec 256) : Nat := fld v.toNat 191 128

/-! Descriptors (R138). -/

/-- The 32-bit word at byte offset `o` of a slot. -/
def dWord (d : BitVec 1024) (o : Nat) : Nat := fld d.toNat (8 * o + 31) (8 * o)
/-- FAMILY. -/
def dFamily (d : BitVec 1024) : Nat := fld (dWord d 0) 3 0
/-- VARIANT. -/
def dVariant (d : BitVec 1024) : Nat := fld (dWord d 0) 7 4
/-- TALLY. -/
def dTally (d : BitVec 1024) : Bool := bitOf (dWord d 0) 8
/-- LOOP. -/
def dLoop (d : BitVec 1024) : Bool := bitOf (dWord d 0) 9
/-- PIN. -/
def dPin (d : BitVec 1024) : Bool := bitOf (dWord d 0) 10
/-- NOTIFY. -/
def dNotify (d : BitVec 1024) : Bool := bitOf (dWord d 0) 11
/-- SPREAD. -/
def dSpread (d : BitVec 1024) : Nat := fld (dWord d 0) 26 16
/-- WAIT_COUNT. -/
def dWaits (d : BitVec 1024) : Nat := fld (dWord d 0) 28 27
/-- SIGNAL_COUNT. -/
def dSignals (d : BitVec 1024) : Nat := fld (dWord d 0) 30 29
/-- PREDn. -/
def dPred (d : BitVec 1024) (n : Nat) : Nat := fld (dWord d 4) (16 * n + 15) (16 * n)
/-- WAITn_FLAG. -/
def dWaitFlag (d : BitVec 1024) (n : Nat) : Nat := fld (dWord d 8) (16 * n + 15) (16 * n)
/-- WAITn_TARGET. -/
def dWaitTarget (d : BitVec 1024) (n : Nat) : Nat := dWord d (0x0C + 4 * n)
/-- SIGNALn_FLAG. -/
def dSigFlag (d : BitVec 1024) (n : Nat) : Nat := fld (dWord d 0x14) (16 * n + 15) (16 * n)
/-- SIGNALn_ADD. -/
def dSigAdd (d : BitVec 1024) (n : Nat) : Nat := fld (dWord d 0x18) (16 * n + 15) (16 * n)
/-- TRANSIT_MODE. -/
def dTransit (d : BitVec 1024) : Nat := fld (dWord d 0x1C) 31 30
/-- CYCLE_DELTA. -/
def dDelta (d : BitVec 1024) : Nat := fld (dWord d 0x1C) 27 24
/-- NOT_BEFORE. -/
def dNotBefore (d : BitVec 1024) : Nat := fld (dWord d 0x1C) 23 0
/-- DEADLINE. -/
def dDeadline (d : BitVec 1024) : Nat := fld (dWord d 0x20) 23 0
/-- COMPLETION. -/
def dCompletion (d : BitVec 1024) : Nat := dWord d 0x24
/-- LOOPn. -/
def dLoopWord (d : BitVec 1024) (n : Nat) : Nat := dWord d (0x28 + 4 * n)
/-- SHIFTn. -/
def dShift (d : BitVec 1024) (n : Nat) : Nat := fld (dWord d 0x38) (4 * n + 3) (4 * n)
/-- AFFINITY. -/
def dAffinity (d : BitVec 1024) : Nat := fld (dWord d 0x38) 31 16
/-- FWn: FW0 stands before the slots, FW1 to FW4 after them. -/
def dFw (d : BitVec 1024) (n : Nat) : Nat := if n = 0 then dWord d 0x3C else dWord d (0x6C + 4 * n)
/-- SLOTs as a 128-bit number. -/
def dSlot (d : BitVec 1024) (s : Nat) : Nat := fld d.toNat (8 * (0x40 + 16 * s) + 127) (8 * (0x40 + 16 * s))
/-- VIEW of a slot. -/
def sView (d : BitVec 1024) (s : Nat) : Nat := fld (dSlot d s) 15 0
/-- INCn of a slot. -/
def sInc (d : BitVec 1024) (s n : Nat) : Int := sx 24 (fld (dSlot d s) (39 + 24 * n) (16 + 24 * n))
/-- AUX of a slot. -/
def sAux (d : BitVec 1024) (s : Nat) : Nat := fld (dSlot d s) 127 112

/-- View index that names no view. -/
def noView : Nat := 0xFFFF
/-- Record index that names no record. -/
def noRecord : Nat := 0xFFFFFFFF

/-- Families without a loop nest: COUNT, FENCE, BARRIER, TRANSIT (R144). -/
def noLoops (f : Nat) : Bool := f == 6 || f == 7 || f == 8 || f == 9

/-! Loop nests (R144). -/

/-- The count of level `n`: the immediate, or for SRC 1 what `reg` gives for the count register. -/
def levelCount (d : BitVec 1024) (n : Nat) (reg : Nat → Nat) : Nat :=
  let w := dLoopWord d n
  if bitOf w 31 then reg (fld w 3 0) else fld w 30 0

/-- The counts of the four levels with the registers' values; 1 each where the family has no loop nest. -/
def loopCounts (d : BitVec 1024) (reg : Nat → Nat) : List Nat :=
  if noLoops (dFamily d) then [1, 1, 1, 1] else (List.range 4).map fun n => levelCount d n reg

/-- The counts with every count-register level at its MAX (R145). -/
def maxCounts (d : BitVec 1024) : List Nat :=
  if noLoops (dFamily d) then [1, 1, 1, 1] else
  (List.range 4).map fun n => let w := dLoopWord d n; if bitOf w 31 then fld w 30 8 else fld w 30 0

/-- Iterations in all. -/
def iterCount (c : List Nat) : Nat := c.foldl (· * ·) 1

/-- The loop indices of the iteration numbered `t`, level 0 innermost. -/
def iterIndex : List Nat → Nat → List Nat
  | [], _ => []
  | c :: cs, t => if c = 0 then 0 :: iterIndex cs 0 else t % c :: iterIndex cs (t / c)

/-- The 64-bit signed value of an integer. -/
def wrap64 (x : Int) : Int := sx 64 (intBits 64 x)

/-- The loop offset of a slot in an iteration, in 64-bit signed arithmetic. -/
def loopOffset (d : BitVec 1024) (s : Nat) (idx : List Nat) : Int :=
  wrap64 ((idx.mapIdx fun n (i : Nat) => (i : Int) * sInc d s n * 2 ^ dShift d n).foldl (· + ·) 0)

/-- The loop offset of a slot at linear iteration `t`. -/
def offsetAt (d : BitVec 1024) (s : Nat) (counts : List Nat) (t : Nat) : Int := loopOffset d s (iterIndex counts t)

/-! Elements. -/

/-- PLT_FT_USER's width for a user format code 0xB to 0xF (R352), in bits. -/
def userWidth (ftUser code : Nat) : Nat :=
  match fld ftUser (2 * (code - 11) + 23) (2 * (code - 11) + 22) with
  | 0 => 4 | 1 => 8 | 2 => 16 | _ => 32

/-- Bits of one element of a view; `user` gives the width of a user format. -/
def viewBits (user : Nat → Nat) (v : BitVec 256) : Nat :=
  match vKind v with
  | 0 => if 10 < vFmt v then user (vFmt v) else fmtBits (vFmt v)
  | 1 => 32
  | _ => 8

/-- The element index of view element (r, c) under loop offset `o` (R135). -/
def elemIndex (v : BitVec 256) (o : Int) (r c : Nat) : Int := vBase v + o + r * vPitch v + c

/-- The first byte of element `e` of `w` bits (R135): a whole number of bytes, the half byte of R47, or the byte of the
3-byte group where its 6 bits begin. -/
def elemLo (w : Nat) (e : Nat) : Nat := w * e / 8
/-- The last byte of element `e`. -/
def elemHi (w : Nat) (e : Nat) : Nat := (w * e + w - 1) / 8

/-- The companion byte of element `e`'s scale (R136). -/
def scaleByteAt (v : BitVec 256) (e : Nat) : Nat :=
  let p := vPitch v
  if vKAxis v then e / p / 32 * p + e % p else e / p * ceilDiv p 32 + e % p / 32

/-- Semirings (R90): the compare-selects. -/
def isCmp (sem : Nat) : Bool := sem == 5 || sem == 6

end Sys2Proof.Machine
end

