-- ==== Sys2Proof/Machine/Sha.lean ====
section
/-!
DEFINITION. The digests the manual names: SHA-512 and SHA-512/256 (FIPS 180-4), CRC-32C, MGF1 and the verification of an
RSASSA-PSS signature (RFC 8017), all over lists of octets.
-/
namespace Sys2Proof.Machine
open Sys2Proof

/-! The constants (FIPS 180-4, 4.2.3 and 5.3.5): 64 bits after the binary point of roots of the first primes. -/

/-- The largest `r` with r^e ≤ n, found bit by bit: `r` holds the bits above bit `k` already. -/
def rootBits (e n : Nat) : Nat → Nat → Nat
  | 0, r => r
  | k + 1, r => rootBits e n k (if (r + 2 ^ k) ^ e ≤ n then r + 2 ^ k else r)

/-- The first 64 bits after the point of the `e`th root of `p`. -/
def rootFraction (e p : Nat) : BitVec 64 := BitVec.ofNat 64 (rootBits e (p * 2 ^ (64 * e)) 72 0)

/-- The 80 primes below 410. -/
def shaPrimes : List Nat := (List.range 410).filter fun p => decide (1 < p) && (List.range p).all fun d => decide (d < 2) || p % d != 0

/-- The constant of each of the 80 rounds. -/
def roundKeys : List (BitVec 64) := shaPrimes.map (rootFraction 3)

/-- The eight working variables a to h. -/
structure ShaVars where
  a : BitVec 64
  b : BitVec 64
  c : BitVec 64
  d : BitVec 64
  e : BitVec 64
  f : BitVec 64
  g : BitVec 64
  h : BitVec 64
  deriving DecidableEq, Repr

/-- Eight words as the variables. -/
def ShaVars.ofWords (w : Nat → BitVec 64) : ShaVars := ⟨w 0, w 1, w 2, w 3, w 4, w 5, w 6, w 7⟩

/-- The words in order. -/
def ShaVars.words (v : ShaVars) : List (BitVec 64) := [v.a, v.b, v.c, v.d, v.e, v.f, v.g, v.h]

/-- Two states added word by word. -/
def ShaVars.plus (v w : ShaVars) : ShaVars :=
  ⟨v.a + w.a, v.b + w.b, v.c + w.c, v.d + w.d, v.e + w.e, v.f + w.f, v.g + w.g, v.h + w.h⟩

/-- The first hash value of SHA-512. -/
def firstHash : ShaVars := ShaVars.ofWords fun i => rootFraction 2 (shaPrimes.getD i 0)

/-- The exclusive or of a word turned right by each of some counts. -/
def turns (x : BitVec 64) (l : List Nat) : BitVec 64 := l.foldl (fun r n => r ^^^ x.rotateRight n) 0

/-- Octets as a number, the first the most significant. -/
def beNat (l : List Byte) : Nat := l.foldl (fun x b => 256 * x + b.toNat) 0

/-- `n` octets of a number, the most significant first. -/
def beBytes (n v : Nat) : List Byte := (leBytes n v).reverse

/-- The next word of a message schedule whose last 16 words are `w`, oldest first. -/
def nextWord (w : List (BitVec 64)) : BitVec 64 :=
  let old := w.getD 1 0
  let new := w.getD 14 0
  (turns new [19, 61] ^^^ (new >>> 6)) + w.getD 9 0 + (turns old [1, 8] ^^^ (old >>> 7)) + w.getD 0 0

/-- One round with its constant and word: choose is `g` where `e` has 0 and `f` where it has 1; majority is the bit that
two of `a`, `b` and `c` share. -/
def shaStep (v : ShaVars) (key word : BitVec 64) : ShaVars :=
  let choose := v.g ^^^ (v.e &&& (v.f ^^^ v.g))
  let majority := (v.a &&& (v.b ||| v.c)) ||| (v.b &&& v.c)
  let mixed := key + word + choose + turns v.e [14, 18, 41] + v.h
  { v with a := mixed + majority + turns v.a [28, 34, 39], b := v.a, c := v.b, d := v.c, e := v.d + mixed, f := v.e, g := v.f,
           h := v.g }

/-- The rounds from the next constant on; the oldest word of the window is the round's own. -/
def shaRounds : List (BitVec 64) → List (BitVec 64) → ShaVars → ShaVars
  | [], _, v => v
  | key :: keys, w, v => shaRounds keys (w.drop 1 ++ [nextWord w]) (shaStep v key (w.getD 0 0))

/-- One block of 128 octets taken into the hash. -/
def shaAbsorb (v : ShaVars) (blk : List Byte) : ShaVars :=
  v.plus (shaRounds roundKeys ((List.range 16).map fun i => BitVec.ofNat 64 (beNat ((blk.drop (8 * i)).take 8))) v)

/-- A message with its end mark and its length in bits, filled with zeros to whole blocks. -/
def shaPadded (m : List Byte) : List Byte :=
  m ++ 0x80#8 :: List.replicate ((239 - m.length % 128) % 128) 0#8 ++ beBytes 16 (8 * m.length)

/-- The 64 octets of the hash of a message from a first hash value. -/
def shaRun (first : ShaVars) (m : List Byte) : List Byte :=
  let l := shaPadded m
  let last := (List.range (l.length / 128)).foldl (fun v i => shaAbsorb v ((l.drop (128 * i)).take 128)) first
  last.words.flatMap fun x => beBytes 8 x.toNat

/-- The first hash value of SHA-512/256 (FIPS 180-4, 5.3.6): the digest of its name under SHA-512's first value with every
octet changed by 0xA5. -/
def firstHash256 : ShaVars :=
  let odd := ShaVars.ofWords fun i => firstHash.words.getD i 0 ^^^ 0xA5A5A5A5A5A5A5A5
  let l := shaRun odd ("SHA-512/256".toList.map fun c => BitVec.ofNat 8 c.toNat)
  ShaVars.ofWords fun i => BitVec.ofNat 64 (beNat ((l.drop (8 * i)).take 8))

/-- SHA-512. -/
def sha512 (m : List Byte) : List Byte := shaRun firstHash m

/-- SHA-512/256, the H of the tally chapter. -/
def sha512t (m : List Byte) : List Byte := (shaRun firstHash256 m).take 32

/-- One octet of CRC-32C (Castagnoli, reflected polynomial 0x82F63B78). -/
def crcByte (c : Nat) (b : Byte) : Nat :=
  (List.range 8).foldl (fun x _ => if x % 2 = 1 then (x / 2) ^^^ 0x82F63B78 else x / 2) (c ^^^ b.toNat)

/-- CRC-32C. -/
def crc32c (m : List Byte) : Nat := (m.foldl crcByte 0xFFFFFFFF) ^^^ 0xFFFFFFFF

/-- x^e mod m by squaring over the bits of `e`, lowest first. -/
def powMod (m : Nat) : Nat → Nat → Nat → Nat
  | 0, _, _ => 1 % m
  | n + 1, x, e =>
    let r := powMod m n (x * x % m) (e / 2)
    if e % 2 = 1 then r * x % m else r

/-- MGF1 with SHA-512: `n` octets of mask. -/
def mgf1 (seed : List Byte) (n : Nat) : List Byte :=
  ((List.range (n / 64 + 1)).flatMap fun i => sha512 (seed ++ beBytes 4 i)).take n

/-- Octets exclusive-ORed. -/
def xorBytes (a b : List Byte) : List Byte := List.zipWith (· ^^^ ·) a b

/-- EMSA-PSS verification (RFC 8017 section 9.1.2) of the digest `mHash` in an encoded message of 512 octets whose top bit
is unused, with SHA-512, MGF1 with SHA-512 and a salt of 64 octets. -/
def pssCheck (mHash em : List Byte) : Bool :=
  let db := em.take 447
  let h := (em.drop 447).take 64
  let raw := xorBytes db (mgf1 h 447)
  let clean := match raw with
    | b :: t => (b &&& 0x7F#8) :: t
    | [] => []
  let ps := clean.take 382
  let salt := clean.drop 383
  em.length == 512 && (em.drop 511) == [0xBC#8] && (em.headD 0).toNat < 128 && ps.all (· == 0) &&
    (clean.drop 382).headD 0 == 1#8 && h == sha512 (List.replicate 8 0 ++ mHash ++ salt)

/-- RSASSA-PSS verification under a 4,096-bit modulus and the public exponent 65,537. -/
def rsaVerify (modulus : Nat) (msg sig : List Byte) : Bool :=
  let s := beNat sig
  sig.length == 512 && decide (s < modulus) && pssCheck (sha512 msg) (beBytes 512 (powMod modulus 17 s 65537))

end Sys2Proof.Machine
end

