-- ==== Sys2Proof/Machine/RegRead.lean ====
section
/-!
DEFINITION. What a register reads: stored words, and the registers that show other state (the meridian count, stream and
almanac states, barrier counts, group members, sequence contexts, keys and the Vernier).
-/
namespace Sys2Proof.Machine
open Sys2Proof

/-- Phase of tick `i` of `t` ticks (R316). -/
def tickPhase (t i : Nat) : Nat := if t = 0 then 0 else i * 2 ^ 24 / t

/-- MTR_CFG.TICKS. -/
def mtrTicks (s : State) : Nat := getf s Reg.mtrCfg 24 0

/-- MTR_STATUS.STATE (R318): 0 off, 1 acquiring, 2 locked, 3 lost. -/
def mtrState (s : State) : Nat := getf s Reg.mtrStatus 31 29

/-- The phase at the present core cycle (R316, R317). -/
def mtrPhase (s : State) : Nat :=
  let m := s.meridian
  if m.running then
    match m.d with
    | some d =>
      if d = 0 then m.phase else
      let lo := tickPhase (mtrTicks s) m.tick
      let hi := tickPhase (mtrTicks s) (m.tick + 1)
      max m.phase (min (lo + (s.cycle - m.tickCycle) * (hi - lo) / d) (hi - 1))
    | none => m.phase
  else m.phase

/-- The meridian count: cycle number in [63:24], phase in [23:0] (R315). -/
def mtrCount (s : State) : Nat := s.meridian.cycleNo % 2 ^ 40 * 2 ^ 24 + mtrPhase s

/-- The count as records and stamps carry it: all ones while the meridian is not locked (R318). -/
def mtrStamp (s : State) : Nat := if mtrState s = 2 then mtrCount s else 2 ^ 64 - 1

/-- Core cycles in a millisecond (R2: 0.8 ns each). -/
def msCycles : Nat := 1250000

/-- Milliseconds left in the presence window (R453). -/
def presenceRemain (s : State) : Nat :=
  match s.mgmt.presence with
  | some (_, at_, _) => 30000 - min 30000 ((s.cycle - at_) / msCycles)
  | none => 0

/-- DOME_PRESENCE. -/
def readPresence (s : State) : Nat :=
  let w := (getReg s Reg.presence).toNat
  match s.mgmt.presence with
  | some (op, _, _) => putFld (putFld (putFld w 30 30 1) 23 16 op) 15 0 (presenceRemain s)
  | none => putFld (putFld (putFld w 30 30 0) 23 16 0) 15 0 0

/-- Stream context `x` of a tile. -/
def Tile.getCtx (t : Tile) (x : Nat) : StmCtx := smGet StmCtx.reset x t.stm

/-- Contexts armed or held by threads (TILE_SEQ_STATUS). -/
def tileContexts (t : Tile) : Nat :=
  t.threads.foldl (fun x p => x + p.2) 0 + (t.stm.filter fun p => p.2.active.isSome).length

/-- TILE_STM_STATE of the selected context. -/
def readStmState (s : State) (t : Nat) : Nat :=
  let x := getf s (tileR t 0x408) 5 0
  let c := (getTile s t).getCtx x
  let st := match c.active with
    | some a => if a.ended then 2 else 1
    | none => 0
  let sq := match c.active with
    | some a => a.seq
    | none => c.seq
  putFld (putFld (putFld (putFld 0 31 30 st) 29 29 (b2n c.shadow.isSome)) 28 28
    (b2n (decide (x < getf s (tileR t 0x404) 6 0)))) 15 0 sq

/-- ALM_STATUS: STATE computed, LAST_CODE stored. -/
def readAlmStatus (s : State) (a : Nat) : Nat :=
  let al := getAlm s a
  let st := if al.halted then 3
    else if !getb s (almR a 0x10) 31 then 0
    else if al.subs.any (fun x => !x.finished) || getReg s (almR a 0x08) != getReg s (almR a 0x0C) then 2 else 1
  putFld (getReg s (almR a 0x1C)).toNat 31 30 st

/-- ALM_BAR_STATEb. -/
def readBarState (s : State) (b : Nat) : Nat :=
  let x := getBar s b
  putFld (putFld (putFld 0 31 31 (x.phase % 2)) 30 30 (b2n (!x.held.isEmpty))) 16 0 x.count

/-- KIND and ID of a flag's last setter, bits [29:0] of ALM_FLAG_SETTER. -/
def setterWord (s : State) (f : Nat) : Nat :=
  match smGet Setter.none f s.setters with
  | .none => 0
  | .descriptor a i => 1 * 2 ^ 28 + a.toNat * 2 ^ 20 + i.toNat
  | .arming t x => 2 * 2 ^ 28 + t.val * 2 ^ 16 + x.toNat
  | .host fn => 3 * 2 ^ 28 + fn.val

/-- Tiles of a group (R189, R482). -/
def groupTilesOf (s : State) (g : Nat) : List Nat := smGet [] g s.groupTiles

/-- CMN_GROUP_MEMBERS. -/
def readMembers (s : State) : Nat :=
  let g := getf s 0x608C00 15 8
  let w := getf s 0x608C00 5 0
  if g = 0 ∨ 35 < w ∨ !getb s (groupR g) 31 then 0
  else (groupTilesOf s g).foldl (fun x t => if t / 32 = w then putFld x (t % 32) (t % 32) 1 else x) 0

/-- A sequence context, where it is live. -/
def findSeq (s : State) (c : Nat) : Option SeqCtx := (s.seqs.find? fun p => p.1 == c).map (·.2)

/-- CMN_SEQc. -/
def readSeq (s : State) (c : Nat) : Nat :=
  match findSeq s c with
  | some q => 2 ^ 63 + q.positions * 2 ^ 32 + ceilDiv (q.rows * (q.dims + 2) * 4) 1024
  | none => 0

/-- FLT_PROPOSAL: the oldest pending proposal. -/
def readProposal (s : State) : Nat :=
  match s.fallow.proposals with
  | p :: _ => p.id * 2 ^ 32 + p.kind * 2 ^ 28 + p.cause * 2 ^ 24 + p.target
  | [] => 0

/-- The modulus in a key slot, where it holds one (R390). -/
def findKey (s : State) (k : Nat) : Option Nat := (s.cfg.keys.find? fun p => p.1 == k).map (·.2)

/-- CFG_KEYk: VALID and the first 7 digest bytes. -/
def readKey (s : State) (k : Nat) : Nat :=
  match findKey s k with
  | some m => 2 ^ 63 + leNat ((sha512 (beBytes 512 m)).take 7)
  | none => 0

/-- The energy register in mJ (R437). -/
def vrnEnergy (s : State) : Nat := s.vrn.joules / 10 ^ 15 % 2 ^ 64

/-- The oldest stored interval (R443): the store holds 2,097,152 records. -/
def vrnOldest (s : State) : Nat := s.vrn.nextInterval - min s.vrn.nextInterval 2097152

/-- A Vernier register that shows other state. -/
def readVrn (s : State) (off : Nat) : Option Nat :=
  let half := fun (v : Nat) => if off % 8 = 0 then v % 2 ^ 32 else v / 2 ^ 32
  if off = 0x700008 ∨ off = 0x70000C then some (half (vrnEnergy s))
  else if off = 0x700010 ∨ off = 0x700014 then some (half (s.vrn.nextInterval - 1))
  else if off = 0x700018 ∨ off = 0x70001C then some (half (vrnOldest s))
  else if 0x701000 ≤ off ∧ off < 0x701200 then
    some (leNat ((List.range 4).map fun i => Config.vernierModulus (off - 0x701000 + i)))
  else if 0x702000 ≤ off ∧ off < 0x703000 then
    some (leNat ((List.range 4).map fun i => Config.vernierCert (off - 0x702000 + i)))
  else if 0x704000 ≤ off ∧ off < 0x704300 then
    match s.vrn.records with
    | r :: _ => some (leNat ((r.drop (off - 0x704000)).take 4))
    | [] => some 0
  else none

/-- A tile-window register that shows other state. -/
def readTile (s : State) (t k : Nat) : Option Nat :=
  if k = 0x400 then
    let x := getTile s t
    some (x.threads.length * 2 ^ 16 + tileContexts x)
  else if k = 0x40C then some (readStmState s t)
  else if k = 0x808 ∨ k = 0x80C then
    let e := smGet 0 (getf s (tileR t 0x800) 5 0) (getTile s t).routes
    some (if k = 0x808 then e % 2 ^ 32 else e / 2 ^ 32)
  else none

/-- LNK_FEC_STATUS: RUNNING and PC from the core, SAT and LAST_CYCLES stored. -/
def readFecStatus (s : State) (p : Nat) : Nat :=
  let c := (getPort s p).core
  putFld (putFld (getReg s (lnkR p 0x104)).toNat 31 31 (b2n c.running)) 27 16 c.pc

/-- The registers of BAR0 that show other state, by offset. -/
def readShown (s : State) (off : Nat) : Option Nat :=
  if 0x400 ≤ off ∧ off < 0x490 then
    let c := (off - 0x400) / 4
    some ((List.range 32).foldl (fun x r => if tileIrq s (32 * c + r) then x + 2 ^ r else x) 0)
  else if off = Reg.presence then some (readPresence s)
  else if 0x1000000 ≤ off ∧ off < 0x1480000 then readTile s ((off - 0x1000000) / 0x1000) (off % 0x1000)
  else if 0x2000000 ≤ off ∧ off < 0x2100000 then
    (if off % 0x1000 = 0x1C then some (readAlmStatus s ((off - 0x2000000) / 0x1000)) else none)
  else if 0x2180000 ≤ off ∧ off < 0x2181000 then
    let b := (off - 0x2180000) / 16
    (if off % 16 = 4 then some (readBarState s b)
     else if off % 16 = 8 then some ((getBar s b).released % 2 ^ 32) else none)
  else if 0x300000 ≤ off ∧ off < 0x380000 ∧ off % 0x10000 = 0x104 then some (readFecStatus s ((off - 0x300000) / 0x10000))
  else if off = 0x2181104 then some (setterWord s (getf s 0x2181100 15 0))
  else if 0x608404 ≤ off ∧ off < 0x608800 then
    let g := (off - 0x608400) / 4
    some (putFld (getReg s off).toNat 29 29 (b2n (s.groupHeld.any fun p => p.1 == g)))
  else if 0x608800 ≤ off ∧ off < 0x608A00 then
    let v := readSeq s ((off - 0x608800) / 8)
    some (if off % 8 = 0 then v % 2 ^ 32 else v / 2 ^ 32)
  else if off = 0x608C04 then some (readMembers s)
  else if off = 0x400010 then some (mtrCount s % 2 ^ 32)
  else if off = 0x400014 then some (mtrCount s / 2 ^ 32)
  else if 0x200000 ≤ off ∧ off < 0x202000 ∧ off % 0x100 = 4 then
    some (putFld (getReg s off).toNat 27 27 (b2n (!(getPlot s ((off - 0x200000) / 0x100)).accepted.isEmpty)))
  else if 0x100080 ≤ off ∧ off < 0x1000A0 then
    let v := readKey s ((off - 0x100080) / 8)
    some (if off % 8 = 0 then v % 2 ^ 32 else v / 2 ^ 32)
  else if off = Reg.spareStatus then
    some (match s.lpddr.spare with
      | some (_, at_) => putFld (getReg s off).toNat 26 16 (min 1000 ((s.cycle - at_) * 1000 / 5368709120))
      | none => (getReg s off).toNat)
  else if off = 0x800018 then some (readProposal s % 2 ^ 32)
  else if off = 0x80001C then some (readProposal s / 2 ^ 32)
  else if 0x700000 ≤ off ∧ off < 0x710000 then readVrn s off
  else none

/-- What a 32-bit read of a BAR0 register word answers, whoever may read it: the shown state, or the stored word; an
offset that no register occupies reads 0 (R3, R325, R479). -/
def readReg (s : State) (off : Nat) : Word :=
  match readShown s off with
  | some v => BitVec.ofNat 32 v
  | none => if (findRow regRows off).isSome then getReg s off else 0

/-- One byte of BAR0. -/
def readRegByte (s : State) (off : Nat) : Byte := BitVec.ofNat 8 ((readReg s (off / 4 * 4)).toNat / 2 ^ (8 * (off % 4)))

end Sys2Proof.Machine
end

