-- ==== Sys2Proof/Machine/Handles.lean ====
section
/-!
DEFINITION. Buffers behind handles (R269 to R273): looking a handle up, who may use it, the bytes it names, where its
pages lie (R165) and which of them are lost (R282).
-/
namespace Sys2Proof.Machine
open Sys2Proof

/-- The module's own POOL_ID. -/
def ownId (s : State) : Nat := getf s Reg.straps 5 0

/-- A live handle. -/
def findHandle (s : State) (id : Nat) : Option Handle := if id = 0 then none else s.handles.find? fun h => h.id == id

/-- A handle changed. -/
def modHandle (s : State) (id : Nat) (f : Handle → Handle) : State :=
  { s with handles := s.handles.map fun h => if h.id = id then f h else h }

/-- The handle is open to a function (R272). -/
def handleOpen (fn : Nat) (h : Handle) : Bool := fn == 0 || h.access.testBit (fn - 1)

/-- A live handle open to a function. -/
def openHandle (s : State) (fn id : Nat) : Option Handle :=
  match findHandle s id with
  | some h => if handleOpen fn h then some h else none
  | none => none

/-- Size of a handle's buffer; 0 where it is not live. -/
def handleSize (s : State) (id : Nat) : Nat := match findHandle s id with | some h => h.size | none => 0

/-- A window handle: KIND 0b01 or 0b10 (R273). -/
def isWindow (h : Handle) : Bool := h.kind != 0

/-- Where byte `off` of handle `id` lies in `State.mem`. -/
def memKey (id off : Nat) : Nat := id * 2 ^ 44 + off

/-- Bytes of a page (R165). -/
def pageBytes : Nat := 65536

/-- Pages of a buffer of a size. -/
def pagesOf (size : Nat) : Nat := ceilDiv size pageBytes

/-- Where a page's entry lies in `State.places`. -/
def pageKey (id page : Nat) : Nat := id * 2 ^ 28 + page

/-- The entry of a page that placement has not recorded. -/
def PagePlace.none : PagePlace := ⟨0, 3, 0⟩

/-- Where a page lies; a page not moved since allocation lies where R270 starts it. -/
def placeOf (s : State) (h : Handle) (page : Nat) : PagePlace :=
  let x := smGet PagePlace.none (pageKey h.id page) s.places
  if x.tier = 3 then ⟨h.home, min h.tier 2, 0⟩ else x

/-- A page's place set. -/
def setPlace (s : State) (id page : Nat) (p : PagePlace) : State :=
  { s with places := smSet PagePlace.none (pageKey id page) p s.places }

/-- Pages of a handle that still hold data. -/
def livePages (h : Handle) : List Nat := (List.range (pagesOf h.size)).filter fun j => !h.lost.contains j

/-- A page is being copied to another place (R196). -/
def copying (s : State) (id page : Nat) : Bool := s.copies.any fun c => c.handle == id && c.page == page

/-- Byte `off` lies in a lost page (R282). -/
def byteLost (h : Handle) (off : Nat) : Bool := h.lost.contains (off / pageBytes)

/-- Some byte of a range lies in a lost page. -/
def rangeLost (h : Handle) (lo hi : Nat) : Bool := h.lost.any fun p => decide (lo / pageBytes ≤ p ∧ p ≤ hi / pageBytes)

/-- Modules that hold pages of a range. -/
def rangeModules (s : State) (h : Handle) (lo hi : Nat) : List Nat :=
  if isWindow h then [h.home] else
  ((List.range (hi / pageBytes + 1 - lo / pageBytes)).map fun i => (placeOf s h (lo / pageBytes + i)).module).eraseDups

/-- A byte read through a handle: memory, a plot's address window, or a BAR0 register (R273). -/
def handleByte (s : State) (h : Handle) (off : Nat) : Byte :=
  if h.kind = 0 then rdByte s.mem (memKey h.id off)
  else if h.home ≠ ownId s then Config.remoteByte h.id s.free off
  else if h.kind = 1 then Config.plotByte h.plot s.free (h.winOffset + off)
  else readRegByte s (h.winOffset + off)

/-- `n` bytes read through a handle. -/
def handleBytes (s : State) (h : Handle) (off n : Nat) : List Byte :=
  if h.kind = 0 then rdBytes s.mem (memKey h.id off) n else (List.range n).map fun i => handleByte s h (off + i)

/-- `n` bytes of a handle as one little-endian number; 0 for a handle that is not live. -/
def handleNat (s : State) (id off n : Nat) : Nat :=
  match findHandle s id with
  | some h => leNat (handleBytes s h off n)
  | none => 0

/-- The modules of a written range noted, for the next pool-scope FENCE (R214). -/
def noteWritten (s : State) (h : Handle) (off n : Nat) : State :=
  if n = 0 then s else
  let ms := (rangeModules s h off (off + n - 1)).filter (· != ownId s)
  if ms = [] then s else
  { s with pool := { s.pool with
    written := (s.pool.written.filter fun p => !ms.contains p.1) ++ ms.map fun m => (m, s.pool.writeNo),
    writeNo := s.pool.writeNo + 1 } }

/-- Every byte of a granule that lies within the buffer is in a range (R402). -/
def wholeGranule (h : Handle) (off n g : Nat) : Bool := decide (off ≤ 64 * g) && decide (min (64 * g + 64) h.size ≤ off + n)

/-- Bytes stored into a memory buffer; a granule written whole holds no uncorrectable error any more (R402). -/
def memWrite (s : State) (h : Handle) (off : Nat) (bs : List Byte) : State :=
  let keep := s.lpddr.badGranules.filter fun g => !(g.1 == h.id && wholeGranule h off bs.length g.2)
  let s := { s with mem := wrBytes s.mem (memKey h.id off) bs, lpddr := { s.lpddr with badGranules := keep } }
  noteWritten s h off bs.length

/-- The first uncorrectable granule of a range of a buffer. -/
def badGranule (s : State) (id lo n : Nat) : Option Nat :=
  if n = 0 then none
  else (s.lpddr.badGranules.find? fun g => g.1 == id && decide (lo / 64 ≤ g.2) && decide (g.2 ≤ (lo + n - 1) / 64)).map (·.2)

/-- The first uncorrectable granule that a write of a range would change in part (R402). -/
def badPart (s : State) (h : Handle) (lo n : Nat) : Option Nat :=
  if n = 0 then none
  else (s.lpddr.badGranules.find? fun g =>
    g.1 == h.id && decide (lo / 64 ≤ g.2) && decide (g.2 ≤ (lo + n - 1) / 64) && !wholeGranule h lo n g.2).map (·.2)

/-- Bytes of a live memory buffer stored by handle number; a window handle, a dead one or bytes past the end take
nothing. -/
def bufWrite (s : State) (id off : Nat) (bs : List Byte) : State :=
  match findHandle s id with
  | some h => if h.kind = 0 ∧ off + bs.length ≤ h.size then memWrite s h off bs else s
  | none => s

end Sys2Proof.Machine
end

