-- ==== Sys2Proof/Machine/Signals.lean ====
section
/-!
DEFINITION. Flags and the waits on them (R210 to R213, R223): finding a descriptor's run, changing a flag, registering a
wait and evaluating it.
-/
namespace Sys2Proof.Machine
open Sys2Proof

/-! Runs of descriptors. -/

/-- Every run of an almanac mapped, with its submission's ring count, index and descriptor. -/
def Alm.mapRuns (f : Nat → Nat → BitVec 1024 → Run → Run) (al : Alm) : Alm :=
  { al with subs := al.subs.map fun sb =>
      { sb with runs := (sb.descs.zip sb.runs).mapIdx fun i p => f sb.pos i p.1 p.2 } }

/-- Every run of the module mapped. -/
def mapRuns (f : Nat → Nat → Nat → BitVec 1024 → Run → Run) (s : State) : State :=
  { s with alms := s.alms.map fun p => (p.1, p.2.mapRuns (f p.1)) }

/-- A submission. -/
def findSub (s : State) (a pos : Nat) : Option Sub := (getAlm s a).subs.find? fun x => x.pos == pos

/-- A descriptor of a live submission with its submission, its 128 bytes as validated, and its run. -/
def findDesc (s : State) (d : DescRef) : Option (Sub × BitVec 1024 × Run) :=
  match findSub s d.alm.toNat d.pos.toNat with
  | some sb => match sb.descs[d.idx.toNat]?, sb.runs[d.idx.toNat]? with
    | some x, some r => some (sb, x, r)
    | _, _ => none
  | none => none

/-- A descriptor's run changed. -/
def modRun (s : State) (d : DescRef) (f : Run → Run) : State :=
  setAlm s d.alm.toNat ((getAlm s d.alm.toNat).mapRuns fun pos i _ r =>
    if pos = d.pos.toNat ∧ i = d.idx.toNat then f r else r)

/-! Waits. -/

/-- A flag's value. -/
def flagVal (s : State) (f : Nat) : Nat := (getReg s (flagR f)).toNat

/-- A wait with target `t` holds on value `v` (R211). -/
def waitMet (v t : Nat) : Bool := decide ((v + 2 ^ 32 - t % 2 ^ 32) % 2 ^ 32 < 2 ^ 31)

/-- Wait `n` of a run has held. -/
def Run.held (r : Run) (n : Nat) : Bool := if n = 0 then r.wait0.isSome else r.wait1.isSome
/-- The core cycle in which wait `n` of a run held. -/
def Run.heldAt (r : Run) (n : Nat) : Option Nat := if n = 0 then r.wait0 else r.wait1
/-- Wait `n` of a run is registered at its flag's unit. -/
def Run.regd (r : Run) (n : Nat) : Bool := if n = 0 then r.reg0 else r.reg1
/-- Wait `n` set as held in a core cycle, or as not held. -/
def Run.setHeld (r : Run) (n : Nat) (c : Option Nat) : Run := if n = 0 then { r with wait0 := c } else { r with wait1 := c }
/-- Wait `n` set as registered. -/
def Run.setRegd (r : Run) (n : Nat) : Run := if n = 0 then { r with reg0 := true } else { r with reg1 := true }

/-- Every wait of the descriptor has held. -/
def waitsHeld (d : BitVec 1024) (r : Run) : Bool := (List.range (dWaits d)).all fun n => r.held n

/-- The flag unit (die) of a flag (R210). -/
def flagUnit (f : Nat) : Nat := f / 0x4000

/-- Registered waits of a flag unit that have not held (R223). -/
def unitWaits (s : State) (u : Nat) : Nat :=
  s.alms.foldl (fun x p => p.2.subs.foldl (fun x sb => (sb.descs.zip sb.runs).foldl (fun x q =>
    x + ((List.range (dWaits q.1)).filter fun n =>
      q.2.phase == .waiting && q.2.regd n && !q.2.held n && flagUnit (dWaitFlag q.1 n) == u).length) x) x) 0

/-- Waits that a flag unit holds (R223). -/
def unitCapacity : Nat := 8192

/-- A run whose predecessors and waits are all met takes its ready time: the core cycle and, while the meridian is
locked, the meridian cycle number (R142, R320). -/
def markReady (now : Nat) (mc : Option Nat) (d : BitVec 1024) (r : Run) : Run :=
  if r.phase = .waiting ∧ r.armed ∧ waitsHeld d r ∧ r.ready = none then
    { r with ready := some now, readyCycle := mc }
  else r

/-- The meridian cycle number while locked. -/
def lockedCycle (s : State) : Option Nat := if mtrState s = 2 then some s.meridian.cycleNo else none

/-- One registered wait evaluated on its flag's value in core cycle `now` (R211, R212): once it has held it stays held, but
what it made of an intermediate value of the same cycle does not count. -/
def evalWait (now v : Nat) (d : BitVec 1024) (r : Run) (n : Nat) : Run :=
  if waitMet v (dWaitTarget d n) then (if r.held n then r else r.setHeld n (some now))
  else if r.heldAt n = some now then { r.setHeld n none with ready := none, readyCycle := none }
  else r

/-- Registered waits on flag `f` evaluated on its value (R211, R212). -/
def evalFlag (s : State) (f : Nat) : State :=
  let v := flagVal s f
  mapRuns (fun _ _ _ d r =>
    let one := fun (r : Run) n =>
      if n < dWaits d ∧ r.phase = .waiting ∧ r.regd n ∧ dWaitFlag d n = f then evalWait s.cycle v d r n else r
    markReady s.cycle (lockedCycle s) d (one (one r 0) 1)) s

/-- One wait of a descriptor registered, unless its unit is full, and evaluated (R211, R223). -/
def registerWait (s : State) (d : DescRef) (n : Nat) : State :=
  match findDesc s d with
  | some (_, x, r) =>
    if dWaits x ≤ n ∨ r.regd n ∨ unitCapacity ≤ unitWaits s (flagUnit (dWaitFlag x n)) then s
    else
      let v := flagVal s (dWaitFlag x n)
      let now := s.cycle
      modRun s d fun r => evalWait now v x (r.setRegd n) n
  | none => s

/-- A descriptor whose predecessors have completed: its waits are registered. -/
def armRun (s : State) (d : DescRef) : State :=
  let s := modRun s d fun r => { r with armed := true }
  let s := registerWait (registerWait s d 0) d 1
  match findDesc s d with
  | some (_, x, _) => modRun s d (markReady s.cycle (lockedCycle s) x)
  | none => s

/-! Flags. -/

/-- A flag's new value with its setter, and its waits evaluated. -/
def putFlag (s : State) (f v : Nat) (by_ : Setter) : State :=
  let s := setReg s (flagR f) (BitVec.ofNat 32 v)
  evalFlag { s with setters := smSet Setter.none f by_ s.setters } f

/-- The sum of the additions that a flag has had in this core cycle, once it has had one. -/
def addedNow (s : State) (f : Nat) : Option Nat := (s.flagAdds.find? fun e => e.1 == f).map (·.2)

/-- Additions noted, so that a host write of the same cycle comes before them (R212). -/
def noteAdds (s : State) (f amount : Nat) : State :=
  { s with flagAdds := smInsert f (((addedNow s f).getD 0 + amount) % 2 ^ 32) (smErase f s.flagAdds) }

/-- An addition to a flag, modulo 2^32 (R211); an addition of 0 adds nothing. -/
def addFlag (s : State) (f amount : Nat) (by_ : Setter) : State :=
  if amount % 2 ^ 32 = 0 then s else putFlag (noteAdds s f amount) f ((flagVal s f + amount) % 2 ^ 32) by_

/-- A host write of a flag (R211, R212): every addition that the flag has had in this cycle comes after it. -/
def writeFlag (s : State) (f : Nat) (fn : Fn) (w : Word) : State :=
  match addedNow s f with
  | some n => putFlag s f ((w.toNat + n) % 2 ^ 32) (smGet Setter.none f s.setters)
  | none => putFlag s f w.toNat (.host fn)

/-- Changes that reach one flag in one cycle (R212): the host's write, then every addition, then the waits. -/
def flagUpdate (s : State) (f : Nat) (host : Option (Fn × Word)) (adds : List FlagAdd) : State :=
  let s := match host with
    | some (fn, w) => writeFlag s f fn w
    | none => s
  adds.foldl (fun s a => addFlag s f a.amount.toNat a.by_) s

/-- Flag `f` lies in function `fn`'s range (R213). -/
def flagInRange (s : State) (fn f : Nat) : Bool :=
  fn == 0 || (decide (getf s (flagRangeR fn) 15 0 ≤ f) && decide (f ≤ getf s (flagRangeR fn) 31 16))

end Sys2Proof.Machine
end

