-- ==== Sys2Proof/Machine/Policy.lean ====
section
/-!
DEFINITION. Diagnostic addresses (R8) and the fallow policy's triggers and proposals (R466 to R468).
-/
namespace Sys2Proof.Machine
open Sys2Proof

/-- The Commons physical address of a byte (R8): module, tier, and the offset in the tier that the placement engine gave
the page. -/
def physAddr (s : State) (h : Handle) (off : Nat) : Nat :=
  let p := placeOf s h (off / pageBytes)
  p.module % 64 * 2 ^ 50 + p.tier % 4 * 2 ^ 48 + (Config.pageOffset (pageKey h.id (off / pageBytes)) + off % pageBytes) % 2 ^ 48

/-- FLT_POLICY's mode for a kind of unit: 1 tile, 2 package, 3 core, 4 plot, 5 near-store row; 0b11 is taken as 0b01. -/
def policyMode (s : State) (kind : Nat) : Nat :=
  let m := match kind with
    | 1 => getf s Reg.fltPolicy 1 0
    | 2 => getf s Reg.fltPolicy 5 4
    | 3 => getf s Reg.fltPolicy 7 6
    | 4 => getf s Reg.fltPolicy 9 8
    | _ => getf s Reg.fltPolicy 3 2
  if m = 3 then 1 else m

/-- A proposal raised and logged as FALLOW_PROPOSED; with 16 pending the trigger waits (R468). -/
def propose (s : State) (kind target cause : Nat) : State :=
  if s.fallow.proposals.any fun p => p.kind == kind && p.target == target then s
  else if 16 ≤ s.fallow.proposals.length then
    (if s.fallow.waiting.any fun w => w.1 == kind && w.2.1 == target then s
     else { s with fallow := { s.fallow with waiting := s.fallow.waiting ++ [(kind, target, cause)] } })
  else
    let id := s.fallow.nextId
    let s := { s with fallow := { s.fallow with proposals := s.fallow.proposals ++ [⟨id, kind, cause, target⟩],
                                                nextId := id + 1 } }
    logEntry s 0 0x0F10 (kind * 2 ^ 28 + cause * 2 ^ 24 + target) id

/-- A mechanism set off: its row runs it. -/
def setOff (s : State) (kind target cause : Nat) : State :=
  if s.fallow.auto.any fun w => w.1 == kind && w.2.1 == target then s
  else { s with fallow := { s.fallow with auto := s.fallow.auto ++ [(kind, target, cause)] } }

/-- A trigger under the policy (R467): off, a proposal, or the mechanism at once. -/
def trigger (s : State) (kind target cause : Nat) : State :=
  match policyMode s kind with
  | 0 => s
  | 2 => setOff s kind target cause
  | _ => propose s kind target cause

/-- A waiting trigger takes a slot that has become free (R468). -/
def refillProposals (s : State) : State :=
  match s.fallow.waiting with
  | (k, t, c) :: rest =>
    if s.fallow.proposals.length < 16 then propose { s with fallow := { s.fallow with waiting := rest } } k t c else s
  | [] => s

/-- The proposals of a kind and target dropped, and a waiting trigger let in (R468). -/
def dropProposals (s : State) (p : Proposal → Bool) : State :=
  refillProposals { s with fallow := { s.fallow with proposals := s.fallow.proposals.filter fun x => !p x } }

/-- Core cycles in an hour. -/
def hourCycles : Nat := 3600000 * msCycles

end Sys2Proof.Machine
end

