-- ==== Sys2Proof/Machine/Granules.lean ====
section
/-!
DEFINITION. Where a granule of LPDDR6 lies (R399, R403), and what an uncorrectable or corrected one is recorded as (R400,
R401, R466).
-/
namespace Sys2Proof.Machine
open Sys2Proof

/-- MEM_STATUS.STATE: 0 training, 1 initialising, 2 in service, 3 out of service. -/
def memState (s : State) : Nat := getf s Reg.memStatus 31 29

/-- MEM_STATUS.CODE set: the last memory code recorded. -/
def memCode (s : State) (code : Nat) : State := setf s Reg.memStatus 15 0 code

/-- A memory code recorded in the log. -/
def memLog (s : State) (cls code loc det : Nat) : State := memCode (logEntry s cls code loc det) code

/-- Physical package of a logical one (MEM_PKG_MAP). -/
def physPackage (s : State) (l : Nat) : Nat := getf s Reg.pkgMap (4 * l + 3) (4 * l)

/-- A granule's place: subchannel, bank, row and granule within the row. -/
structure GranulePlace where
  sub : Nat
  bank : Nat
  row : Nat
  granule : Nat
  deriving DecidableEq, Repr

/-- The place of the data granule at a tier offset under an ORDER (R399, R403). -/
def granulePlace (order x : Nat) : GranulePlace :=
  let g := x / 64
  let b := g / 15
  let i := g % 15
  if order = 1 then
    let q := b % 2 ^ 27 / 8
    ⟨8 * (b / 2 ^ 27) + b % 8, q % 16, q / 32, 16 * (q / 16 % 2) + i⟩
  else if order = 2 then
    let q := b / 192
    ⟨b / 2 % 96, q % 16, q / 16, 16 * (b % 2) + i⟩
  else
    let q := b / 96
    ⟨b % 96, q % 16, q / 32, 16 * (q / 16 % 2) + i⟩

/-- The place of a byte of a buffer that lies in this module's LPDDR6. -/
def placeOfByte (s : State) (h : Handle) (off : Nat) : GranulePlace :=
  granulePlace (getf s Reg.memStatus 28 27) (physAddr s h off % 2 ^ 48)

/-- A byte of a buffer lies in this module's LPDDR6. -/
def inLpddr (s : State) (h : Handle) (off : Nat) : Bool :=
  h.kind == 0 && (placeOf s h (off / pageBytes)).tier == 2 && (placeOf s h (off / pageBytes)).module == ownId s

/-- A place in MEM_ERR_LAST's layout, VALID with it. -/
def errWord (s : State) (g : GranulePlace) : Nat :=
  2 ^ 63 + physPackage s (g.sub / 8) * 2 ^ 59 + g.sub % 8 / 2 * 2 ^ 57 + g.sub % 2 * 2 ^ 56 + g.bank * 2 ^ 52 +
    g.row * 2 ^ 33 + g.granule * 2 ^ 28

/-- Core cycles in a day. -/
def dayCycles : Nat := 24 * hourCycles

/-- Events of a list still within a span of time, with one more now. -/
def recentEvents (now span : Nat) (l : List Nat) : List Nat := now :: l.filter fun t => decide (now < t + span)

/-- A corrected granule (R400): counted; 1,000 of a package in one hour set off its sparing (R466). -/
def corrected (s : State) (h : Handle) (off : Nat) : State :=
  let g := placeOfByte s h off
  let l := g.sub / 8
  let s := countUp s (pkgErrR (physPackage s l)) 63 32
  let ev := recentEvents s.cycle hourCycles (smGet [] l s.lpddr.corrected)
  let s := { s with lpddr := { s.lpddr with corrected := smSet [] l ev s.lpddr.corrected } }
  if 1000 ≤ ev.length then trigger s 2 l 2 else s

/-- An uncorrectable granule (R401): recorded, counted and latched; 3 of a package in 24 hours set off its sparing. One
that lies in near store has no place in a package. -/
def uncorrectable (s : State) (h : Handle) (off : Nat) : State :=
  let at_ := off / 64 * 64
  if !inLpddr s h at_ then memLog s 3 0x0C03 (physAddr s h at_) 0
  else
    let g := placeOfByte s h at_
    let l := g.sub / 8
    let w := errWord s g
    let s := countUp s (pkgErrR (physPackage s l)) 31 0
    let s := if getb s Reg.memErrLast 63 then s else set64 s Reg.memErrLast w
    let s := memLog s 3 0x0C03 (physAddr s h at_) w
    let ev := recentEvents s.cycle dayCycles (smGet [] l s.lpddr.uncorrected)
    let s := { s with lpddr := { s.lpddr with uncorrected := smSet [] l ev s.lpddr.uncorrected } }
    if 3 ≤ ev.length then trigger s 2 l 2 else s

end Sys2Proof.Machine
end

