-- ==== Sys2Proof/Machine/RegWrite.lean ====
section
/-!
DEFINITION. The plain part of a host register write (R3, R5): RW fields take the written bits, W1C fields lose the bits
written as 1, and everything else keeps its value. Writes with further effects build on these.
-/
namespace Sys2Proof.Machine
open Sys2Proof

/-- The bits of a register word that a write sets, and those that a written 1 clears; none where no register lies. -/
def writeMasks (off : Nat) : Nat × Nat :=
  match findRow regRows off with
  | some (r, _, _, k) => (r.rw >>> (32 * k) % 2 ^ 32, r.w1c >>> (32 * k) % 2 ^ 32)
  | none => (0, 0)

/-- A word after a write of `v` under the masks (R3). -/
def writeMerge (old v : Word) (rw w1c : Nat) : Word :=
  ((old &&& ~~~(BitVec.ofNat 32 rw)) ||| (v &&& BitVec.ofNat 32 rw)) &&& ~~~(v &&& BitVec.ofNat 32 w1c)

/-- The plain part of a 32-bit write. -/
def plainWrite (s : State) (off : Nat) (v : Word) : State :=
  let m := writeMasks off
  setReg s off (writeMerge (getReg s off) v m.1 m.2)

/-- The plain part of a 64-bit write. -/
def plainWrite64 (s : State) (off v : Nat) : State :=
  plainWrite (plainWrite s off (BitVec.ofNat 32 v)) (off + 4) (BitVec.ofNat 32 (v / 2 ^ 32))

end Sys2Proof.Machine
end

