-- ==== Sys2Proof/Machine/Lanes.lean ====
section
/-!
DEFINITION. The instrument lanes (R287 to R299): enabling a link, code group synchronisation, the initial lane alignment
sequence, release, SYSREF, SYNC~, lane faults and the instrument clock.
-/
namespace Sys2Proof.Machine
open Sys2Proof

/-- LNK_RX_CFG, or LNK_TX_CFG. -/
def linkCfgR (p : Nat) (tx : Bool) : Nat := lnkR p (if tx then 8 else 0)

/-- A link's parameters as its configuration register holds them. -/
structure LinkParams where
  lanes : Nat
  m : Nat
  f : Nat
  k : Nat
  n : Nat
  np : Nat
  cs : Nat
  s : Nat
  hd : Bool
  scr : Bool
  lidBase : Nat
  did : Nat
  bid : Nat
  deriving DecidableEq, Repr

/-- The parameters of a port's link (R325). -/
def linkParams (s : State) (p : Nat) (tx : Bool) : LinkParams :=
  let r := linkCfgR p tx
  { lanes := getf s r 43 40, m := getf s r 39 36 + 1, f := getf s r 35 32 + 1, k := getf s r 51 47 + 1,
    n := getf s r 31 28 + 1, np := getf s r 27 24 + 1, cs := getf s r 23 22, s := getf s r 18 16 + 1,
    hd := getb s r 61, scr := getb s r 62, lidBase := getf s r 60 56, did := getf s r 7 0, bid := getf s r 15 8 }

/-- The link is enabled. -/
def linkOn (s : State) (p : Nat) (tx : Bool) : Bool := getb s (linkCfgR p tx) 63

/-- The table of R287 and the further checks of R289. -/
def paramsOk (s : State) (p : Nat) (tx : Bool) : Bool :=
  let c := linkParams s p tx
  let khz := getf s Reg.instclk 19 0
  let num := getf s (lnkR p 0x10) 31 24
  let den := getf s (lnkR p 0x10) 23 20
  (if tx then [1, 2, 4] else [1, 2, 4, 8]).contains c.lanes && [1, 2, 4, 8].contains c.f &&
  decide (17 ≤ c.f * c.k ∧ c.f * c.k ≤ 1024) && decide (8 ≤ c.n ∧ c.n ≤ c.np) && [8, 12, 16].contains c.np &&
  decide (c.cs ≤ if tx then 0 else 2) && [1, 2, 4].contains c.s && !(tx && c.hd) &&
  c.f * 8 * c.lanes == c.m * c.s * c.np && decide (getf s (lnkR p 0x10) 12 8 < c.k) &&
  decide (1 ≤ num ∧ 1 ≤ den ∧ 1000000 * den ≤ khz * num ∧ khz * num ≤ 12500000 * den)

/-- LNK_STATUS.RX_STATE (R290). -/
def rxState (s : State) (p : Nat) : Nat := getf s (lnkR p 0x14) 31 29
/-- A receive link in an RX_STATE from this cycle on. -/
def setRx (s : State) (p x : Nat) : State :=
  let now := s.cycle
  setf (modPort s p fun q => { q with rxSince := now }) (lnkR p 0x14) 31 29 x
/-- LNK_STATUS.TX_STATE. -/
def txState (s : State) (p : Nat) : Nat := getf s (lnkR p 0x14) 28 26
/-- A transmit link in a TX_STATE from this cycle on. -/
def setTx (s : State) (p x : Nat) : State :=
  let now := s.cycle
  setf (modPort s p fun q => { q with txSince := now }) (lnkR p 0x14) 28 26 x

/-! Time on a lane. -/

/-- Octets that a lane of a port carries in `n` core cycles of 0.8 ns, at f_INSTCLK × RATE_NUM / RATE_DEN (R289). -/
def laneOctets (s : State) (p n : Nat) : Nat :=
  n * getf s Reg.instclk 19 0 * getf s (lnkR p 0x10) 31 24 * 8 / (getf s (lnkR p 0x10) 23 20 * 10 ^ 8)

/-- An LMFC boundary of a link has passed after core cycle `c`: the counter, set to 0 at a SYSREF event, counts a
multiframe of F × K octets (R295). -/
def lmfcPassed (s : State) (p : Nat) (tx : Bool) (c : Nat) : Bool :=
  let q := linkParams s p tx
  let z := (getPort s p).lmfcZero
  (getPort s p).lmfcAligned &&
    decide (laneOctets s p (c - z) / (q.f * q.k) < laneOctets s p (s.cycle - z) / (q.f * q.k))

/-- The octets of 5 frames and 9 octets (R288, R290). -/
def syncOctets (q : LinkParams) : Nat := 5 * q.f + 9

/-- PORTn_SYNCO is high (R290, R299). -/
def syncoHigh (s : State) (p : Nat) : Bool :=
  getb s Reg.instclk 31 && (rxState s p == 3 || (rxState s p == 2 && lmfcPassed s p false (getPort s p).rxSince))

/-- Lane `l` of a port. -/
def Port.lane (x : Port) (l : Nat) : Lane := smGet Lane.reset l x.lanes

/-- A lane changed. -/
def modLane (s : State) (p l : Nat) (f : Lane → Lane) : State :=
  modPort s p fun x => { x with lanes := smMod Lane.reset l f x.lanes }

/-- LNK_LANEl. -/
def laneR (p l : Nat) : Nat := lnkR p (0x40 + 4 * l)

/-- Physical lanes synchronised and in use (CGS_DONE). -/
def lanesInUse (s : State) (p : Nat) : List Nat := (List.range 8).filter fun l => getb s (laneR p l) 29

/-- Every lane of a port loses its synchronisation; `keep` keeps its inversion (R291). -/
def unsyncLanes (s : State) (p : Nat) (keep : Bool) : State :=
  let s := (List.range 8).foldl (fun s l => setb s (laneR p l) 29 false) s
  let s := modPort s p fun x => { x with lanes := ((List.range 8).filterMap fun l =>
    if keep && (x.lane l).inverted then some (l, ⟨false, true, none⟩) else none) }
  if keep then s else setReg s (lnkR p 0x1C) 0

/-- A link that has all its lanes synchronised and its LMFC aligned leaves CGS (R290, R295). -/
def cgsCheck (s : State) (p : Nat) : State :=
  if rxState s p = 1 ∧ (getPort s p).lmfcAligned ∧ (lanesInUse s p).length = (linkParams s p false).lanes ∧
      getb s Reg.instclk 31 then setRx s p 2 else s

/-- The receive link goes to resync: SYNCO low, and every lane synchronises again (R290). -/
def toResync (s : State) (p : Nat) : State := setRx (unsyncLanes s p true) p 4

/-- A class 0 entry about a port's slot or lane (R459). -/
def portLog (s : State) (code p x : Nat) : State := logEntry s 0 code (p + 256 * x) s.meridian.cycleNo

/-- An event of LNK_EVENT with its log entry. -/
def portEvent (s : State) (p bit code x : Nat) : State := portLog (laneEvent s p bit) code p x

/-- The held codes when a transmit link is enabled (R312): FIXED of the lowest enabled slot with FALLBACK 1. -/
def initialHeld (s : State) (p : Nat) : List (Nat × BitVec 24) :=
  (List.range 16).filterMap fun c =>
    match (List.range 32).find? fun k =>
        getb s (slotR p k 0) 31 && getb s (slotR p k 0) 30 && getf s (slotR p k 0) 27 24 == c with
    | some k => let w := BitVec.ofNat 24 (getf s (slotR p k 0x14) 23 0); if w = 0 then none else some (c, w)
    | none => none

/-- A link disabled (R290, R291). -/
def linkOff (s : State) (p : Nat) (tx : Bool) : State :=
  let s := setb s (linkCfgR p tx) 63 false
  if tx then setTx s p 0 else setRx (unsyncLanes s p false) p 0

/-- ENABLE written to 1 (R289). -/
def linkOn1 (s : State) (p : Nat) (tx : Bool) : State :=
  if !paramsOk s p tx then setf (setb s (linkCfgR p tx) 63 false) (lnkR p 0x14) 7 0 0x0F
  else
    let s := setf (setb s (linkCfgR p tx) 63 true) (lnkR p 0x14) 7 0 0
    if tx then
      let held := initialHeld s p
      setTx (modPort s p fun x => { x with held := held, heldBy := [], coming := [], live := held, sentCode := [] }) p 1
    else
      let s := (List.range 8).foldl (fun s l => setf s (laneR p l) 15 0 0) s
      setRx (unsyncLanes s p false) p 1

/-- LINK_ENABLE: a write of LNK_RX_CFG or LNK_TX_CFG (R289). The parameters are ignored while either ENABLE is 1;
ENABLE itself acts (DEDUCED: clearing it disables the link). -/
def opLinkEnable (p : Nat) (tx : Bool) (val : Nat) (s : State) : State :=
  let r := linkCfgR p tx
  let on := linkOn s p tx
  let s := if linkOn s p false || linkOn s p true then s
    else setb (plainWrite64 s r (if tx then val else putFld val 55 52 0)) r 63 false
  if bitOf val 63 then (if on then s else linkOn1 s p tx) else if on then linkOff s p tx else s

/-- LNK_CLK_CFG, ignored while either ENABLE is 1 (R289). -/
def clkCfgWrite (p : Nat) (v : Word) (s : State) : State :=
  if linkOn s p false || linkOn s p true then s else plainWrite s (lnkR p 0x10) v

/-- The link is in code group synchronisation: in CGS, or in resync once SYNCO has been low for its least time (R290). -/
def inCgs (s : State) (p : Nat) : Bool :=
  rxState s p == 1 || (rxState s p == 4 &&
    decide (syncOctets (linkParams s p false) ≤ laneOctets s p (s.cycle - (getPort s p).rxSince)))

/-- LANE_CGS (R290, R291). A lane that is down, or that finds L lanes in use already, takes no part. -/
def opLaneCgs (p l : Nat) (complemented : Bool) (s : State) : State :=
  if !inCgs s p || !getb s Reg.instclk 31 || getb s (laneR p l) 31 || getb s (laneR p l) 30
  then s
  else
    let s := if rxState s p = 1 then s else setRx s p 1
    if complemented then
      setb (modLane s p l fun x => { x with inverted := true }) (lnkR p 0x1C) (4 * l) true
    else if getb s (laneR p l) 29 || decide ((linkParams s p false).lanes ≤ (lanesInUse s p).length) then s
    else cgsCheck (setb (modLane s p l fun x => { x with synced := true }) (laneR p l) 29 true) p

/-- A lane's octets agree with LNK_RX_CFG (R293). -/
def ilasOk (c : LinkParams) (x : LaneIlas) : Bool :=
  x.did == c.did && x.bid == c.bid && x.l == c.lanes && x.scr == c.scr && x.f == c.f && x.k == c.k && x.m == c.m &&
  x.n == c.n && x.np == c.np && x.cs == c.cs && x.s == c.s && x.hd == c.hd && x.subclassv == 1 && x.jesdv == 1 &&
  x.fchkOk && decide (c.lidBase ≤ x.lid ∧ x.lid < c.lidBase + c.lanes)

/-- ILAS_CHECK (R292, R293): the sequence of every lane in use. -/
def opIlasCheck (p : Nat) (xs : List LaneIlas) (s : State) : State :=
  let use := lanesInUse s p
  if rxState s p ≠ 2 ∨ !(xs.all fun x => use.contains x.lane.toNat) ∨ !(use.all fun l => xs.any fun x => x.lane.toNat == l)
  then s
  else
    let c := linkParams s p false
    let s := xs.foldl (fun s x => setf s (laneR p x.lane.toNat) 28 24 x.lid) s
    if xs.all (ilasOk c) && ((xs.map (·.lid)).eraseDups).length == c.lanes && xs.length == c.lanes then
      xs.foldl (fun s x =>
        setf (modLane s p x.lane.toNat fun y => { y with logical := some (x.lid - c.lidBase) })
          (lnkR p 0x1C) (4 * x.lane.toNat + 3) (4 * x.lane.toNat + 1) (x.lid - c.lidBase)) s
    else portEvent (toResync s p) p 1 0x0903 0

/-- LANE_RELEASE (R294). `arrivals`: when each lane arrived, in octets after the LMFC boundary at which the first lane
arrived. -/
def opLaneRelease (p : Nat) (arrivals : List Nat) (s : State) : State :=
  let use := lanesInUse s p
  if rxState s p ≠ 2 ∨ arrivals.length ≠ use.length ∨ !(use.all fun l => ((getPort s p).lane l).logical.isSome) then s
  else
    let last := arrivals.foldl max 0
    let first := arrivals.foldl min last
    let s := setf (setf s (lnkR p 0x14) 23 16 (min 255 (last - first))) (lnkR p 0x14) 15 8 (min 255 last)
    if 256 < last - first ∨ getf s (lnkR p 0x10) 12 8 * (linkParams s p false).f < last then
      portEvent (toResync s p) p 2 0x090D 0
    else setRx s p 3

/-- The LMFC counter of a port set to 0 by an event, or confirmed by one that falls on its boundary (R295). -/
def alignPort (s : State) (p : Nat) : State :=
  let now := s.cycle
  cgsCheck (modPort s p fun x => { x with lmfcAligned := true, lmfcZero := now }) p

/-- One port at an event in continuous mode. -/
def sysrefPort (off : Bool) (s : State) (p : Nat) : State :=
  if !(linkOn s p false || linkOn s p true) then s
  else if !off then setb (alignPort s p) Reg.sysref 29 true
  else
    let s := portEvent s p 4 0x0908 0
    if getb s (lnkR p 0x10) 19 then
      let s := if linkOn s p false then toResync s p else s
      let s := if linkOn s p true then setTx s p 1 else s
      let now := s.cycle
      setb (modPort s p fun x => { x with lmfcAligned := true, lmfcZero := now }) Reg.sysref 29 true
    else s

/-- SYSREF_EVENT (R295). Bit `p` of `off`: the event does not fall on port `p`'s LMFC boundary. An INSTCLK out of
tolerance samples nothing (DEDUCED). -/
def opSysrefEvent (off : Nat) (s : State) : State :=
  if !getb s Reg.instclk 31 then s
  else if getb s Reg.sysref 31 then (List.range 8).foldl (fun s p => sysrefPort (bitOf off p) s p) s
  else if s.sysrefArmed then
    setb ((List.range 8).foldl alignPort { s with sysrefArmed := false }) Reg.sysref 29 true
  else s

/-- SYSREF_ARM: a write of LNK_SYSREF (R295). -/
def opSysrefArm (val : Word) (s : State) : State :=
  let s := plainWrite s Reg.sysref val
  if val.getLsbD 30 then { s with sysrefArmed := true } else s

/-- SYNCI_RISE (R296): SYNCI is high from this cycle on. -/
def opSynciRise (p : Nat) (s : State) : State :=
  let now := s.cycle
  modPort s p fun x => { x with synci := some (x.synci.getD now) }

/-- The configuration octets that a transmit link sends on lane `i` (R287, R296). -/
def ilasLane (q : LinkParams) (i : Nat) : LaneIlas :=
  { lane := BitVec.ofNat 3 i, did := q.did, bid := q.bid, lid := q.lidBase + i, l := q.lanes, scr := q.scr, f := q.f,
    k := q.k, m := q.m, n := q.n, np := q.np, cs := q.cs, s := q.s, hd := q.hd, subclassv := 1, jesdv := 1,
    fchkOk := true }

/-- A transmit link moves on (R296): from K28.5 to the sequence at the first LMFC boundary since SYNCI rose, and to data
after its four multiframes. -/
def txAdvance (s : State) (p : Nat) : State :=
  let x := getPort s p
  let q := linkParams s p true
  if !getb s Reg.instclk 31 then s
  else if txState s p = 1 then
    match x.synci with
    | some c =>
      if lmfcPassed s p true (max c x.txSince) then
        emit (setTx s p 2) (.ilas p 4 ((List.range q.lanes).map (ilasLane q)))
      else s
    | none => s
  else if txState s p = 2 ∧ 4 * q.f * q.k ≤ laneOctets s p (s.cycle - x.txSince) then setTx s p 3
  else s

/-- SYNCI_LOW for `octets` octets (R288, R296). -/
def opSynciLow (p octets : Nat) (s : State) : State :=
  if octets < syncOctets (linkParams s p true) then s
  else
    let s := modPort s p fun x => { x with synci := none }
    if txState s p == 2 || txState s p == 3 then portEvent (setTx s p 1) p 7 0x090E 0 else s

/-- LANE_DOWN (R297): LOS, or LOL. -/
def opLaneDown (p l : Nat) (signal : Bool) (s : State) : State :=
  let wasDown := getb s (laneR p l) 31 || getb s (laneR p l) 30
  let used := getb s (laneR p l) 29
  let s := setb s (laneR p l) (if signal then 31 else 30) true
  if wasDown then s
  else
    let s := if used ∧ (rxState s p = 2 ∨ rxState s p = 3) then toResync s p else s
    let s := setb (setb s (laneR p l) 29 false) (lnkR p 0x1C) (4 * l) false
    portEvent (modLane s p l fun _ => Lane.reset) p 0 0x0901 l

/-- LANE_REJOIN (R297). -/
def opLaneRejoin (p l clearUs : Nat) (s : State) : State :=
  if clearUs < 100 then s else setf s (laneR p l) 31 30 0

/-- LINK_RESYNC (R298). -/
def opLinkResync (p : Nat) (c : ResyncCause) (s : State) : State :=
  if rxState s p ≠ 3 then s
  else match c with
    | .codeErrors l n ns =>
      let s := countUpBy s (laneR p l.toNat) 15 0 n
      if 8 ≤ n ∧ ns ≤ 1000 then portEvent (toResync s p) p 3 0x090E l.toNat else s
    | .misplacedA l n => if 2 ≤ n then portEvent (toResync s p) p 3 0x090E l.toNat else s

/-- INSTCLK_FAULT (R18, R299): the links fall back and LMFC alignment is lost; recorded on entering the state. -/
def opInstclkFault (spread drift : Bool) (khz : Nat) (s : State) : State :=
  let entering := getb s Reg.instclk 31 || getReg s Reg.instclk == 0
  let s := setReg s Reg.instclk
    (BitVec.ofNat 32 (putFld (putFld (putFld 0 30 30 (b2n spread)) 29 29 (b2n drift)) 19 0 khz))
  if !entering then s
  else
    let s := (List.range 8).foldl (fun s p =>
      let s := if linkOn s p false then setRx (unsyncLanes s p true) p 1 else s
      let s := if linkOn s p true then setTx s p 1 else s
      modPort s p fun x => { x with lmfcAligned := false }) s
    portLog (setb { s with sysrefArmed := false } Reg.sysref 29 false) 0x0902 0 0

/-- INSTCLK_RECOVERY (R299): in tolerance for 10 ms. -/
def opInstclkRecovery (khz ms : Nat) (s : State) : State :=
  if getb s Reg.instclk 31 ∨ ms < 10 then s
  else setReg s Reg.instclk (BitVec.ofNat 32 (putFld (2 ^ 31) 19 0 khz))

/-- LINK_ENABLE. -/
def execLinkEnable (p : PortIx) (tx : Bool) (val : DWord) (s : State) : Host.Outcome State Fault Refusal :=
  .next (opLinkEnable p.toNat tx val.toNat s)
/-- LANE_CGS. -/
def execLaneCgs (p : PortIx) (l : BitVec 3) (c : Bool) (s : State) : Host.Outcome State Fault Refusal :=
  .next (opLaneCgs p.toNat l.toNat c s)
/-- ILAS_CHECK. -/
def execIlasCheck (p : PortIx) (xs : List LaneIlas) (s : State) : Host.Outcome State Fault Refusal :=
  .next (opIlasCheck p.toNat xs s)
/-- LANE_RELEASE. -/
def execLaneRelease (p : PortIx) (xs : List Nat) (s : State) : Host.Outcome State Fault Refusal :=
  .next (opLaneRelease p.toNat xs s)
/-- SYSREF_EVENT. -/
def execSysrefEvent (off : BitVec 8) (s : State) : Host.Outcome State Fault Refusal := .next (opSysrefEvent off.toNat s)
/-- SYSREF_ARM. -/
def execSysrefArm (val : Word) (s : State) : Host.Outcome State Fault Refusal := .next (opSysrefArm val s)
/-- SYNCI_RISE. -/
def execSynciRise (p : PortIx) (s : State) : Host.Outcome State Fault Refusal := .next (opSynciRise p.toNat s)
/-- SYNCI_LOW. -/
def execSynciLow (p : PortIx) (n : Nat) (s : State) : Host.Outcome State Fault Refusal := .next (opSynciLow p.toNat n s)
/-- LANE_DOWN. -/
def execLaneDown (p : PortIx) (l : BitVec 3) (signal : Bool) (s : State) : Host.Outcome State Fault Refusal :=
  .next (opLaneDown p.toNat l.toNat signal s)
/-- LANE_REJOIN. -/
def execLaneRejoin (p : PortIx) (l : BitVec 3) (us : Nat) (s : State) : Host.Outcome State Fault Refusal :=
  .next (opLaneRejoin p.toNat l.toNat us s)
/-- LINK_RESYNC. -/
def execLinkResync (p : PortIx) (c : ResyncCause) (s : State) : Host.Outcome State Fault Refusal :=
  .next (opLinkResync p.toNat c s)
/-- INSTCLK_FAULT. -/
def execInstclkFault (spread drift : Bool) (khz : BitVec 20) (s : State) : Host.Outcome State Fault Refusal :=
  .next (opInstclkFault spread drift khz.toNat s)
/-- INSTCLK_RECOVERY. -/
def execInstclkRecovery (khz : BitVec 20) (ms : Nat) (s : State) : Host.Outcome State Fault Refusal :=
  .next (opInstclkRecovery khz.toNat ms s)

end Sys2Proof.Machine
end

