-- ==== Sys2Proof/Machine/Fec.lean ====
section
/-!
DEFINITION. The front-end cores (R300 to R309): enabling invocations, batches, and one meaning for each instruction.
-/
namespace Sys2Proof.Machine
open Sys2Proof

/-- LNK_FEC_CTRL. -/
def fecR (p : Nat) : Nat := lnkR p 0x100

/-- A port's core changed. -/
def modCore (s : State) (p : Nat) (f : Core → Core) : State := modPort s p fun x => { x with core := f x.core }

/-- LNK_FRAME_RING names a buffer that holds 2^SLOTS_LOG2 frames (R325). -/
def frameRingOk (s : State) (p : Nat) : Bool :=
  let lg := getf s (lnkR p 0x108) 3 0
  decide (1 ≤ lg ∧ lg ≤ 8) && match findHandle s (getf s (lnkR p 0x108) 63 32) with
    | some h => h.kind == 0 && decide (4096 * 2 ^ lg ≤ h.size)
    | none => false

/-- FEC_RUN: a write of LNK_FEC_CTRL (R303, R325). A core starts with every register 0 at RUN (R474). -/
def opFecRun (p : Nat) (val : Word) (s : State) : State :=
  if getb s (fecR p) 31 then
    (if val.getLsbD 31 then s else modCore (setb s (fecR p) 31 false) p fun c => { c with waiting := none })
  else
    let s := setb (plainWrite s (fecR p) val) (fecR p) 31 false
    let len := getf s (fecR p) 29 16
    if !val.getLsbD 31 then s
    else if len = 0 ∨ 8192 < len ∨ getf s (fecR p) 15 0 = 0 ∨ 8192 < (linkParams s p false).m * len ∨ !frameRingOk s p
    then setf s (lnkR p 0x14) 7 0 0x0F
    else modCore (setb s (fecR p) 31 true) p fun c =>
      { c with acc := [], d := [], addr := [], frameNo := 0, emitted := false, waiting := none }

/-- LNK_FRAME_RING, of which SLOTS_LOG2 is ignored while RUN is 1. -/
def frameRingWrite (p : Nat) (v : Nat) (s : State) : State :=
  plainWrite64 s (lnkR p 0x108) (if getb s (fecR p) 31 then putFld v 3 0 (getf s (lnkR p 0x108) 3 0) else v)

/-- The window of R306. -/
def inWindow (s : State) (p ph : Nat) : Bool :=
  let a := getf s (lnkR p 0x110) 63 40
  let b := getf s (lnkR p 0x110) 39 16
  !getb s (lnkR p 0x110) 0 || (if b ≤ a then decide (a ≤ ph) || decide (ph < b) else decide (a ≤ ph) && decide (ph < b))

/-- One received sample in the Y ring of its converter (R301, R303); a ring of length 0 has no place, nor has Y one past
its end. -/
def putSample (len n m : Nat) (y : List (Nat × BitVec 24)) (x : BitVec 4 × Nat × BitVec 16) : List (Nat × BitVec 24) :=
  if m ≤ x.1.toNat ∨ len = 0 ∨ 8192 ≤ x.1.toNat * len + x.2.1 % len then y
  else smSet 0 (x.1.toNat * len + x.2.1 % len) (BitVec.ofNat 24 ((x.2.2.toNat % 2 ^ n) <<< (24 - n))) y

/-- BATCH_COMPLETE (R303, R304, R306): samples written to Y in the data state, RUN set or not, and, where `first` names
its first sample, the batch that they complete. -/
def opBatchComplete (p : Nat) (first : Option Nat) (samples : List (BitVec 4 × Nat × BitVec 16)) (s : State) : State :=
  if rxState s p ≠ 3 then s
  else
    let len := getf s (fecR p) 29 16
    let c := linkParams s p false
    let s := modCore s p fun x => { x with y := samples.foldl (putSample len c.n c.m) x.y }
    match first with
    | none => s
    | some first =>
    if !getb s (fecR p) 31 ∨ !inWindow s p (mtrPhase s) then s
    else
      let s := if (getPort s p).core.waiting.isSome then portEvent s p 5 0x0909 0 else s
      let st := mtrStamp s
      modCore s p fun x => { x with waiting := some (first % len, st) }

/-- FEC_INVOCATION (R303): PC 0, and D7 the ring position of the batch's first sample. -/
def opFecInvocation (p : Nat) (s : State) : State :=
  let c := (getPort s p).core
  match c.waiting with
  | some (pos, st) =>
    if c.running then s
    else modCore s p fun c => { c with running := true, pc := 0, cycles := 0, batch := some (pos, st), waiting := none,
                                       repLeft := 0, d := smSet 0 7 (BitVec.ofNat 24 pos) c.d }
  | none => s

/-! Registers of a core. -/

/-- Accumulator `i`. -/
def Core.getAcc (c : Core) (i : Nat) : Int := (smGet 0 i c.acc).toInt
/-- Data register `i`. -/
def Core.getD (c : Core) (i : Nat) : BitVec 24 := smGet 0 i c.d
/-- Address register `i` (0 to 3 XA, 4 to 7 YA): value, base, length, offset. -/
def Core.getAddr (c : Core) (i : Nat) : Nat × Nat × Nat × Int := smGet (0, 0, 0, 0) i c.addr
/-- Data register `i` set. -/
def Core.setD (c : Core) (i : Nat) (v : BitVec 24) : Core := { c with d := smSet 0 i v c.d }
/-- Address register `i` set. -/
def Core.setAddr (c : Core) (i : Nat) (a : Nat × Nat × Nat × Int) : Core :=
  { c with addr := smSet (0, 0, 0, 0) i a c.addr }

/-- A value clamped to the 56-bit range, and whether it was outside (R301). -/
def sat56 (v : Int) : Int × Bool := if 2 ^ 55 - 1 < v then (2 ^ 55 - 1, true) else if v < -2 ^ 55 then (-2 ^ 55, true) else (v, false)

/-- A value clamped to the 24-bit range, and whether it was outside (R301). -/
def sat24 (v : Int) : Int × Bool := if 2 ^ 23 - 1 < v then (2 ^ 23 - 1, true) else if v < -2 ^ 23 then (-2 ^ 23, true) else (v, false)

/-- Rounding of a number of weight 2^-n to units, ties to even. -/
def rneShift (v : Int) (n : Nat) : Int :=
  let q := v / 2 ^ n
  let r := v % 2 ^ n
  if 2 * r < 2 ^ n then q else if 2 ^ n < 2 * r then q + 1 else if q % 2 = 0 then q else q + 1

/-- Post-modification of an address register (R302). -/
def addrNext (a : Nat × Nat × Nat × Int) : Nat × Nat × Nat × Int :=
  let v := a.1
  let b := a.2.1
  let m := a.2.2.1
  let n := a.2.2.2
  let nv : Int := if m = 0 then ((v : Int) + n) % 8192 else b + (((v : Int) - b + n) % m)
  ((nv % 8192).toNat, b, m, n)

/-- An address register post-modified in place. -/
def Core.bump (c : Core) (i : Nat) : Core := c.setAddr i (addrNext (c.getAddr i))

/-- The X word that XAr names. -/
def xWord (s : State) (p : Nat) (c : Core) (r : Nat) : BitVec 24 :=
  BitVec.ofNat 24 (getReg s (lnkR p (0x8000 + 4 * (c.getAddr r).1))).toNat

/-- The Y word that YAr names. -/
def yWord (c : Core) (r : Nat) : BitVec 24 := smGet 0 (c.getAddr (4 + r)).1 c.y

/-! Instruction words. -/

/-- The fields of an instruction word (R307). -/
structure FecWord where
  op : Nat
  dst : Nat
  src : Nat
  xr : Nat
  yr : Nat
  imm : Nat
  deriving DecidableEq, Repr

/-- An instruction word's fields (R307). -/
def fecFields (w : Nat) : FecWord := ⟨fld w 47 42, fld w 41 38, fld w 37 34, fld w 33 32, fld w 31 30, fld w 23 0⟩

/-- The instruction at PC; P holds NOP past the end of the program that the image gives it. -/
def Core.word (c : Core) : FecWord := fecFields (c.program.getD c.pc 0)

/-- An invocation runs and the instruction at PC is the one that `is` tells. -/
def Core.runs (c : Core) (is : FecWord → Bool) : Bool := c.running && is c.word

/-! Sequencing. -/

/-- The core after one instruction: one cycle, and the next PC under the loop cache (R304, R307). -/
def Core.next (c : Core) : Core :=
  let c := { c with cycles := c.cycles + 1 }
  if c.repLeft ≠ 0 ∧ c.pc = c.repLast then
    (if 1 < c.repLeft then { c with pc := c.repFirst, repLeft := c.repLeft - 1 }
     else { c with pc := (c.pc + 1) % 4096, repLeft := 0 })
  else { c with pc := (c.pc + 1) % 4096 }

/-- An instruction of a running invocation, which `is` tells from the word at PC: its effect, the SAT flag, and the next
PC. A core whose word at PC is another one does not execute it. -/
def fecStep (p : Nat) (is : FecWord → Bool) (f : State → Core → Core × Bool) (s : State) : State :=
  let c := (getPort s p).core
  if !c.runs is then s
  else
    let r := f s c
    let s := modCore s p fun _ => r.1.next
    if r.2 then setb s (lnkR p 0x104) 30 true else s

/-- A new accumulator value, clamped. -/
def Core.putAcc (c : Core) (i : Nat) (v : Int) : Core × Bool :=
  let r := sat56 v
  ({ c with acc := smSet 0 i (BitVec.ofInt 56 r.1) c.acc }, r.2)

/-- NOP. -/
def opFecNop (p : Nat) : State → State := fecStep p (fun w => w.op == 0x00) fun _ c => (c, false)

/-- END (R307): the invocation ends, and held X writes are applied in arrival order (R309). -/
def opFecEnd (p : Nat) (s : State) : State :=
  let c := (getPort s p).core
  if !c.runs fun w => w.op == 0x01 then s
  else
    let s := setf s (lnkR p 0x104) 15 0 (min 0xFFFF (c.cycles + 1))
    let s := c.heldX.foldl (fun s w => setReg s (lnkR p (0x8000 + 4 * w.1)) w.2) s
    modCore s p fun c => { c with running := false, batch := none, heldX := [], cycles := c.cycles + 1, repLeft := 0 }

/-- REP. -/
def opRep (p body count : Nat) : State → State :=
  fecStep p (fun w => w.op == 0x02 && fld w.imm 21 16 == body && fld w.imm 15 0 == count) fun _ c =>
  let n := if body = 0 then 64 else body
  -- `next` adds the 1 that leads from the REP to what follows it
  if count = 0 then ({ c with pc := c.pc + n }, false)
  else ({ c with repFirst := (c.pc + 1) % 4096, repLast := (c.pc + n) % 4096, repLeft := count, pc := c.pc }, false)

/-- CLR. -/
def opClr (p dst : Nat) : State → State := fecStep p (fun w => w.op == 0x08 && w.dst == dst) fun _ c => c.putAcc dst 0

/-- MAC, and MSU with `sub`. -/
def opMac (p dst xr yr : Nat) (sub : Bool) : State → State :=
  fecStep p (fun w => w.op == (if sub then 0x0B else 0x09) && w.dst == dst && w.xr == xr && w.yr == yr) fun s c =>
  let t := (xWord s p c xr).toInt * (yWord c yr).toInt
  ((c.bump xr).bump (4 + yr)).putAcc dst (c.getAcc dst + if sub then -t else t)

/-- MAC2. -/
def opMac2 (p dst xr yr : Nat) : State → State :=
  fecStep p (fun w => w.op == 0x0A && w.dst == dst && w.xr == xr && w.yr == yr) fun s c =>
  let t := (xWord s p c xr).toInt * (yWord c yr).toInt + (xWord s p c (xr + 1)).toInt * (yWord c (yr + 1)).toInt
  ((((c.bump xr).bump (xr + 1)).bump (4 + yr)).bump (5 + yr)).putAcc dst (c.getAcc dst + t)

/-- MACD. -/
def opMacd (p dst src xr : Nat) : State → State :=
  fecStep p (fun w => w.op == 0x0C && w.dst == dst && w.src == src && w.xr == xr) fun s c =>
  (c.bump xr).putAcc dst (c.getAcc dst + (c.getD src).toInt * (xWord s p c xr).toInt)

/-- A parity event in X or Y: counted, and 10 within one hour set off the core's mechanism (R466). -/
def dataParity (p : Nat) (s : State) : State :=
  let l := s.cycle :: (getPort s p).core.parityEvents.filter fun t => decide (s.cycle < t + hourCycles)
  let s := modCore s p fun c => { c with parityEvents := l }
  if 10 ≤ l.length then trigger s 3 p 2 else s

/-- A parity event in P: the core stops at once (R466) and its substitution follows the mode (R469). -/
def programParity (p : Nat) (s : State) : State :=
  let s := setb s (fecR p) 31 false
  let s := modCore s p fun c => { c with running := false, batch := none, waiting := none, repLeft := 0 }
  let s := linkOff (linkOff s p false) p true
  let s := logEntry s 4 0x0F08 p (getf s Reg.coreMap (4 * p + 3) (4 * p))
  trigger s 3 p 3

/-- LDX, with what the memories' parity check finds at it. -/
def opLdx (p dst xr : Nat) (par : Parity) (s : State) : State :=
  let is := fun w : FecWord => w.op == 0x10 && w.dst == dst && w.xr == xr
  let go := fecStep p is fun s c => ((c.setD dst (xWord s p c xr)).bump xr, false)
  match par with
  | .none => go s
  | .data => go (if (getPort s p).core.runs is then dataParity p s else s)
  | .program => if (getPort s p).core.runs is then programParity p s else s

/-- LDY. -/
def opLdy (p dst yr : Nat) : State → State :=
  fecStep p (fun w => w.op == 0x11 && w.dst == dst && w.yr == yr) fun _ c => ((c.setD dst (yWord c yr)).bump (4 + yr), false)

/-- STY. -/
def opSty (p src yr : Nat) : State → State :=
  fecStep p (fun w => w.op == 0x12 && w.src == src && w.yr == yr) fun _ c =>
  ({ c with y := smSet 0 (c.getAddr (4 + yr)).1 (c.getD src) c.y }.bump (4 + yr), false)

/-- LDI. -/
def opLdi (p dst : Nat) (imm : BitVec 24) : State → State :=
  fecStep p (fun w => w.op == 0x13 && w.dst == dst && w.imm == imm.toNat) fun _ c => (c.setD dst imm, false)

/-- ADDA. -/
def opAdda (p dst src : Nat) : State → State :=
  fecStep p (fun w => w.op == 0x18 && w.dst == dst && w.src == src) fun _ c => c.putAcc dst (c.getAcc dst + c.getAcc src)

/-- SHA: left shifts saturate, right shifts round toward −∞. -/
def opSha (p dst : Nat) (sh : Int) : State → State :=
  fecStep p (fun w => w.op == 0x19 && w.dst == dst && sx 6 (fld w.imm 5 0) == sh) fun _ c =>
  c.putAcc dst (if 0 ≤ sh then c.getAcc dst * 2 ^ sh.toNat else c.getAcc dst / 2 ^ (-sh).toNat)

/-- RND (R301). -/
def opRnd (p dst src : Nat) : State → State :=
  fecStep p (fun w => w.op == 0x1A && w.dst == dst && w.src == src) fun _ c =>
  let r := sat24 (rneShift (c.getAcc src) 23)
  (c.setD dst (BitVec.ofInt 24 r.1), r.2)

/-- MOVA. -/
def opMova (p dst src : Nat) : State → State :=
  fecStep p (fun w => w.op == 0x1B && w.dst == dst && w.src == src) fun _ c => c.putAcc dst ((c.getD src).toInt * 2 ^ 23)

/-- OUT. -/
def opOut (p slot src : Nat) : State → State :=
  fecStep p (fun w => w.op == 0x20 && fld w.imm 9 0 == slot && w.src == src) fun _ c =>
  ({ c with o := smSet 0 slot (c.getD src) c.o }, false)

/-- The bytes of a frame (R305). -/
def frameBytes (c : Core) (n stamp : Nat) : List Byte :=
  leBytes 8 stamp ++ leBytes 4 c.frameNo ++ leBytes 4 n ++
    ((List.range n).flatMap fun i => leBytes 4 (intBits 32 (smGet 0 i c.o).toInt))

/-- The instruction word is EMIT of `n`. -/
def isEmit (n : Nat) (w : FecWord) : Bool := w.op == 0x21 && fld w.imm 10 0 == n

/-- EMIT (R304, R305): it waits, for a free number of cycles, while the previous EMIT's frame is still leaving; then the
frame's bytes, and 1 added to the ring's flag. The flag's setter stays (DESIGN CHOICE). -/
def opEmit (p n : Nat) (s : State) : State :=
  let c := (getPort s p).core
  let sends := c.runs (isEmit n) && decide (n ≠ 0 ∧ n ≤ 1020)
  let f := if sends && c.emitted then takeFree s else (0, s)
  let s := f.2
  let s' := fecStep p (isEmit n) (fun _ c =>
    if sends then ({ c with frameNo := c.frameNo + 1, emitted := true, cycles := c.cycles + f.1 }, false)
    else (c, false)) s
  if !sends then s'
  else
    let f := getf s (lnkR p 0x108) 31 16
    let off := 4096 * (c.frameNo % 2 ^ getf s (lnkR p 0x108) 3 0)
    let st := match c.batch with
      | some b => b.2
      | none => 2 ^ 64 - 1
    addFlag (bufWrite s' (getf s (lnkR p 0x108) 63 32) off (frameBytes c n st)) f 1 (smGet Setter.none f s.setters)

/-- SETA. -/
def opSeta (p r imm : Nat) : State → State :=
  fecStep p (fun w => w.op == 0x28 && w.dst == r && fld w.imm 12 0 == imm) fun _ c =>
  (c.setAddr r (imm, (c.getAddr r).2), false)

/-- SETM: the length, and the base at the register's value (R302). -/
def opSetm (p r imm : Nat) : State → State :=
  fecStep p (fun w => w.op == 0x29 && w.dst == r && fld w.imm 12 0 == imm) fun _ c =>
  (c.setAddr r ((c.getAddr r).1, (c.getAddr r).1, imm, (c.getAddr r).2.2.2), false)

/-- SETN: a signed 13-bit offset. -/
def opSetn (p r imm : Nat) : State → State :=
  fecStep p (fun w => w.op == 0x2A && w.dst == r && fld w.imm 12 0 == imm) fun _ c =>
  (c.setAddr r ((c.getAddr r).1, (c.getAddr r).2.1, (c.getAddr r).2.2.1, sx 13 imm), false)

/-- A host write of an LNK_X word (R309): held during an invocation; kept sign-extended, as reads answer it. -/
def xWrite (p w : Nat) (v : Word) (s : State) : State :=
  let v := BitVec.signExtend 32 (BitVec.ofNat 24 v.toNat)
  if (getPort s p).core.running then modCore s p fun c => { c with heldX := c.heldX ++ [(w, v)] }
  else setReg s (lnkR p (0x8000 + 4 * w)) v

/-- FEC_RUN. -/
def execFecRun (p : PortIx) (v : Word) (s : State) : Host.Outcome State Fault Refusal := .next (opFecRun p.toNat v s)
/-- BATCH_COMPLETE. -/
def execBatchComplete (p : PortIx) (first : Option Nat) (xs : List (BitVec 4 × Nat × BitVec 16)) (s : State) :
    Host.Outcome State Fault Refusal := .next (opBatchComplete p.toNat first xs s)
/-- FEC_INVOCATION. -/
def execFecInvocation (p : PortIx) (s : State) : Host.Outcome State Fault Refusal := .next (opFecInvocation p.toNat s)
/-- FEC_NOP. -/
def execFecNop (p : PortIx) (s : State) : Host.Outcome State Fault Refusal := .next (opFecNop p.toNat s)
/-- FEC_END. -/
def execFecEnd (p : PortIx) (s : State) : Host.Outcome State Fault Refusal := .next (opFecEnd p.toNat s)
/-- REP. -/
def execRep (p : PortIx) (body : BitVec 6) (count : BitVec 16) (s : State) : Host.Outcome State Fault Refusal :=
  .next (opRep p.toNat body.toNat count.toNat s)
/-- CLR. -/
def execClr (p : PortIx) (dst : BitVec 2) (s : State) : Host.Outcome State Fault Refusal :=
  .next (opClr p.toNat dst.toNat s)
/-- MAC. -/
def execMac (p : PortIx) (dst xr yr : BitVec 2) (s : State) : Host.Outcome State Fault Refusal :=
  .next (opMac p.toNat dst.toNat xr.toNat yr.toNat false s)
/-- MAC2: XR and YR are 0 or 2 (R307); another pair names registers that the manual does not give. -/
def execMac2 (p : PortIx) (dst xr yr : BitVec 2) (s : State) : Host.Outcome State Fault Refusal :=
  if xr.getLsbD 0 || yr.getLsbD 0 then .fault .noSuchPlace else .next (opMac2 p.toNat dst.toNat xr.toNat yr.toNat s)
/-- MSU. -/
def execMsu (p : PortIx) (dst xr yr : BitVec 2) (s : State) : Host.Outcome State Fault Refusal :=
  .next (opMac p.toNat dst.toNat xr.toNat yr.toNat true s)
/-- MACD. -/
def execMacd (p : PortIx) (dst : BitVec 2) (src : BitVec 3) (xr : BitVec 2) (s : State) :
    Host.Outcome State Fault Refusal := .next (opMacd p.toNat dst.toNat src.toNat xr.toNat s)
/-- LDX. -/
def execLdx (p : PortIx) (dst : BitVec 3) (xr : BitVec 2) (par : Parity) (s : State) :
    Host.Outcome State Fault Refusal := .next (opLdx p.toNat dst.toNat xr.toNat par s)
/-- LDY. -/
def execLdy (p : PortIx) (dst : BitVec 3) (yr : BitVec 2) (s : State) : Host.Outcome State Fault Refusal :=
  .next (opLdy p.toNat dst.toNat yr.toNat s)
/-- STY. -/
def execSty (p : PortIx) (src : BitVec 3) (yr : BitVec 2) (s : State) : Host.Outcome State Fault Refusal :=
  .next (opSty p.toNat src.toNat yr.toNat s)
/-- LDI. -/
def execLdi (p : PortIx) (dst : BitVec 3) (imm : BitVec 24) (s : State) : Host.Outcome State Fault Refusal :=
  .next (opLdi p.toNat dst.toNat imm s)
/-- ADDA. -/
def execAdda (p : PortIx) (dst src : BitVec 2) (s : State) : Host.Outcome State Fault Refusal :=
  .next (opAdda p.toNat dst.toNat src.toNat s)
/-- SHA. -/
def execSha (p : PortIx) (dst : BitVec 2) (sh : BitVec 6) (s : State) : Host.Outcome State Fault Refusal :=
  .next (opSha p.toNat dst.toNat sh.toInt s)
/-- RND. -/
def execRnd (p : PortIx) (dst : BitVec 3) (src : BitVec 2) (s : State) : Host.Outcome State Fault Refusal :=
  .next (opRnd p.toNat dst.toNat src.toNat s)
/-- MOVA. -/
def execMova (p : PortIx) (dst : BitVec 2) (src : BitVec 3) (s : State) : Host.Outcome State Fault Refusal :=
  .next (opMova p.toNat dst.toNat src.toNat s)
/-- OUT: output staging holds 1,020 words (R300); a slot beyond them is a place that the manual does not give. -/
def execOut (p : PortIx) (slot : BitVec 10) (src : BitVec 3) (s : State) : Host.Outcome State Fault Refusal :=
  if 1020 ≤ slot.toNat then .fault .noSuchPlace else .next (opOut p.toNat slot.toNat src.toNat s)
/-- EMIT. -/
def execEmit (p : PortIx) (n : BitVec 11) (s : State) : Host.Outcome State Fault Refusal :=
  .next (opEmit p.toNat n.toNat s)
/-- SETA. -/
def execSeta (p : PortIx) (r : BitVec 3) (imm : BitVec 13) (s : State) : Host.Outcome State Fault Refusal :=
  .next (opSeta p.toNat r.toNat imm.toNat s)
/-- SETM. -/
def execSetm (p : PortIx) (r : BitVec 3) (imm : BitVec 13) (s : State) : Host.Outcome State Fault Refusal :=
  .next (opSetm p.toNat r.toNat imm.toNat s)
/-- SETN. -/
def execSetn (p : PortIx) (r : BitVec 3) (imm : BitVec 13) (s : State) : Host.Outcome State Fault Refusal :=
  .next (opSetn p.toNat r.toNat imm.toNat s)

end Sys2Proof.Machine
end

