-- ==== Sys2Proof/Machine/Slots.lean ====
section
/-!
DEFINITION. Output slots and held codes (R310 to R313).
-/
namespace Sys2Proof.Machine
open Sys2Proof

/-- CMN_GROUPg enables a loop group (R188, R189). -/
def loopGroup (s : State) (g : Nat) : Bool := decide (1 ≤ g ∧ g ≤ 255) && getf s (groupR g) 31 30 == 3

/-- The enabled loop group on which a buffer is pinned for loop work (R194). -/
def loopPin (s : State) (id : Nat) : Option Nat :=
  match findHandle s id with
  | some h => match h.pin with
    | some p => if p.tier = 0 ∧ p.group ∧ loopGroup s p.affinity then some p.affinity else none
    | none => none
  | none => none

/-- The value of R313's three checks, in their order: 0 when none fails. -/
def slotCode (s : State) (p k : Nat) : Nat :=
  let id := getf s (slotR p k 4) 31 0
  let off := getf s (slotR p k 8) 31 0
  if (loopPin s id).isNone then 0x030A
  else if off % 4 ≠ 0 ∨ handleSize s id < off + 4 then 0x0302
  else if !flagInRange s 0 (getf s (slotR p k 0x0C) 15 0) then 0x0305
  else 0

/-- The slot is enabled. -/
def slotOn (s : State) (p k : Nat) : Bool := getb s (slotR p k 0) 31

/-- Slot `k` marked as fired in cycle `n`. -/
def markFired (s : State) (p k n : Nat) : State := modPort s p fun x => { x with fired := smSet 0 k (n + 1) x.fired }

/-- SLOT_ENABLE: a write of SLOT_CTRL (R313). CONV is ignored while ENABLE is 1. A slot enabled when the count is already
past its point fires first in the next cycle (DEDUCED from R310). -/
def opSlotEnable (p k : Nat) (val : Word) (s : State) : State :=
  let r := slotR p k 0
  if slotOn s p k then
    plainWrite s r (BitVec.ofNat 32 (putFld val.toNat 27 24 (getf s r 27 24)))
  else
    let s := setb (plainWrite s r val) r 31 false
    if !val.getLsbD 31 then s
    else
      let c := slotCode s p k
      let s := setf s (slotR p k 0x1C) 15 0 c
      if c ≠ 0 then s
      else
        let s := setb s r 31 true
        if s.meridian.everStarted ∧ getf s r 23 0 ≤ mtrPhase s then markFired s p k s.meridian.cycleNo else s

/-- A write of another slot register: HANDLE, OFFSET and FLAG are ignored while ENABLE is 1. -/
def slotWrite (p k r : Nat) (v : Word) (s : State) : State :=
  if slotOn s p k ∧ (r = 4 ∨ r = 8) then s
  else if slotOn s p k ∧ r = 0x0C then
    plainWrite s (slotR p k r) (BitVec.ofNat 32 (putFld v.toNat 15 0 (getf s (slotR p k r) 15 0)))
  else plainWrite s (slotR p k r) v

/-- A slot above `k` that names the same converter has fired in this core cycle, so its code stands (R310). -/
def outranked (s : State) (p c k : Nat) : Bool :=
  (getPort s p).heldBy.any fun e => e.1 == c && e.2.2 == s.cycle && decide (k < e.2.1)

/-- A Q24 value made the held code of the slot's converter, to enter its frames 64 core cycles on (R310 to R312); of the
slots that fire in one core cycle the highest stands. -/
def holdCode (s : State) (p k v : Nat) : State :=
  let c := getf s (slotR p k 0) 27 24
  let now := s.cycle
  let s := if outranked s p c k then s else modPort s p fun x => { x with
    held := smSet 0 c (BitVec.ofNat 24 v) x.held
    heldBy := x.heldBy.filter (fun e => e.1 != c) ++ [(c, k, now)]
    coming := x.coming.filter (fun e => !(e.1 == c && e.2.1 == now + 64)) ++ [(c, now + 64, BitVec.ofNat 24 v)] }
  setf s (slotR p k 0x18) 23 0 v

/-- The slot's fallback (R311). -/
def slotFallback (s : State) (p k : Nat) : State :=
  if getb s (slotR p k 0) 30 then holdCode s p k (getf s (slotR p k 0x14) 23 0) else s

/-- DEADLINE_MISS of a slot in cycle `n` (R311). -/
def slotMiss (s : State) (p k n : Nat) : State :=
  let s := countUp s (lnkR p 0x600) 15 0
  let s := if getb s (lnkR p 0x600) 23 then s
    else setb (setf (setf s (lnkR p 0x600) 63 24 n) (lnkR p 0x600) 20 16 k) (lnkR p 0x600) 23 true
  logEntry (laneEvent s p 6) 0 0x0904 (p + 256 * k) n

/-- One firing of a slot in cycle `n` (R311). `bad`: the word cannot be corrected. -/
def fireSlot (s : State) (p k n : Nat) (bad : Bool) : State :=
  let id := getf s (slotR p k 4) 31 0
  let off := getf s (slotR p k 8) 31 0
  let expect := getf s (slotR p k 0x10) 31 0
  let ready := (loopPin s id).isSome && waitMet (flagVal s (getf s (slotR p k 0x0C) 15 0)) expect
  let s := markFired s p k n
  let s := setReg s (slotR p k 0x10) (BitVec.ofNat 32 (expect + getf s (slotR p k 0x0C) 31 16))
  if ready ∧ !bad then holdCode s p k (handleNat s id off 3)
  else
    let s := match findHandle s id with
      | some h => if ready then uncorrectable s h off else s
      | none => s
    slotMiss (slotFallback s p k) p k n

/-- Slot `k` has not fired in cycle `n`. -/
def unfired (s : State) (p k n : Nat) : Bool := slotOn s p k && smGet 0 k (getPort s p).fired != n + 1

/-- SLOT_FIRE (R310, R311). -/
def opSlotFire (p k : Nat) (bad : Bool) (s : State) : State :=
  if s.meridian.running ∧ unfired s p k s.meridian.cycleNo ∧ getf s (slotR p k 0) 23 0 ≤ mtrPhase s then
    fireSlot s p k s.meridian.cycleNo bad
  else s

/-- Every slot whose point of cycle `n` a jump passes fires, in slot number order (R310). `bad`: the slots, by
8 × slot + port, whose word cannot be corrected (R311). -/
def fireAll (s : State) (n : Nat) (bad : List Nat) : State :=
  (List.range 256).foldl (fun s i =>
    if unfired s (i % 8) (i / 8) n then fireSlot s (i % 8) (i / 8) n (bad.contains i) else s) s

/-- Every enabled slot takes its fallback (R318). -/
def fallbackAll (s : State) : State :=
  (List.range 256).foldl (fun s i => if slotOn s (i % 8) (i / 8) then slotFallback s (i % 8) (i / 8) else s) s

/-- The code that frames carry for a held code (R312): N bits, ties to even, saturating, in the top of N' bits. -/
def sentOf (n np : Nat) (v : BitVec 24) : Nat :=
  let x := rneShift v.toInt (24 - n)
  let x := if 2 ^ (n - 1) - 1 < x then 2 ^ (n - 1) - 1 else x
  intBits n x <<< (np - n)

/-- The held code that a frame at core cycle `now` carries for a converter: the latest one whose 64 cycles have passed. -/
def liveCode (x : Port) (c now : Nat) : BitVec 24 :=
  match (x.coming.filter fun e => e.1 == c && decide (e.2.1 ≤ now)).getLast? with
  | some e => e.2.2
  | none => smGet 0 c x.live

/-- HELD_CODE_UPDATE: a frame boundary (R312). -/
def opHeldCodeUpdate (p c : Nat) (s : State) : State :=
  let q := linkParams s p true
  if txState s p ≠ 3 ∨ q.m ≤ c then s
  else
    let now := s.cycle
    let h := liveCode (getPort s p) c now
    let v := sentOf q.n q.np h
    emit (modPort s p fun x => { x with
      live := smSet 0 c h x.live, coming := x.coming.filter (fun e => !(e.1 == c && decide (e.2.1 ≤ now))),
      sentCode := smSet 0 c v x.sentCode }) (.daCode p c v)

/-- SLOT_ENABLE. -/
def execSlotEnable (p : PortIx) (k : BitVec 5) (v : Word) (s : State) : Host.Outcome State Fault Refusal :=
  .next (opSlotEnable p.toNat k.toNat v s)
/-- SLOT_FIRE. -/
def execSlotFire (p : PortIx) (k : BitVec 5) (bad : Bool) (s : State) : Host.Outcome State Fault Refusal :=
  .next (opSlotFire p.toNat k.toNat bad s)
/-- HELD_CODE_UPDATE. -/
def execHeldCodeUpdate (p : PortIx) (c : BitVec 4) (s : State) : Host.Outcome State Fault Refusal :=
  .next (opHeldCodeUpdate p.toNat c.toNat s)

end Sys2Proof.Machine
end

