-- ==== Sys2Proof/Machine/Meridian.lean ====
section
/-!
DEFINITION. The meridian and the weight swaps (R314 to R324, R483).
-/
namespace Sys2Proof.Machine
open Sys2Proof

/-- MTR_STATUS.STATE set. -/
def setMtrState (s : State) (x : Nat) : State := setf s Reg.mtrStatus 31 29 x

/-- The meridian's inner state changed. -/
def modMtr (s : State) (f : Meridian → Meridian) : State := { s with meridian := f s.meridian }

/-- MTR_CFG_WRITE (R318, R319, R325). -/
def opMtrCfgWrite (val : Nat) (s : State) : State :=
  let on := getb s Reg.mtrCfg 63
  let t := fld val 24 0
  let keep := on || t == 0 || decide (2 ^ 24 < t)
  let v := putFld (if keep then putFld val 24 0 (mtrTicks s) else val) 63 63 0
  let go := bitOf val 63 && fld v 24 0 != 0
  let s := plainWrite64 s Reg.mtrCfg (putFld v 63 63 (b2n go))
  if go = on then s
  else if go then
    setReg (setMtrState (modMtr s fun m => { m with prevZero := none, d := none, running := false, errors := 0 }) 0)
      Reg.tickPeriod 0
  else
    -- the count stops and keeps its value (R319)
    let ph := mtrPhase s
    setReg (setMtrState (modMtr s fun m => { m with phase := ph, running := false, prevZero := none, d := none }) 0)
      Reg.tickPeriod 0

/-- MERIDIAN_LOST entered (R318, R483): the count held, every enabled slot at its fallback. -/
def goLost (s : State) : State :=
  let ph := mtrPhase s
  let s := setMtrState (modMtr s fun m => { m with phase := ph, running := false }) 3
  fallbackAll (logEntry (meridianEvent s 27) 0 0x0906 0 s.meridian.cycleNo)

/-- The locked state entered (R318): a descriptor that was ready before has this cycle as its ready cycle (R320). -/
def goLocked (s : State) : State :=
  let n := s.meridian.cycleNo
  mapRuns (fun _ _ _ _ r => if r.ready.isSome ∧ r.readyCycle = none then { r with readyCycle := some n } else r)
    (setMtrState s 2)

/-- The count starts to run at tick 0 (R318, R319). -/
def startCount (s : State) (bad : List Nat) : State :=
  let s := if s.meridian.everStarted then fireAll s s.meridian.cycleNo bad else s
  let now := s.cycle
  let s := modMtr s fun m => { m with
    cycleNo := if m.everStarted then (m.cycleNo + 1) % 2 ^ 40 else 0
    phase := 0, tick := 0, tickCycle := now, d := none, errors := 0, everStarted := true, running := true }
  setReg (setMtrState s 1) Reg.tickPeriod 0

/-- A new cycle after `j` ticks; `good`: the cycle had exactly T ticks and ZERO (R316, R318, R483). -/
def newCycle (s : State) (j : Nat) (good : Bool) (bad : List Nat) : State :=
  let s := fireAll s s.meridian.cycleNo bad
  let s := modMtr s fun m => { m with cycleNo := (m.cycleNo + 1) % 2 ^ 40, phase := 0, tick := 0,
                                       errors := if good then 0 else m.errors + 1 }
  let s := setf s Reg.mtrStatus 24 0 j
  if good then (if mtrState s = 1 then goLocked s else s)
  else
    let s := logEntry (meridianEvent s 28) 0 0x0907 0 s.meridian.cycleNo
    if max 1 (getf s Reg.mtrCfg 47 40) ≤ s.meridian.errors then goLost s else s

/-- MERIDIAN_TICK with the sampled level of ZERO (R314, R316 to R318); `bad`: the slots whose word cannot be corrected, of
those that fire at a jump (R311). In the lost state D goes on being the interval of the two most recent ticks. -/
def opMeridianTick (zero : Bool) (bad : List Nat) (s : State) : State :=
  if !getb s Reg.mtrCfg 63 then s
  else
    let first := zero && s.meridian.prevZero == some false
    let s := modMtr s fun m => { m with prevZero := some zero }
    if !s.meridian.running then
      (if first then startCount s bad
       else if mtrState s ≠ 3 then s
       else
         let d := s.cycle - s.meridian.tickCycle
         let now := s.cycle
         setReg (modMtr s fun m => { m with d := some d, tickCycle := now }) Reg.tickPeriod (BitVec.ofNat 32 d))
    else
      let i := s.meridian.tick + 1
      let d := s.cycle - s.meridian.tickCycle
      let now := s.cycle
      let s := setReg s Reg.tickPeriod (BitVec.ofNat 32 d)
      let ph := mtrPhase s
      let s := modMtr s fun m => { m with phase := ph, d := some d, tickCycle := now }
      if first then newCycle s i (i == mtrTicks s) bad
      else if i = mtrTicks s then newCycle s i false bad
      else
        let p := tickPhase (mtrTicks s) i
        modMtr s fun m => { m with tick := i, phase := p }

/-- MERIDIAN_LOST: no tick for TIMEOUT_MULT × D core cycles (R318). -/
def opMeridianLost (s : State) : State :=
  match s.meridian.d with
  | some d =>
    if s.meridian.running ∧ s.meridian.tickCycle + max 2 (getf s Reg.mtrCfg 39 32) * d ≤ s.cycle then goLost s else s
  | none => s

/-! Swaps. -/

/-- SWAP_ENABLE's checks (R322): the code, 0 when none fails. A member that is not allocated, or not resident for the
other's loop group, is LOOP_RESIDENCY and unequal sizes are BOUNDS (DEDUCED: the manual names the two codes only). -/
def swapCode (s : State) (p : Nat) : Nat :=
  let a := getf s (swapR p 4) 31 0
  let b := getf s (swapR p 8) 31 0
  if (findHandle s a).isNone ∨ (findHandle s b).isNone then 0x030A
  else if handleSize s a ≠ handleSize s b then 0x0302
  else if (loopPin s a).isSome ∧ loopPin s a = loopPin s b then 0 else 0x030A

/-- SWAP_ENABLE: a write of SWAP_CTRL. -/
def opSwapEnable (p : Nat) (val : Word) (s : State) : State :=
  let r := swapR p 0
  if getb s r 31 then plainWrite s r val
  else
    let s := setb (plainWrite s r val) r 31 false
    if !val.getLsbD 31 then s
    else
      let c := swapCode s p
      let s := setf s (swapR p 0x0C) 15 0 c
      if c = 0 then setb s r 31 true else s

/-- SWAP_A or SWAP_B, ignored while ENABLE is 1 (R322). -/
def swapMemberWrite (p r : Nat) (v : Word) (s : State) : State :=
  if getb s (swapR p 0) 31 then s else plainWrite s (swapR p r) v

/-- SWAP_CYCLE_WRITE (R323). -/
def opSwapCycleWrite (p c : Nat) (s : State) : State :=
  if getb s (swapR p 0) 29 then setf s (swapR p 0x0C) 15 0 0x090B
  else
    let s := plainWrite64 s (swapR p 0x10) c
    let c := getf s (swapR p 0x10) 39 0
    if c ≤ s.meridian.cycleNo then setf s (swapR p 0x0C) 15 0 0x090C
    else setb (setb (setf s (swapR p 0x0C) 15 0 0) (swapR p 0) 28 false) (swapR p 0) 29 true

/-- Member `b` of a pair. -/
def swapMember (s : State) (p : Nat) (b : Bool) : Nat := getf s (swapR p (if b then 8 else 4)) 31 0

/-- The active member of the enabled pair that a handle belongs to (R322). -/
def activeMember (s : State) (h : Nat) : Option Nat :=
  ((List.range 16).find? fun p => getb s (swapR p 0) 31 && (h == swapMember s p false || h == swapMember s p true)).map
    fun p => swapMember s p (getb s (swapR p 0) 30)

/-- SWAP_INVERSION (R323). -/
def opSwapInversion (p : Nat) (s : State) : State :=
  if getb s (swapR p 0) 29 ∧ getf s (swapR p 0x10) 39 0 ≤ s.meridian.cycleNo then
    let b := getb s (swapR p 0) 30
    let old := swapMember s p b
    let s := setb (setb s (swapR p 0) 30 (!b)) (swapR p 0) 29 false
    { s with swapOld := smSet 0 p old s.swapOld }
  else s

/-- A running descriptor reads a handle, as a swap member or as its view names it (R322, R324). -/
def readsMember (s : State) (h : Nat) : Bool :=
  s.alms.any fun x => x.2.subs.any fun sb => sb.runs.any fun r =>
    (r.phase == .running || r.phase == .computed) && r.reads.contains h

/-- SWAP_DRAINED (R324). -/
def opSwapDrained (p : Nat) (s : State) : State :=
  let old := smGet 0 p s.swapOld
  if old ≠ 0 ∧ !readsMember s old then
    let s := setb { s with swapOld := smSet 0 p 0 s.swapOld } (swapR p 0) 28 true
    let f := getf s (swapR p 0) 15 0
    if getb s (swapR p 0) 16 then addFlag s f 1 (smGet Setter.none f s.setters) else s
  else s

/-- MTR_CFG_WRITE. -/
def execMtrCfgWrite (v : DWord) (s : State) : Host.Outcome State Fault Refusal := .next (opMtrCfgWrite v.toNat s)
/-- MERIDIAN_TICK. -/
def execMeridianTick (zero : Bool) (bad : List (BitVec 8)) (s : State) : Host.Outcome State Fault Refusal :=
  .next (opMeridianTick zero (bad.map (·.toNat)) s)
/-- MERIDIAN_LOST. -/
def execMeridianLost (s : State) : Host.Outcome State Fault Refusal := .next (opMeridianLost s)
/-- SWAP_ENABLE. -/
def execSwapEnable (p : BitVec 4) (v : Word) (s : State) : Host.Outcome State Fault Refusal :=
  .next (opSwapEnable p.toNat v s)
/-- SWAP_CYCLE_WRITE. -/
def execSwapCycleWrite (p : BitVec 4) (c : DWord) (s : State) : Host.Outcome State Fault Refusal :=
  .next (opSwapCycleWrite p.toNat c.toNat s)
/-- SWAP_INVERSION. -/
def execSwapInversion (p : BitVec 4) (s : State) : Host.Outcome State Fault Refusal := .next (opSwapInversion p.toNat s)
/-- SWAP_DRAINED. -/
def execSwapDrained (p : BitVec 4) (s : State) : Host.Outcome State Fault Refusal := .next (opSwapDrained p.toNat s)

end Sys2Proof.Machine
end

