-- ==== Sys2Proof/Machine/Bus.lean ====
section
/-!
DEFINITION. Writes into the LNK_ and MTR_ blocks, wherever they come from, and writes through a handle: memory, a plot's
address window, or a register range (R273).
-/
namespace Sys2Proof.Machine
open Sys2Proof

/-- The register at an offset is 64 bits wide, and the offset is its low word's. -/
def isWideLow (off : Nat) : Bool := match findRow regRows off with
  | some (r, _, _, k) => r.wide && k == 0
  | none => false

/-- The offset is a 64-bit register's high word. -/
def isWideHigh (off : Nat) : Bool := match findRow regRows off with
  | some (r, _, _, k) => r.wide && k == 1
  | none => false

/-- A whole write of one register of a port's window. -/
def lnkWrite (p k v : Nat) (s : State) : State :=
  let w := BitVec.ofNat 32 v
  if k = 0 then opLinkEnable p false v s
  else if k = 8 then opLinkEnable p true v s
  else if k = 0x10 then clkCfgWrite p w s
  else if k = 0x18 then rewritten 0 259 laneCond (fun s => plainWrite s (lnkR p k) w) s
  else if k = 0x100 then opFecRun p w s
  else if k = 0x108 then frameRingWrite p v s
  else if 0x200 ≤ k ∧ k < 0x600 then
    (if k % 32 = 0 then opSlotEnable p ((k - 0x200) / 32) w s else slotWrite p ((k - 0x200) / 32) (k % 32) w s)
  else if 0x8000 ≤ k then xWrite p ((k - 0x8000) / 4) w s
  else if isWideLow (lnkR p k) then plainWrite64 s (lnkR p k) v
  else plainWrite s (lnkR p k) w

/-- A whole write of one register of the MTR_ block. -/
def mtrWrite (off v : Nat) (s : State) : State :=
  let w := BitVec.ofNat 32 v
  if off = Reg.mtrCfg then opMtrCfgWrite v s
  else if off = Reg.mtrStatus then rewritten 0 259 laneCond (fun s => plainWrite s off w) s
  else if 0x400100 ≤ off ∧ off < 0x400300 then
    let p := (off - 0x400100) / 32
    (if off % 32 = 0 then opSwapEnable p w s
     else if off % 32 = 4 ∨ off % 32 = 8 then swapMemberWrite p (off % 32) w s
     else if off % 32 = 0x10 then opSwapCycleWrite p v s
     else plainWrite s off w)
  else plainWrite s off w

/-- A whole write of one register of the LNK_ or MTR_ block: `v` is 64 bits for a 64-bit register. -/
def instrWrite (off v : Nat) (s : State) : State :=
  if 0x300000 ≤ off ∧ off < 0x380000 then lnkWrite ((off - 0x300000) / 0x10000) (off % 0x10000) v s
  else if off = Reg.sysref then opSysrefArm (BitVec.ofNat 32 v) s
  else if 0x400000 ≤ off ∧ off < 0x500000 then mtrWrite off v s
  else s

/-- A 32-bit word written into the LNK_ or MTR_ block; a half of a 64-bit register takes the other half as it stands. -/
def instrWord (off v : Nat) (s : State) : State :=
  if isWideLow off then instrWrite off (v % 2 ^ 32 + 2 ^ 32 * (readReg s (off + 4)).toNat) s
  else if isWideHigh off then instrWrite (off - 4) ((readReg s (off - 4)).toNat + 2 ^ 32 * (v % 2 ^ 32)) s
  else instrWrite off v s

/-- Bytes written into a register range: whole aligned registers take them, and a part of a word is discarded (R4). -/
def instrBytes : Nat → Nat → List Byte → State → State
  | 0, _, _, s => s
  | n + 1, off, bs, s =>
    if bs = [] then s
    else if off % 8 = 0 ∧ isWideLow off ∧ 8 ≤ bs.length then
      instrBytes n (off + 8) (bs.drop 8) (instrWrite off (leNat (bs.take 8)) s)
    else if off % 4 = 0 ∧ 4 ≤ bs.length then
      instrBytes n (off + 4) (bs.drop 4) (instrWord off (leNat (bs.take 4)) s)
    else instrBytes n (off + 1) (bs.drop 1) s

/-- Bytes written through a handle (R273); what another module's window handle names stands outside this model. -/
def handleWrite (s : State) (h : Handle) (off : Nat) (bs : List Byte) : State :=
  if h.kind = 0 then memWrite s h off bs
  else if h.home ≠ ownId s then noteWritten s h off bs.length
  else if h.kind = 1 then emit s (.plotRequest h.plot (h.winOffset + off) (.write bs))
  else instrBytes bs.length (h.winOffset + off) bs s

/-- The plot is online and its port is open: a PLOT reset closes it until the plot is released again (R345, R346). -/
def plotServes (s : State) (p : Nat) : Bool := getf s (pltR p 4) 31 29 == 1 && !(getPlot s p).releasing

/-- A plot that a window handle names is online, or the handle names no plot of this module (R347). -/
def plotOpen (s : State) (h : Handle) : Bool :=
  h.kind != 1 || h.home != ownId s || plotServes s h.plot

end Sys2Proof.Machine
end

