-- ==== Sys2Proof/Machine/VeCore.lean ====
section
/-!
DEFINITION. The vector engine (R108 to R120): what each instruction reads, writes and computes, its issue with the fixed
latencies, the hazard checker, loops, and the decoding and checking of micro-program words.
-/
namespace Sys2Proof.Machine
open Sys2Proof

/-- 64 lanes of zero. -/
def lanes0 : List Word := List.replicate 64 0

/-- V register `r`. -/
def Ve.getV (ve : Ve) (r : Nat) : List Word := smGet lanes0 r ve.v
/-- M register `r`. -/
def Ve.getM (ve : Ve) (r : Nat) : BitVec 64 := smGet 0 r ve.m
/-- Address register `r`. -/
def Ve.getA (ve : Ve) (r : Nat) : VeAddr := smGet ⟨0, 0, 0⟩ r ve.a

/-- What an instruction computes. -/
structure VeVal where
  lanes : List Word
  mask : BitVec 64
  addr : Int
  flags : Nat

/-- How an instruction leaves the program counter. -/
inductive VeCtl where
  | plain
  | stop
  | loop (count body : Nat)

/-- An instruction: the registers it reads, the memory it touches (address register, granule offset, granules, store),
its destination and latency, what it computes from the registers and the loaded bytes, and its control. -/
structure VeAction where
  reads : List VeDest
  mem : Option (Nat × Int × Nat × Bool)
  dest : Option VeDest
  lat : Nat
  val : Ve → List Byte → VeVal
  ctl : VeCtl

/-- An instruction that computes nothing. -/
def veNothing : Ve → List Byte → VeVal := fun _ _ => ⟨[], 0, 0, 0⟩

/-- The lanes and flags of a lane-wise function of two registers. -/
def veLanes2 (f : Word → Word → Word × Nat) (a b : List Word) : VeVal :=
  let r := List.zipWith f a b
  ⟨r.map (·.1), 0, 0, r.foldl (fun x y => x ||| y.2) 0⟩

/-- A number as canonical binary32 bits (R111). -/
def bits32 (v : Num) : Word := BitVec.ofNat 32 (convert 1 true v).1

/-- A binary32 lane as a number. -/
def num32 (w : Word) : Num := decodeNum 1 w.toNat

/-- A VE result: OVERFLOW, UNDERFLOW, INVALID and NAN_IN only (R111). -/
def veRes (r : Num × Nat) : Word × Nat := (bits32 r.1, r.2 &&& 23)

/-- VA + VB (R111). -/
def laneAdd (a b : Word) : Word × Nat := veRes (addNum 1 false (num32 a) (num32 b))
/-- VA − VB (R111). -/
def laneSub (a b : Word) : Word × Nat := veRes (addNum 1 false (num32 a) (negNum (num32 b)))
/-- VA × VB (R111). -/
def laneMul (a b : Word) : Word × Nat :=
  match mulExact (num32 a) (num32 b) with
  | (.fin n m e, fl) => let (v, f2) := roundIeee 1 false n m e; veRes (v, fl ||| f2)
  | r => veRes r
/-- VA × VB + VC rounded once (R111). -/
def laneFma (a b c : Word) : Word × Nat :=
  match mulExact (num32 a) (num32 b) with
  | (p, fl) => let (v, f2) := addNum 1 false p (num32 c); veRes (v, if p = .nan then fl ||| nanFlag (num32 c) (num32 c) else fl ||| f2)
/-- FMAX and FMIN (R70, R71). -/
def lanePick (isMax : Bool) (a b : Word) : Word × Nat :=
  veRes (pickNum isMax (num32 a) (num32 b), nanFlag (num32 a) (num32 b))
/-- A special function of one lane (R113). -/
def laneFun (f : Num → Num × Nat) (a : Word) : Word × Nat := veRes (f (num32 a))

/-- FABS: the sign cleared; a NaN is the canonical NaN (R111). -/
def laneAbs (a : Word) : Word × Nat := veRes (absNum (num32 a), nanFlag (num32 a) (num32 a))
/-- FNEG: the sign inverted; a NaN is the canonical NaN (R111). -/
def laneNeg (a : Word) : Word × Nat := veRes (negNum (num32 a), nanFlag (num32 a) (num32 a))

/-- FCMP: EQ, LT, LE, NE; a NaN makes EQ, LT and LE false and NE true (R116). -/
def laneCmp (code : Nat) (a b : Word) : Bool × Nat :=
  let x := num32 a
  let y := num32 b
  if (x = .nan ∨ y = .nan) ∧ code ≤ 3 then (code == 3, fNan) else
  let zx := match x with | .fin _ m _ => m == 0 | _ => false
  let zy := match y with | .fin _ m _ => m == 0 | _ => false
  let lt := if zx && zy then false else numLt x y
  let gt := if zx && zy then false else numLt y x
  (match code with
    | 0 => !lt && !gt
    | 1 => lt
    | 2 => !gt
    | 3 => lt || gt
    | _ => Config.cmpOther code a b, 0)

/-- Pairs of neighbours combined (R114). -/
def pairUp (f : Word → Word → Word × Nat) : List Word → List Word × Nat
  | a :: b :: t =>
    let (v, fl) := f a b
    let (r, fl') := pairUp f t
    (v :: r, fl ||| fl')
  | l => (l, 0)

/-- `n` levels of the pairwise tree (R114). -/
def treeUp (f : Word → Word → Word × Nat) : Nat → List Word → Nat → List Word × Nat
  | 0, l, fl => (l, fl)
  | n + 1, l, fl => let (l', g) := pairUp f l; treeUp f n l' (fl ||| g)

/-- The 64 lanes reduced by six levels and written to every lane (R114). DEDUCED (log entry 111): each of LSUM's additions
is an IEEE addition of its own, so a NaN that ∞ − ∞ makes at one level is a NaN source of the next, which raises NAN_IN. -/
def laneTree (f : Word → Word → Word × Nat) (a : List Word) : VeVal :=
  let (r, fl) := treeUp f 6 a 0
  ⟨List.replicate 64 (r.headD 0), 0, 0, fl⟩

/-- The bytes of 64 lanes, lane 0 first. -/
def laneBytes (l : List Word) : List Byte := l.flatMap fun w => leBytes 4 w.toNat

/-- 64 lanes from bytes, zero past the end. -/
def bytesLanes (b : List Byte) : List Word :=
  (List.range 64).map fun i => BitVec.ofNat 32 (leNat ((b.drop (4 * i)).take 4))

/-- Element `i` of a packed run of elements of `w` bits (R47): bits [w·i + w − 1 : w·i] of the bytes. -/
def packedGet (w : Nat) (n i : Nat) : Nat := n / 2 ^ (w * i) % 2 ^ w

/-- 64 elements of `w` bits packed (R47). -/
def packElems (w : Nat) (l : List Nat) : Nat := l.foldr (fun x acc => x % 2 ^ w + 2 ^ w * acc) 0

/-- The lanes of a result in a format (R115): packed when the format has 16 bits or fewer. -/
def laneResult (f : Nat) (l : List Nat) : List Word :=
  if fmtBits f ≤ 16 then bytesLanes (leBytes 256 (packElems (fmtBits f) l))
  else l.map fun x => BitVec.ofNat 32 x

/-- The lanes of a source in a format (R115), as element bits. -/
def laneSource (f : Nat) (l : List Word) : List Nat :=
  if fmtBits f ≤ 16 then
    let n := leNat (laneBytes l)
    (List.range 64).map fun i => packedGet (fmtBits f) n i
  else l.map BitVec.toNat

/-- Results with their flags. -/
def valOf (f : Nat) (r : List (Nat × Nat)) : VeVal :=
  ⟨laneResult f (r.map (·.1)), 0, 0, r.foldl (fun x y => x ||| y.2) 0⟩

/-- Two-source lane instruction. -/
def actR2 (lat : Nat) (f : Word → Word → Word × Nat) (vd va vb : Nat) : VeAction :=
  ⟨[.v va, .v vb], none, some (.v vd), lat, fun ve _ => veLanes2 f (ve.getV va) (ve.getV vb), .plain⟩
/-- One-source lane instruction. -/
def actR1 (lat : Nat) (f : Word → Word × Nat) (vd va : Nat) : VeAction :=
  ⟨[.v va], none, some (.v vd), lat, fun ve _ => veLanes2 (fun a _ => f a) (ve.getV va) (ve.getV va), .plain⟩

/-- NOP (R116). -/
def actNop : VeAction := ⟨[], none, none, 0, veNothing, .plain⟩
/-- END (R116). -/
def actEnd : VeAction := ⟨[], none, none, 0, veNothing, .stop⟩
/-- LOOP (R117). -/
def actLoop (count body : Nat) : VeAction := ⟨[], none, none, 0, veNothing, .loop count body⟩
/-- VLD (R116). -/
def actVld (v areg : Nat) (off : Int) : VeAction :=
  ⟨[.a areg], some (areg, off, 4, false), some (.v v), 8, fun _ b => ⟨bytesLanes b, 0, 0, 0⟩, .plain⟩
/-- VST (R116). -/
def actVst (v areg : Nat) (off : Int) : VeAction :=
  ⟨[.v v, .a areg], some (areg, off, 4, true), none, 0, fun ve _ => ⟨ve.getV v, 0, 0, 0⟩, .plain⟩
/-- VLDB: [15:4] signed granule offset, [3:0] word within the granule (R116). -/
def actVldb (v areg : Nat) (off : Nat) : VeAction :=
  ⟨[.a areg], some (areg, sx 12 (off / 16), 1, false), some (.v v), 8,
    fun _ b => ⟨List.replicate 64 (BitVec.ofNat 32 (leNat ((b.drop (4 * (off % 16))).take 4))), 0, 0, 0⟩, .plain⟩
/-- ASET: base plus IMM unsigned (R116). -/
def actAset (areg imm : Nat) : VeAction :=
  ⟨[], none, some (.a areg), 1, fun ve _ => ⟨[], 0, (ve.getA areg).base + imm, 0⟩, .plain⟩
/-- AINC: plus IMM signed (R116). -/
def actAinc (areg imm : Nat) : VeAction :=
  ⟨[.a areg], none, some (.a areg), 1, fun ve _ => ⟨[], 0, (ve.getA areg).val + sx 16 imm, 0⟩, .plain⟩
/-- FADD. -/
def actFadd (vd va vb : Nat) : VeAction := actR2 4 laneAdd vd va vb
/-- FSUB. -/
def actFsub (vd va vb : Nat) : VeAction := actR2 4 laneSub vd va vb
/-- FMUL. -/
def actFmul (vd va vb : Nat) : VeAction := actR2 4 laneMul vd va vb
/-- FFMA. -/
def actFfma (vd va vb vc : Nat) : VeAction :=
  ⟨[.v va, .v vb, .v vc], none, some (.v vd), 5, fun ve _ =>
    let r := List.zipWith (fun (p : Word × Word) c => laneFma p.1 p.2 c) ((ve.getV va).zip (ve.getV vb)) (ve.getV vc)
    ⟨r.map (·.1), 0, 0, r.foldl (fun x y => x ||| y.2) 0⟩, .plain⟩
/-- FMAX. -/
def actFmax (vd va vb : Nat) : VeAction := actR2 2 (lanePick true) vd va vb
/-- FMIN. -/
def actFmin (vd va vb : Nat) : VeAction := actR2 2 (lanePick false) vd va vb
/-- FABS. -/
def actFabs (vd va : Nat) : VeAction := actR1 1 laneAbs vd va
/-- FNEG. -/
def actFneg (vd va : Nat) : VeAction := actR1 1 laneNeg vd va
/-- FCMP. -/
def actFcmp (md va vb code : Nat) : VeAction :=
  ⟨[.v va, .v vb], none, some (.m md), 2, fun ve _ =>
    let r := List.zipWith (laneCmp code) (ve.getV va) (ve.getV vb)
    ⟨[], BitVec.ofNat 64 (r.foldr (fun x acc => b2n x.1 + 2 * acc) 0), 0, r.foldl (fun x y => x ||| y.2) 0⟩, .plain⟩
/-- SEL. -/
def actSel (vd ms va vb : Nat) : VeAction :=
  ⟨[.v va, .v vb, .m ms], none, some (.v vd), 1, fun ve _ =>
    let m := ve.getM ms
    ⟨((ve.getV va).zip (ve.getV vb)).mapIdx fun i p => if m.getLsbD i then p.1 else p.2, 0, 0, 0⟩, .plain⟩
/-- IADD. -/
def actIadd (vd va vb : Nat) : VeAction := actR2 1 (fun a b => (a + b, 0)) vd va vb
/-- ISUB. -/
def actIsub (vd va vb : Nat) : VeAction := actR2 1 (fun a b => (a - b, 0)) vd va vb
/-- IMUL. -/
def actImul (vd va vb : Nat) : VeAction := actR2 3 (fun a b => (a * b, 0)) vd va vb
/-- AND. -/
def actAnd (vd va vb : Nat) : VeAction := actR2 1 (fun a b => (a &&& b, 0)) vd va vb
/-- OR. -/
def actOr (vd va vb : Nat) : VeAction := actR2 1 (fun a b => (a ||| b, 0)) vd va vb
/-- XOR. -/
def actXor (vd va vb : Nat) : VeAction := actR2 1 (fun a b => (a ^^^ b, 0)) vd va vb
/-- SHL by IMM[4:0]. -/
def actShl (vd va imm : Nat) : VeAction := actR1 1 (fun a => (a <<< (imm % 32), 0)) vd va
/-- SHR by IMM[4:0], arithmetic when IMM[5] is 1. -/
def actShr (vd va imm : Nat) : VeAction :=
  actR1 1 (fun a => (if imm.testBit 5 then a.sshiftRight (imm % 32) else a >>> (imm % 32), 0)) vd va
/-- FRCP. -/
def actFrcp (vd va : Nat) : VeAction := actR1 6 (laneFun frcpNum) vd va
/-- FRSQ. -/
def actFrsq (vd va : Nat) : VeAction := actR1 6 (laneFun frsqNum) vd va
/-- FEXP2. -/
def actFexp2 (vd va : Nat) : VeAction := actR1 8 (laneFun fexp2Num) vd va
/-- FLOG2. -/
def actFlog2 (vd va : Nat) : VeAction := actR1 8 (laneFun flog2Num) vd va
/-- FTANH. -/
def actFtanh (vd va : Nat) : VeAction := actR1 10 (laneFun ftanhNum) vd va
/-- LSUM (R114). -/
def actLsum (vd va : Nat) : VeAction :=
  ⟨[.v va], none, some (.v vd), 7, fun ve _ => laneTree laneAdd (ve.getV va), .plain⟩
/-- LMAX (R114). -/
def actLmax (vd va : Nat) : VeAction :=
  ⟨[.v va], none, some (.v vd), 5, fun ve _ => laneTree (lanePick true) (ve.getV va), .plain⟩
/-- LBCAST. -/
def actLbcast (vd va lane : Nat) : VeAction :=
  ⟨[.v va], none, some (.v vd), 2, fun ve _ =>
    ⟨List.replicate 64 (((ve.getV va).drop lane).headD 0), 0, 0, 0⟩, .plain⟩
/-- CVT (R115). R115 gives FP64 no place in a 32-bit lane: with FROM or TO FP64 every lane and its flags are free. -/
def actCvt (vd va src dst : Nat) (inf : Bool) : VeAction :=
  ⟨[.v va], none, some (.v vd), 4, fun ve _ =>
    if src = 0 ∨ dst = 0 then
      veLanes2 (fun a _ => (Config.cvtWide src dst a, (Config.cvtWideFlags src dst a).toNat)) (ve.getV va) (ve.getV va)
    else valOf dst ((laneSource src (ve.getV va)).map fun x => convert dst inf (decodeNum src x)), .plain⟩
/-- CVTS (R115): VB bits [7:0] hold each lane's scale byte. -/
def actCvts (vd va vb dst : Nat) : VeAction :=
  ⟨[.v va, .v vb], none, some (.v vd), 4, fun ve _ =>
    valOf dst (List.zipWith (fun (a b : Word) => convertScaled dst (b.toNat % 256) (num32 a)) (ve.getV va) (ve.getV vb)),
    .plain⟩
/-- SCALE (R115). DESIGN CHOICE (log entry 112): it raises no flag, for a NaN lane neither: choose_scale of R82 answers 0xFF
there, which is a result like any other. -/
def actScale (vd va dst : Nat) : VeAction := actR1 3 (fun a => (BitVec.ofNat 32 (chooseScale a.toNat dst), 0)) vd va
/-- A user operation 0x60 + u of a field tile with its latency (R351, R354). -/
def actUser (lat u vd va vb : Nat) : VeAction := actR2 lat (fun a b => (Config.userOp u a b, 0)) vd va vb

/-! Issue. -/

/-- A pending write taking effect. -/
def Ve.land (ve : Ve) (p : VePend) : Ve :=
  match p.dest with
  | .v r => { ve with v := smSet lanes0 r p.lanes ve.v }
  | .m r => { ve with m := smSet 0 r p.mask ve.m }
  | .a r => { ve with a := smSet ⟨0, 0, 0⟩ r { ve.getA r with val := p.addr } ve.a }

/-- Every write whose time has come takes effect, in order of issue (R110). -/
def Ve.settle (ve : Ve) : Ve :=
  let due := ve.pend.filter fun p => decide (p.due ≤ ve.cyc)
  let ve := { ve with pend := ve.pend.filter fun p => decide (ve.cyc < p.due) }
  due.foldl Ve.land ve

/-- A granule's byte address; a granule below 0 holds nothing and is stopped by the bounds of R119. -/
def granAddr (g : Int) : Nat := 64 * g.toNat

/-- Every VST whose time has come put into tile store (R110). -/
def settleStores (ve : Ve) (store : List Host.Cell) (now : Nat) : Ve × List Host.Cell :=
  let due := ve.stores.filter fun p => decide (p.due ≤ now)
  let rest := ve.stores.filter fun p => decide (now < p.due)
  let gs := due.flatMap fun p => (List.range 4).map fun i => p.granule.toNat + i
  ({ ve with stores := rest, written := ve.written ++ gs },
    due.foldl (fun m p => wrBytes m (granAddr p.granule) (laneBytes p.lanes)) store)

/-- The program counter after the instruction at `p` is done: back edges of the loops that end there (R117). -/
def veAdvance (p : Nat) : List VeLoop → Nat × List VeLoop
  | [] => ((p + 1) % 512, [])
  | l :: t =>
    if p = l.last then
      if l.left > 1 then (l.first, { l with left := l.left - 1 } :: t)
      else veAdvance p t
    else ((p + 1) % 512, l :: t)

/-- The trap of R120 that an instruction meets: kind, register, mask register, cycles too early. DESIGN CHOICE (log entry
109): where several writes to the register pend, the cycles are counted to the last of them. -/
def veHazard (ve : Ve) (a : VeAction) : Option (Nat × Nat × Bool × Nat) :=
  let early := fun (d : VeDest) =>
    (ve.pend.filter fun p => decide (p.dest = d)).foldl (fun x p => max x (p.due - ve.cyc)) 0
  let regOf := fun (d : VeDest) => match d with | .v r => (r, false) | .m r => (r, true) | .a r => (r, false)
  match a.reads.find? fun d => decide (0 < early d) with
  | some d => some (1, (regOf d).1, (regOf d).2, early d)
  | none =>
    let memTrap := match a.mem with
      | some (areg, off, n, false) =>
        let lo := (ve.getA areg).val + off
        let hit := ve.stores.filter fun p => decide (p.granule < lo + n ∧ lo < p.granule + 4)
        let e := hit.foldl (fun x p => max x (p.due - ve.cyc)) 0
        if 0 < e then some (2, areg, false, e) else none
      | _ => none
    match memTrap with
    | some t => some t
    | none =>
      match a.dest with
      | some d =>
        if ve.pend.any fun p => decide (p.dest = d ∧ p.due = ve.cyc + a.lat) then some (3, (regOf d).1, (regOf d).2, 0)
        else none
      | none => none

/-- What an issue did beside the engine and the store: nothing, a trap of the checker, a bounds stop, the end. -/
inductive VeEvent where
  | ok
  | trap (kind reg : Nat) (mask : Bool) (early : Nat)
  | bounds
  | ended
  deriving DecidableEq, Repr

/-- One instruction issued (R110, R117, R119, R120). -/
def veIssue (ve : Ve) (store : List Host.Cell) (a : VeAction) : Ve × List Host.Cell × VeEvent :=
  let ve := ve.settle
  let (ve, store) := settleStores ve store ve.cyc
  match (if ve.checking then veHazard ve a else none) with
  | some (k, r, m, e) => ({ ve with running := none, failure := 0x0202 }, store, .trap k r m e)
  | none =>
    let out := match a.mem with
      | some (areg, off, n, st) =>
        let r := ve.getA areg
        let lo := r.val + off
        decide (lo < r.base ∨ (r.limit : Int) < lo + n) || (st && !ve.write.contains areg)
      | none => false
    if out then ({ ve with running := none, failure := 0x0203 }, store, .bounds)
    else
      let bytes := match a.mem with
        | some (areg, off, n, false) => rdBytes store (granAddr ((ve.getA areg).val + off)) (64 * n)
        | _ => []
      let x := a.val ve bytes
      let stores := match a.mem with
        | some (areg, off, _, true) => ve.stores ++ [⟨ve.cyc + 2, (ve.getA areg).val + off, x.lanes⟩]
        | _ => ve.stores
      let pend := match a.dest with
        | some d => ve.pend ++ [⟨ve.cyc + a.lat, d, x.lanes, x.mask, x.addr⟩]
        | none => ve.pend
      let ve := { ve with stores := stores, pend := pend, flags := ve.flags ||| x.flags, cyc := ve.cyc + 1 }
      match a.ctl with
      | .plain => let (pc, ls) := veAdvance ve.pc ve.loops; ({ ve with pc := pc, loops := ls }, store, .ok)
      | .loop count body =>
        if count = 0 ∨ body = 0 then
          let (pc, ls) := veAdvance (ve.pc + body) ve.loops
          ({ ve with pc := pc, loops := ls }, store, .ok)
        else
          let l : VeLoop := ⟨(ve.pc + 1) % 512, (ve.pc + body) % 512, count⟩
          ({ ve with pc := (ve.pc + 1) % 512, loops := l :: ve.loops }, store, .ok)
      | .stop =>
        let (ve, store) := settleStores ve store (ve.cyc + 2)
        ({ ve with running := none, pend := [], loops := [] }, store, .ended)

/-- The engine at the start of an invocation (R109): every V and M register zero, the address registers at the operands
with their extents, execution at the first instruction, checking as TILE_VE_CHK says, VST allowed on the operands with
their WRITE bit (R151). -/
def veStart (ve : Ve) (d : DescRef) (iter : Nat) (addrs : List (Nat × Nat)) (write : List Nat) (checking : Bool) : Ve :=
  { ve with running := some (d, iter), pc := 0, cyc := 0, v := [], m := [],
            a := addrs.mapIdx (fun i (p : Nat × Nat) => (i, (⟨(p.1 : Int), p.1, p.1 + p.2⟩ : VeAddr))),
            loops := [], pend := [], stores := [], written := [], write := write, flags := 0, checking := checking,
            failure := 0 }

/-! Micro-program words (R115, R116, R118). -/

/-- Formats that a SCALE or CVTS may name (R115). -/
def scaleFmt (f : Nat) : Bool := f == 5 || f == 6 || f == 7 || f == 8 || f == 9

/-- The instruction a word stands for; none for a reserved opcode, a reserved field that is not 0 or a breach of R115. A
user operation takes its latency from `lat` (R351). DEDUCED (log entry 110): an FCMP compare code of 4 to 7, and a FROM or
TO above 0xA in CVT, hold no encoding that R116 and R44 define; by R10 they are refused too, with R118's own code. -/
def veDecode (lat : Nat → Nat) (w : Nat) : Option VeAction :=
  let op := fld w 63 56
  let vd := fld w 55 50
  let va := fld w 49 44
  let vb := fld w 43 38
  let vc := fld w 37 32
  let md := fld w 31 29
  let ms := fld w 28 26
  let src := fld w 25 22
  let dst := fld w 21 18
  let ovf := fld w 17 17 == 1
  let imm := fld w 15 0
  let areg := fld w 49 47
  let rOk := fld w 16 16 == 0
  let mOk := fld w 46 16 == 0
  let aOk := fld w 55 50 == 0 && fld w 46 16 == 0
  let ifR := fun (a : VeAction) => if rOk then some a else none
  match op with
  | 0x00 => if w % 2 ^ 56 = 0 then some actNop else none
  | 0x01 => if w % 2 ^ 56 = 0 then some actEnd else none
  | 0x02 => if fld w 30 0 = 0 then some (actLoop (fld w 55 40) (fld w 39 31)) else none
  | 0x08 => if mOk then some (actVld vd areg (sx 16 imm)) else none
  | 0x09 => if mOk then some (actVst vd areg (sx 16 imm)) else none
  | 0x0A => if mOk then some (actVldb vd areg imm) else none
  | 0x0C => if aOk then some (actAset areg imm) else none
  | 0x0D => if aOk then some (actAinc areg imm) else none
  | 0x10 => ifR (actFadd vd va vb)
  | 0x11 => ifR (actFsub vd va vb)
  | 0x12 => ifR (actFmul vd va vb)
  | 0x13 => ifR (actFfma vd va vb vc)
  | 0x14 => ifR (actFmax vd va vb)
  | 0x15 => ifR (actFmin vd va vb)
  | 0x16 => ifR (actFabs vd va)
  | 0x17 => ifR (actFneg vd va)
  | 0x18 => if 3 < imm % 8 then none else ifR (actFcmp md va vb (imm % 8))
  | 0x19 => ifR (actSel vd ms va vb)
  | 0x20 => ifR (actIadd vd va vb)
  | 0x21 => ifR (actIsub vd va vb)
  | 0x22 => ifR (actImul vd va vb)
  | 0x23 => ifR (actAnd vd va vb)
  | 0x24 => ifR (actOr vd va vb)
  | 0x25 => ifR (actXor vd va vb)
  | 0x26 => ifR (actShl vd va imm)
  | 0x27 => ifR (actShr vd va imm)
  | 0x30 => ifR (actFrcp vd va)
  | 0x31 => ifR (actFrsq vd va)
  | 0x32 => ifR (actFexp2 vd va)
  | 0x33 => ifR (actFlog2 vd va)
  | 0x34 => ifR (actFtanh vd va)
  | 0x38 => ifR (actLsum vd va)
  | 0x39 => ifR (actLmax vd va)
  | 0x3A => ifR (actLbcast vd va (imm % 64))
  | 0x40 => if dst = 2 ∨ 10 < dst ∨ 10 < src then none else ifR (actCvt vd va src dst ovf)
  | 0x41 => if scaleFmt dst then ifR (actCvts vd va vb dst) else none
  | 0x42 => if scaleFmt dst then ifR (actScale vd va dst) else none
  | n => if 0x60 ≤ n ∧ n ≤ 0x67 then ifR (actUser (lat (n - 0x60)) (n - 0x60) vd va vb) else none

/-- The last address of each LOOP body around an address, checked down a program: an END inside a body, a body past its
outer body or past the program, or a third level is a breach of R118. The first breach's address. -/
def loopBreach : List Nat → Nat → List Nat → Option Nat
  | [], _, [] => none
  | [], p, _ => some p
  | w :: t, p, outer =>
    let outer' := outer.filter fun e => decide (p ≤ e)
    if fld w 63 56 = 2 then
      let e := p + fld w 39 31
      if 2 ≤ outer'.length then some p
      else if fld w 39 31 = 0 then loopBreach t (p + 1) outer'
      else if outer'.any (fun x => decide (x < e)) then some p
      else loopBreach t (p + 1) (e :: outer')
    else if fld w 63 56 = 1 then (if outer'.isEmpty then none else some p)
    else loopBreach t (p + 1) outer'

/-- The program up to and with its first END, where it has one within 512 instructions. -/
def progLength : List Nat → Nat → Option Nat
  | [], _ => none
  | w :: t, p => if 512 ≤ p then none else if fld w 63 56 = 1 then some (p + 1) else progLength t (p + 1)

/-- The address of an instruction that breaks R118, if any. DESIGN CHOICE (log entry 108): of several breaches the lowest
word that is no valid instruction is named, before a missing END, which names the last word, and before the loops. -/
def progBreach (words : List Nat) : Option Nat :=
  if 512 < words.length then some 512
  else
    match (words.mapIdx fun i w => (i, w)).find? fun p => (veDecode (fun _ => 1) p.2).isNone with
    | some (i, _) => some i
    | none =>
      if words.all (fun w => fld w 63 56 != 1) then some (words.length - 1)
      else loopBreach words 0 []

end Sys2Proof.Machine
end

