-- ==== Sys2Proof/Machine/Work.lean ====
section
/-!
DEFINITION. Elements of operands as bits behind handles (R45 to R47, R135), the streams and trees of the tally (R234,
R240 to R245), and what running a descriptor's body gives.
-/
namespace Sys2Proof.Machine
open Sys2Proof

/-! Elements. -/

/-- One element: its handle, its bits, and its index in the buffer. -/
structure Elem where
  handle : Nat
  bits : Nat
  index : Int
  deriving DecidableEq, Repr

/-- First byte of an element. -/
def Elem.lo (x : Elem) : Nat := elemLo x.bits x.index.toNat
/-- Last byte of an element. -/
def Elem.hi (x : Elem) : Nat := elemHi x.bits x.index.toNat

/-- An element's bits. -/
def readElem (s : State) (x : Elem) : Nat :=
  handleNat s x.handle x.lo (x.hi + 1 - x.lo) / 2 ^ (x.bits * x.index.toNat - 8 * x.lo) % 2 ^ x.bits

/-- An element's bits written; the neighbours that share its bytes keep theirs. -/
def writeElem (s : State) (x : Elem) (v : Nat) : State :=
  match findHandle s x.handle with
  | some h =>
    let n := x.hi + 1 - x.lo
    let sh := x.bits * x.index.toNat - 8 * x.lo
    let w := if x.bits % 8 = 0 then v % 2 ^ x.bits
      else putFld (leNat (handleBytes s h x.lo n)) (sh + x.bits - 1) sh v
    handleWrite s h x.lo (leBytes n w)
  | none => s

/-- View element (r, c) under a loop offset. -/
def viewElem (user : Nat → Nat) (v : BitVec 256) (o : Int) (r c : Nat) : Elem :=
  ⟨vHandle v, viewBits user v, elemIndex v o r c⟩

/-- The scale byte of view element (r, c) (R136). -/
def scaleElem (v : BitVec 256) (o : Int) (r c : Nat) : Elem :=
  ⟨vComp v, 8, scaleByteAt v (elemIndex v o r c).toNat⟩

/-- Padding of an E3M2 row up to the next group boundary, after its last element (R47). -/
def padElems (v : BitVec 256) (last : Int) : List Elem :=
  if vKind v = 0 ∧ vFmt v = 7 then
    (List.range (((-(last + 1)) % 4).toNat)).map fun (i : Nat) => ⟨vHandle v, 6, last + 1 + i⟩
  else []

/-- An element's bits as its stream carries them (R240). -/
def streamBits (v : BitVec 256) (b : Nat) : Nat :=
  if vKind v = 0 ∧ vFmt v = 2 then b / 2 ^ 13 * 2 ^ 13
  else if vKind v = 0 ∧ vFmt v = 10 then intBits 32 (sx 24 b)
  else b

/-- An element's bits as a write stores them: Q24 with bits [31:24] as copies of bit 23 (R46). -/
def storedBits (v : BitVec 256) (b : Nat) : Nat := if vKind v = 0 ∧ vFmt v = 10 then intBits 32 (sx 24 b) else b

/-- A 64-byte granule of an operand as its stream carries it (R240): its containers one by one, where the view's format
has containers. -/
def streamGranule (v : BitVec 256) (g : Nat) : Nat :=
  if vKind v = 0 ∧ (vFmt v = 2 ∨ vFmt v = 10) then
    packElems 32 ((List.range 16).map fun i => streamBits v (packedGet 32 g i))
  else g

/-! Trees (R234). -/

/-- One level of the tree: pairs in order, an odd last node passed up. -/
def treeLevel {α : Type} (f : α → α → α) : List α → List α
  | x :: y :: t => f x y :: treeLevel f t
  | l => l

/-- Levels until one node remains. -/
def treeRun {α : Type} (f : α → α → α) : Nat → List α → List α
  | 0, l => l
  | n + 1, l => if l.length ≤ 1 then l else treeRun f n (treeLevel f l)

/-- The root of the tree over leaves; none where there is no leaf. -/
def treeRoot {α : Type} (f : α → α → α) (l : List α) : Option α := (treeRun f l.length l).head?

/-! The tally (R240 to R245). -/

/-- Packed elements as bytes. -/
def packedBytes (w : Nat) : Nat → List Nat → List Byte
  | 0, _ => []
  | n + 1, l => if l = [] then [] else
    if w = 4 then leBytes 1 (packElems 4 (l.take 2)) ++ packedBytes w n (l.drop 2)
    else leBytes 3 (packElems 6 (l.take 4)) ++ packedBytes w n (l.drop 4)

/-- The byte stream of elements of `w` bits (R240). -/
def streamBytes (w : Nat) (l : List Nat) : List Byte :=
  if w = 4 ∨ w = 6 then packedBytes w l.length l else l.flatMap fun x => leBytes (w / 8) x

/-- Chunks of 65,536 bytes (R241). -/
def chunks : Nat → List Byte → List (List Byte)
  | 0, _ => []
  | n + 1, l => if l = [] then [] else l.take 65536 :: chunks n (l.drop 65536)

/-- The leaves of a stream (R241). -/
def streamLeaves (bs : List Byte) : List (List Byte) := (chunks bs.length bs).map fun c => sha512t (0x00 :: c)

/-- The root over leaves; no leaf: the digest of the empty string (R241). -/
def merkleRoot (leaves : List (List Byte)) : List Byte :=
  (treeRoot (fun l r => sha512t (0x01 :: l ++ r)) leaves).getD (sha512t [])

/-- An operand's element count and leaves, from its elements in logical order. -/
def operandOf (w : Nat) (l : List Nat) : Nat × List (List Byte) := (l.length, streamLeaves (streamBytes w l))

/-- The operand digest (R242). -/
def operandDigest (x : Nat × List (List Byte)) : List Byte := sha512t (0x02 :: leBytes 8 x.1 ++ merkleRoot x.2)

/-- The digest of a role, with the record bytes for the outputs (R245). -/
def roleDigest (l : List (Nat × List (List Byte))) (rec : List Byte) : List Byte :=
  sha512t (l.flatMap operandDigest ++ rec)

/-- Record bytes 0x40 to 0x5F (R163, R164). -/
def recordBytes (x : Summary) : List Byte :=
  let nan := match x.nan with
    | some (t, d, k) => (t, if d then 0 else k)
    | none => (0, 0)
  let evt := match x.evt with
    | some (t, d, k, m, n, _) => (t, if d then 0 else k, m, n)
    | none => (0, 0, 0, 0)
  leBytes 8 (summaryWord x % 2 ^ 14) ++ leBytes 4 evt.1 ++ leBytes 4 nan.1 ++ leBytes 4 evt.2.2.1 ++
    leBytes 4 evt.2.2.2 ++ leBytes 4 evt.2.1 ++ leBytes 4 nan.2

/-- The parts of a tally (R243 to R245). -/
def mkParts (program : List Byte) (weights inputs outputs : List (Nat × List (List Byte))) (x : Summary) : TallyParts :=
  let rec_ := recordBytes x
  { tally := sha512t (program ++ roleDigest weights [] ++ roleDigest inputs [] ++ roleDigest outputs rec_),
    program, weights, inputs, outputs, record := rec_ }

/-- Bytes `at_` onward of a list replaced. -/
def patch (l : List Byte) (at_ : Nat) (bs : List Byte) : List Byte := l.take at_ ++ bs ++ l.drop (at_ + bs.length)

/-- The descriptor's 128 bytes as the program digest takes them (R243); a family without a loop nest runs each level once
(DEDUCED). -/
def programBytes (d : BitVec 1024) (counts : List Nat) : List Byte :=
  let l := leBytes 128 d.toNat
  let l := patch l 1 (List.replicate 3 0)
  let l := patch l 4 (List.replicate 36 0)
  let l := patch l 0x28 (counts.flatMap fun c => leBytes 4 (c % 2 ^ 31))
  let l := patch (patch (patch (patch l 0x3A [0, 0]) 0x40 [0, 0]) 0x50 [0, 0]) 0x60 [0, 0]
  if dFamily d = 1 then patch (patch l 0x3E [0, 0]) 0x6E [0, 0]
  else if dFamily d = 3 then patch l 0x70 [0, 0]
  else l

/-- A view's 32 bytes as the program digest takes them (R243). -/
def programView (v : BitVec 256) : List Byte := leBytes 32 (putFld v.toNat 31 0 0 % 2 ^ 64 - b2n (vSealed v) * 2 ^ 40)

/-- The slots that a family's variant uses. -/
def slotsUsed (d : BitVec 1024) : List Nat :=
  match dFamily d, dVariant d with
  | 1, _ => [0, 1, 2]
  | 2, v => if bitOf v 1 then [0, 1, 2] else [0, 1]
  | 3, _ => [0, 1, 2]
  | 4, 0 => [0, 2]
  | 4, 3 => [0]
  | 4, _ => [0, 1, 2]
  | 5, _ => [0, 2]
  | 6, 1 => [0]
  | 10, _ => [0, 2]
  | _, _ => []

/-- View `i` of a submission. -/
def viewAt (sb : Sub) (i : Nat) : BitVec 256 := (sb.views[i]?).getD 0

/-- The view of a slot. -/
def slotView (sb : Sub) (d : BitVec 1024) (k : Nat) : BitVec 256 := viewAt sb (sView d k)

/-- The program digest (R243); `extra`: the bias view and AUX2_VIEW; `u`: the micro-program's bytes. -/
def programDigest (sb : Sub) (d : BitVec 1024) (counts : List Nat) (extra : List Nat) (u : List Byte) : List Byte :=
  let named := ((slotsUsed d).map fun k => sView d k) ++ extra
  let v := (named.filter fun i => i != noView).flatMap fun i => programView (viewAt sb i)
  sha512t (programBytes d counts ++ v ++ u)

/-! What a body gives. -/

/-- The result of a descriptor's body: what it reads, its writes in order, its summary, and the operands of each role;
or the failure it meets: status, handle and byte offset. -/
structure Work where
  touched : List Elem
  writes : List (Elem × Nat)
  summary : Summary
  weights : List (Nat × List (List Byte))
  inputs : List (Nat × List (List Byte))
  outputs : List (Nat × List (List Byte))
  program : List Byte
  failure : Option (Nat × Nat × Nat)
  deriving DecidableEq, Repr

/-- A body that reads and writes nothing. -/
def Work.nothing : Work := ⟨[], [], Summary.zero, [], [], [], [], none⟩

/-- The failure that the first access to a lost page, or to a plot that is not online, gives (R282, R347). -/
def accessFailure (s : State) : List Elem → Option (Nat × Nat × Nat)
  | [] => none
  | x :: t => match findHandle s x.handle with
    | some h =>
      if rangeLost h x.lo x.hi then some (0x080B, h.id, x.lo)
      else if !plotOpen s h then some (0x0A02, h.id, 0)
      else accessFailure s t
    | none => accessFailure s t

/-- Every byte of a granule that lies within its buffer is in some element of a list. -/
def elemsCover (s : State) (l : List Elem) (id g : Nat) : Bool :=
  (List.range (min 64 (handleSize s id - 64 * g))).all fun i =>
    l.any fun x => x.handle == id && decide (x.lo ≤ 64 * g + i) && decide (64 * g + i ≤ x.hi)

/-- An element has a byte in a granule. -/
def Elem.meetsGranule (x : Elem) (id g : Nat) : Bool := x.handle == id && decide (x.lo / 64 ≤ g) && decide (g ≤ x.hi / 64)

/-- The first uncorrectable granule that a body reads, or writes only in part (R401, R402). -/
def badAccess (s : State) (w : Work) : Option (Nat × Nat) :=
  let outs := w.writes.map (·.1)
  s.lpddr.badGranules.find? fun g =>
    (w.touched.any fun x => x.meetsGranule g.1 g.2 && !outs.contains x) ||
      ((outs.any fun x => x.meetsGranule g.1 g.2) && !elemsCover s outs g.1 g.2)

/-- Granules that a body has written whole hold no uncorrectable error any more (R402). -/
def clearBad (s : State) (l : List (Elem × Nat)) : State :=
  let keep := s.lpddr.badGranules.filter fun g => !elemsCover s (l.map (·.1)) g.1 g.2
  { s with lpddr := { s.lpddr with badGranules := keep } }

/-- A request of the descriptor waits at a plot's port, so the descriptor goes no further (R347). -/
def portHolds (s : State) (d : DescRef) : Bool :=
  s.plots.any fun p => (p.2.accepted ++ p.2.waiting).any fun q => q.source == some d

/-- The writes of a body, in order. -/
def doWrites (s : State) (l : List (Elem × Nat)) : State := l.foldl (fun s w => writeElem s w.1 w.2) (clearBad s l)

/-- The free index moves past what a window read took. -/
def useFree (s : State) (l : List Elem) : State :=
  if l.any fun x => match findHandle s x.handle with
      | some h => isWindow h
      | none => false
  then { s with free := s.free + 1 } else s

/-- The widths of user formats on the field tile attached to an affinity group (R351, R352). -/
def userFor (s : State) (g : Nat) : Nat → Nat := fun c =>
  match (List.range 32).find? fun p => getb s (pltR p 0x18) 31 && getf s (pltR p 0x18) 7 0 == g with
  | some p => userWidth (getf s (pltR p 0x10) 31 0) c
  | none => 32

end Sys2Proof.Machine
end

