-- ==== Sys2Proof/Machine/Bodies.lean ====
section
/-!
DEFINITION. What the body of each computing family gives (R146 to R154, R233 to R237): MMA, FOLD, VEC, MOVE, REDUCE,
COUNT and TALLY, as functions of the descriptor, its views and the bytes it reads.
-/
namespace Sys2Proof.Machine
open Sys2Proof

/-- The number an element's bits stand for, user formats included. -/
def numOf (f bits : Nat) : Num := if 10 < f then decodeNum 0 (Config.userDecode f bits).toNat else decodeNum f bits

/-- View element (r, c) as a cell takes it: decoded, with its block scale (R53, R54). -/
def readNum (s : State) (user : Nat → Nat) (v : BitVec 256) (o : Int) (r c : Nat) : Num :=
  let x := numOf (vFmt v) (readElem s (viewElem user v o r c))
  if vScaled v then scaleNum (vFmt v) (readElem s (scaleElem v o r c)) x else x

/-- Elements of a view in row order under each iteration's offset. -/
def gridElems (user : Nat → Nat) (v : BitVec 256) (offs : List Int) (rows cols : Nat) : List Elem :=
  offs.flatMap fun o => (List.range rows).flatMap fun r => (List.range cols).map fun c => viewElem user v o r c

/-- The scale bytes of a view in its element order, each where its group of R136 begins along the k axis, which runs down
the rows or along the columns. -/
def gridScales (v : BitVec 256) (offs : List Int) (rows cols : Nat) (kRows : Bool) : List Elem :=
  offs.flatMap fun o => (List.range rows).flatMap fun r => (List.range cols).filterMap fun c =>
    let x := scaleElem v o r c
    let goesOn := if kRows then r != 0 && scaleElem v o (r - 1) c == x else c != 0 && scaleElem v o r (c - 1) == x
    if goesOn then none else some x

/-- An operand of a role that is read. -/
def readOperand (s : State) (w : Nat) (v : BitVec 256) (l : List Elem) : Nat × List (List Byte) :=
  operandOf w (l.map fun x => streamBits v (readElem s x))

/-- The offsets of a slot over all iterations. -/
def slotOffsets (d : BitVec 1024) (k : Nat) (counts : List Nat) : List Int :=
  (List.range (iterCount counts)).map fun t => offsetAt d k counts t

/-! MMA (R146, R147). -/

/-- A node of the k-block tree: accumulator bits, its lowest k, its flags and events. -/
structure Node where
  bits : Nat
  low : Nat
  sum : Summary
  deriving DecidableEq, Repr

/-- What a cell does under FW0 and the input format; SEMIRING 0b111 accumulates in USER_ACC (R352, R353). -/
def cellOf (d : BitVec 1024) (aFmt userAcc : Nat) : CellOp :=
  let w := dFw d 0
  let sem := fld w 2 0
  { sem, acc := if sem = 7 then userAcc else fld w 6 3, strict := bitOf w 7 && aFmt != 9 && aFmt != 10, inf := bitOf w 8 }

/-- Terms cut into k-steps of `p`. -/
def kSteps {α : Type} (p : Nat) : Nat → List α → List (List α)
  | 0, _ => []
  | n + 1, l => if l.isEmpty then [] else l.take p :: kSteps p n (l.drop p)

/-- A leaf accumulated from its initial bits over its terms (local k, a, b); `k0` is the leaf's first k. -/
def runLeaf (o : CellOp) (p t m n k0 : Nat) (start : Node) (ts : List (Nat × Num × Num)) : Node :=
  (kSteps p ts.length ts).foldl (fun nd st =>
    let r := cellStep o k0 nd.bits st
    { nd with bits := r.1, sum := r.2.foldl (fun x f => x.merge (flagsAt f.2 t (k0 + f.1) m n)) nd.sum }) start

/-- A leaf of the user semiring (R353), over operand bits. -/
def runUserLeaf (t m n k0 : Nat) (start : Node) (ts : List (Nat × Nat × Nat)) : Node :=
  ts.foldl (fun nd x =>
    { nd with bits := (Config.userCombine (BitVec.ofNat 64 nd.bits) (Config.userTerm x.2.1 x.2.2)).toNat,
              sum := nd.sum.merge (flagsAt (Config.userFlags x.2.1 x.2.2).toNat t (k0 + x.1) m n) }) start

/-- One combine with its events at the right operand's lowest k (R74, R235). Where a NaN operand entered one of its
leaves, that one stays the first NaN; a NaN that no operand carried is placed by the combine (DEDUCED, log entry 29). -/
def combineNodes (o : CellOp) (t m n : Nat) (l r : Node) : Node :=
  let c := if o.sem = 7 then ((Config.userCombine (BitVec.ofNat 64 l.bits) (BitVec.ofNat 64 r.bits)).toNat, 0)
    else combineBits o l.bits r.bits
  let both := l.sum.merge r.sum
  let own := flagsAt c.2 t r.low m n
  ⟨c.1, l.low, both.merge (if both.nan.isSome then { own with nan := none } else own)⟩

/-- Output conversion (R77 to R80), user output formats included. -/
def drainBits (o : CellOp) (f bits : Nat) : Nat × Nat :=
  if 10 < f then (Config.userEncode f o.acc bits, (Config.userEncodeFlags f o.acc bits).toNat)
  else convert f o.inf (accNum o bits)

/-- USER_ACC and the k-step of the user semiring on the field tile of a group (R352). -/
def userWord (s : State) (g : Nat) : Nat :=
  match (List.range 32).find? fun p => getb s (pltR p 0x18) 31 && getf s (pltR p 0x18) 7 0 == g with
  | some p => getf s (pltR p 0x10) 31 0
  | none => 0

/-- One output of an MMA: its root node (R233, R234). -/
def mmaNode (s : State) (sb : Sub) (d : BitVec 1024) (user : Nat → Nat) (o : CellOp) (offs : Int × Int × Int)
    (t m n : Nat) : Node :=
  let a := slotView sb d 0
  let b := slotView sb d 1
  let K := dFw d 3
  let kb := dFw d 4
  let p := rateP o.sem (vFmt a) (vFmt b) o.strict
  let leaf := fun (j : Nat) =>
    let k0 := j * kb
    let len := min K (k0 + kb) - k0
    let bias := j = 0 ∧ bitOf (dFw d 0) 9
    let start : Node :=
      if bias then
        let v := viewAt sb (sAux d 2)
        let r := biasBits o (readNum s user v offs.2.2 m n)
        ⟨r.1, k0, flagsAt r.2 t 0 m n⟩
      else ⟨if o.sem = 7 then Config.userIdentity.toNat else identityBits o, k0, Summary.zero⟩
    if o.sem = 7 then
      runUserLeaf t m n k0 start ((List.range len).map fun k =>
        (k, readElem s (viewElem user a offs.1 m (k0 + k)), readElem s (viewElem user b offs.2.1 (k0 + k) n)))
    else
      runLeaf o p t m n k0 start ((List.range len).map fun k =>
        (k, readNum s user a offs.1 m (k0 + k), readNum s user b offs.2.1 (k0 + k) n))
  ((treeRoot (combineNodes o t m n) ((List.range (max 1 (ceilDiv K kb))).map leaf))).getD ⟨0, 0, Summary.zero⟩

/-- The running maximum of a panel (R81). -/
def panelMax (l : List Num) : Nat := (l.filterMap panelWord).foldl max 0

/-- The MMA body. -/
def bodyMma (s : State) (sb : Sub) (d : BitVec 1024) (counts : List Nat) : Work :=
  let user := userFor s (dAffinity d)
  let a := slotView sb d 0
  let b := slotView sb d 1
  let c := slotView sb d 2
  let w := dFw d 0
  let o := cellOf d (vFmt a) (fld (userWord s (dAffinity d)) 21 18)
  let M := dFw d 1
  let N := dFw d 2
  let K := dFw d 3
  let aux := fld w 31 16
  let auxV := viewAt sb aux
  let biasV := viewAt sb (sAux d 2)
  let hasBias := bitOf w 9
  let hasIdx := isCmp o.sem && aux != noView
  let hasMax := bitOf w 11 && !isCmp o.sem && aux != noView
  let plane := bitOf w 10
  let n := iterCount counts
  let o0 := slotOffsets d 0 counts
  let o1 := slotOffsets d 1 counts
  let o2 := slotOffsets d 2 counts
  let outs := (List.range n).flatMap fun t => (List.range M).flatMap fun m => (List.range N).map fun j =>
    let offs := ((o0[t]?).getD 0, (o1[t]?).getD 0, (o2[t]?).getD 0)
    let nd := mmaNode s sb d user o offs t m j
    let r := drainBits o (vFmt c) nd.bits
    let sum := nd.sum.merge (flagsDrain r.2 t m j)
    (t, m, j, nd.bits, r.1, sum)
  let oAt := fun (t : Nat) => (o2[t]?).getD 0
  let values := outs.flatMap fun x =>
    (viewElem user c (oAt x.1) x.2.1 x.2.2.1, x.2.2.2.2.1) ::
      (if x.2.2.1 + 1 = N then (padElems c (elemIndex c (oAt x.1) x.2.1 x.2.2.1)).map fun e => (e, 0) else [])
  let planes := if plane then outs.map fun x =>
    ((⟨vComp c, 4, elemIndex c (oAt x.1) x.2.1 x.2.2.1⟩ : Elem), planeBits x.2.2.2.2.2.flags) else []
  let idxs := if hasIdx then outs.map fun x =>
    (viewElem user auxV (oAt x.1) x.2.1 x.2.2.1, x.2.2.2.1 / 2 ^ 32) else []
  let mb := ceilDiv M 32
  let nb := ceilDiv N 32
  let maxes := if hasMax then (List.range n).flatMap fun t => (List.range (mb * nb)).map fun i =>
    let l := (outs.filter fun x => x.1 == t && x.2.1 / 32 == i / nb && x.2.2.1 / 32 == i % nb).map fun x =>
      accNum o x.2.2.2.1
    ((⟨vHandle auxV, 32, (vBase auxV : Int) + t * (mb * nb) + i⟩ : Elem), panelMax l) else []
  let aE := gridElems user a o0 M K
  let bE := gridElems user b o1 K N
  let aS := if vScaled a then gridScales a o0 M K false else []
  let bS := if vScaled b then gridScales b o1 K N true else []
  let cE := if hasBias then gridElems user biasV o2 M N else []
  let rd := fun (v : BitVec 256) l => readOperand s (viewBits user v) v l
  let by8 := fun (l : List Elem) => operandOf 8 (l.map (readElem s))
  let writes := values ++ planes ++ idxs ++ maxes
  { touched := aE ++ aS ++ bE ++ bS ++ cE ++ writes.map (·.1)
    writes
    summary := outs.foldl (fun x q => x.merge q.2.2.2.2.2) Summary.zero
    weights := [rd b bE] ++ (if vScaled b then [by8 bS] else []) ++ (if hasBias then [rd biasV cE] else [])
    inputs := [rd a aE] ++ (if vScaled a then [by8 aS] else [])
    outputs := [operandOf (viewBits user c) (outs.map fun x => streamBits c x.2.2.2.2.1)] ++
      (if hasIdx then [operandOf 32 (idxs.map (·.2))] else if hasMax then [operandOf 32 (maxes.map (·.2))] else []) ++
      (if plane then [operandOf 4 (planes.map (·.2))] else [])
    program := programDigest sb d counts ((if hasBias then [sAux d 2] else []) ++ (if aux != noView then [aux] else [])) []
    failure := none }

/-! FOLD (R148, R149). -/

/-- The initial state of a row. -/
def SeqRow.start (dims : Nat) : SeqRow := ⟨0xFF800000, 0, List.replicate dims 0⟩

/-- FP32 −∞. -/
def negInf : Word := 0xFF800000

/-- An FP32 word is a zero. -/
def isZero32 (w : Word) : Bool := w.toNat % 2 ^ 31 == 0

/-- 2 raised to a difference, or +0 where the minuend is −∞; with flags. -/
def foldScale (m mn : Word) : Word × Nat :=
  if m = negInf then (0, 0)
  else
    let x := laneSub m mn
    let r := laneFun fexp2Num x.1
    (r.1, x.2 ||| r.2)

/-- One position of one row (R149). -/
def foldStep (st : SeqRow × Nat) (sc : Word) (v : List Word) : SeqRow × Nat :=
  let x := st.1
  if sc = negInf then st
  else
    let mn := lanePick true x.m sc
    let c := foldScale x.m mn.1
    let d := laneSub sc mn.1
    let w := laneFun fexp2Num d.1
    let l := laneFma x.l c.1 w.1
    let accs := (x.acc.zip v).map fun p =>
      let q := laneMul p.1 c.1
      let r := laneFma w.1 p.2 q.1
      (r.1, q.2 ||| r.2)
    (⟨mn.1, l.1, accs.map (·.1)⟩,
      accs.foldl (fun f p => f ||| p.2) (st.2 ||| mn.2 ||| c.2 ||| d.2 ||| w.2 ||| l.2))

/-- combine(a, b) of R149, with the flags of both operands. -/
def foldCombine (a b : SeqRow × Nat) : SeqRow × Nat :=
  let x := a.1
  let y := b.1
  let mn := lanePick true x.m y.m
  let fl := a.2 ||| b.2 ||| mn.2
  if mn.1 = negInf then (x, fl)
  else
    let ca := foldScale x.m mn.1
    let cb := foldScale y.m mn.1
    let one := fun (p q : Word) =>
      let u := laneMul q cb.1
      let r := laneFma p ca.1 u.1
      (r.1, u.2 ||| r.2)
    let l := one x.l y.l
    let accs := (x.acc.zip y.acc).map fun p => one p.1 p.2
    (⟨mn.1, l.1, accs.map (·.1)⟩, accs.foldl (fun f p => f ||| p.2) (fl ||| ca.2 ||| cb.2 ||| l.2))

/-- A row after one iteration: combine(context state, tree over the blocks). -/
def foldRow (dims kb : Nat) (st : SeqRow × Nat) (ps : List (Word × List Word)) : SeqRow × Nat :=
  let leaf := fun (l : List (Word × List Word)) => l.foldl (fun x p => foldStep x p.1 p.2) (SeqRow.start dims, 0)
  match treeRoot foldCombine ((kSteps kb ps.length ps).map leaf) with
  | some r => foldCombine st r
  | none => st

/-- A row's result (r, d): fmul(acc, frcp(l)), or +0 with no flag where l is a zero. -/
def foldOut (f : Nat) (x : SeqRow) (i : Nat) : Nat × Nat :=
  if isZero32 x.l then ((convert f true (.fin false 0 0)).1, 0)
  else
    let r := laneFun frcpNum x.l
    let m := laneMul ((x.acc[i]?).getD 0) r.1
    let c := convert f true (num32 m.1)
    (c.1, r.2 ||| m.2 ||| c.2)

/-- The words of a context's rows (R244). -/
def seqWords (l : List SeqRow) : List Nat := l.flatMap fun r => r.m.toNat :: r.l.toNat :: r.acc.map (·.toNat)

/-- The FOLD body, and the context after it. A descriptor with no iteration leaves its context (R159). -/
def bodyFold (s : State) (sb : Sub) (d : BitVec 1024) (counts : List Nat) : Work × Option (Nat × Option SeqCtx) :=
  let sv := slotView sb d 0
  let vv := slotView sb d 1
  let ov := slotView sb d 2
  let R := dFw d 1
  let D := dFw d 2
  let P := dFw d 3
  let kb := dFw d 4
  let cx := fld (dFw d 0) 5 0
  let init := bitOf (dVariant d) 0
  let final := bitOf (dVariant d) 1
  let n := iterCount counts
  let o0 := slotOffsets d 0 counts
  let o1 := slotOffsets d 1 counts
  let u := fun (_ : Nat) => 32
  let old : SeqCtx := ((s.seqs.find? fun p => p.1 == cx).map (·.2)).getD ⟨R, D, 0, 0, []⟩
  let before := if init then List.replicate R (SeqRow.start D) else old.state
  let word := fun (v : BitVec 256) (e : Elem) => bits32 (decodeNum (vFmt v) (readElem s e))
  let after := (o0.zip o1).foldl (fun (rows : List (SeqRow × Nat)) p =>
    let vs := (List.range P).map fun q => (List.range D).map fun i => word vv (viewElem u vv p.2 q i)
    rows.mapIdx fun (r : Nat) x =>
      foldRow D kb x ((List.range P).zip vs |>.map fun q => (word sv (viewElem u sv p.1 r q.1), q.2)))
    (before.map fun r => (r, 0))
  let rows := after.map (·.1)
  let oLast := offsetAt d 2 counts (n - 1)
  let outs := if final ∧ 0 < n then (rows.mapIdx fun (r : Nat) x => (List.range D).map fun i =>
    (r, i, foldOut (vFmt ov) x i)).flatten else []
  let writes := outs.flatMap fun x => (viewElem u ov oLast x.1 x.2.1, x.2.2.1) ::
    (if x.2.1 + 1 = D then (padElems ov (elemIndex ov oLast x.1 x.2.1)).map fun e => (e, 0) else [])
  let fl := outs.foldl (fun f x => f ||| x.2.2.2) (after.foldl (fun f x => f ||| x.2) 0)
  let sE := gridElems u sv o0 R P
  let vE := gridElems u vv o1 P D
  let ctxIn := if n = 0 then [] else seqWords before
  let ctxOut := if n = 0 then [] else seqWords rows
  ({ touched := sE ++ vE ++ writes.map (·.1)
     writes
     summary := flagsOnly fl
     weights := []
     inputs := [operandOf 32 ctxIn, readOperand s (viewBits u sv) sv sE, readOperand s (viewBits u vv) vv vE]
     outputs := [operandOf 32 ctxOut] ++
       (if final then [operandOf (viewBits u ov) (outs.map fun x => streamBits ov x.2.2.1)] else [])
     program := programDigest sb d counts [] []
     failure := none },
   if n = 0 then none
   else some (cx, if final then none else some ⟨R, D, (if init then 0 else old.positions) + P * n, old.tile, rows⟩))

/-! VEC (R151). -/

/-- A micro-program run from its first instruction until it ends or is stopped. -/
def runProgram (lat : Nat → Nat) (words : List Nat) : Nat → Ve → List Host.Cell → Ve × List Host.Cell × VeEvent
  | 0, ve, m => (ve, m, .ended)
  | n + 1, ve, m =>
    match (words[ve.pc]?).bind (veDecode lat) with
    | some a =>
      let r := veIssue ve m a
      if r.2.2 = .ok then runProgram lat words n r.1 r.2.1 else r
    | none => (ve, m, .ended)

/-- The extents of VEC's operands in granules; an absent operand has none. -/
def vecExtent (d : BitVec 1024) (k : Nat) : Nat := if sView d k = noView then 0 else sAux d k

/-- The first granule of a VEC operand in the engine's own numbering: the operands lie one after the other. -/
def vecBase (d : BitVec 1024) (k : Nat) : Nat := ((List.range k).map (vecExtent d)).foldl (· + ·) 0

/-- The micro-program's words (R151). -/
def vecWords (s : State) (sb : Sub) (d : BitVec 1024) : List Nat :=
  let v := viewAt sb (fld (dFw d 1) 15 0)
  (List.range (fld (dFw d 0) 9 0)).map fun i => handleNat s (vHandle v) (vBase v + 8 * i) 8

/-- The micro-program's bytes as elements. -/
def vecProgram (sb : Sub) (d : BitVec 1024) : List Elem :=
  let v := viewAt sb (fld (dFw d 1) 15 0)
  (List.range (8 * fld (dFw d 0) 9 0)).map fun i => ⟨vHandle v, 8, (vBase v + i : Nat)⟩

/-- Granule `g` of operand `k` under a loop offset, as an element of 512 bits. -/
def vecGranule (user : Nat → Nat) (v : BitVec 256) (o : Int) (g : Nat) : Elem :=
  ⟨vHandle v, 512, ((viewElem user v o 0 0).lo / 64 + g : Nat)⟩

/-- The latencies of user operations on the field tile of a group (R351). -/
def userLat (s : State) (g u : Nat) : Nat :=
  match (List.range 32).find? fun p => getb s (pltR p 0x18) 31 && getf s (pltR p 0x18) 7 0 == g with
  | some p => getf s (pltR p 0x14) (4 * u + 3) (4 * u)
  | none => 1

/-- The VEC body, run invocation by invocation on the operands' granules, each in checking mode as `checking` says of its
iteration; the hazard that stopped it, if one did: iteration, PC, KIND, REG, MASK and EARLY. -/
def bodyVec (s : State) (sb : Sub) (d : BitVec 1024) (counts : List Nat) (ref : DescRef) (checking : Nat → Bool) :
    Work × Option (Nat × Nat × Nat × Nat × Bool × Nat) :=
  let user := userFor s (dAffinity d)
  let ks := (List.range 3).filter fun k => sView d k != noView
  let wr := ks.filter fun k => bitOf (dFw d 0) (10 + k)
  let words := vecWords s sb d
  let n := iterCount counts
  let grans := fun (k t : Nat) => (List.range (vecExtent d k)).map fun g =>
    (vecBase d k + g, vecGranule user (slotView sb d k) (offsetAt d k counts t) g)
  let run := (List.range n).foldl
    (fun (st : State × List (Elem × Nat) × Nat × Option (Nat × Option (Nat × Nat × Nat × Nat × Bool × Nat))) t =>
      if st.2.2.2.isSome then st
      else
        let all := ks.flatMap fun k => grans k t
        let m := all.foldl (fun m g => wrBytes m (64 * g.1) (leBytes 64 (readElem st.1 g.2))) []
        let ve := veStart Ve.reset ref t ((List.range 3).map fun k => (vecBase d k, vecExtent d k)) wr (checking t)
        let r := runProgram (userLat s (dAffinity d)) words (2 ^ 42) ve m
        let ws := (all.filter fun g => r.1.written.contains g.1).map fun g => (g.2, rdNat r.2.1 (64 * g.1) 64)
        let fl := st.2.2.1 ||| r.1.flags
        match r.2.2 with
        | .trap k reg mask early => (st.1, st.2.1, fl, some (0x0202, some (t, r.1.pc, k, reg, mask, early)))
        | .bounds => (st.1, st.2.1, fl, some (0x0203, none))
        | _ => (doWrites st.1 ws, st.2.1 ++ ws, fl, none))
    (s, [], 0, none)
  let opnd := fun (st : State) k => operandOf 512 ((List.range n).flatMap fun t =>
    (grans k t).map fun g => streamGranule (slotView sb d k) (readElem st g.2))
  let u := (List.range words.length).flatMap fun i => leBytes 8 ((words[i]?).getD 0)
  let touched := ks.flatMap fun k => (List.range n).flatMap fun t => (grans k t).map (·.2)
  ({ touched := (if n = 0 then [] else vecProgram sb d) ++ touched
     writes := run.2.1
     summary := flagsOnly run.2.2.1
     weights := []
     inputs := (ks.filter fun k => !wr.contains k).map (opnd s)
     outputs := wr.map (opnd run.1)
     program := programDigest sb d counts [] u
     failure := run.2.2.2.map fun f => (f.1, 0, 0) },
   run.2.2.2.bind (·.2))

/-! MOVE (R152). -/

/-- The rows of a move: source row and destination row of each row of each iteration, or the byte offset of the lowest
index that names a row outside its buffer. -/
def moveRows (s : State) (sb : Sub) (d : BitVec 1024) (counts : List Nat) :
    List (Nat × Nat × Nat) × List Elem × Option Nat :=
  let rows := dFw d 1
  let cols := dFw d 2
  let var := dVariant d
  let u := fun (_ : Nat) => 32
  let n := if rows = 0 ∨ cols = 0 then 0 else iterCount counts
  if var = 0 then ((List.range n).flatMap fun t => (List.range rows).map fun r => (t, r, r), [], none)
  else
    let iv := slotView sb d 1
    let k := if var = 1 then 0 else 2
    let side := slotView sb d k
    let xs := (List.range n).flatMap fun t => (List.range rows).map fun r =>
      let e := viewElem u iv (offsetAt d 1 counts t) r 0
      let i := readElem s e
      let first := elemIndex side (offsetAt d k counts t) i 0
      let last := first + (cols - 1 : Nat)
      let bad := decide (first < 0) || decide (handleSize s (vHandle side) ≤ elemHi (viewBits u side) last.toNat)
      (t, r, i, e, bad)
    let bads := (xs.filter fun x => x.2.2.2.2).map fun x => x.2.2.2.1.lo
    (xs.map fun x => if var = 1 then (x.1, x.2.2.1, x.2.1) else (x.1, x.2.1, x.2.2.1), xs.map fun x => x.2.2.2.1,
      match bads with
      | [] => none
      | b :: t => some (t.foldl min b))

/-- The body of COPY, GATHER and SCATTER. -/
def bodyMove (s : State) (sb : Sub) (d : BitVec 1024) (counts : List Nat) : Work :=
  let user := userFor s (dAffinity d)
  let sv := slotView sb d 0
  let iv := slotView sb d 1
  let dv := slotView sb d 2
  let cols := dFw d 2
  let var := dVariant d
  let m := moveRows s sb d counts
  let src := m.1.flatMap fun x => (List.range cols).map fun c => viewElem user sv (offsetAt d 0 counts x.1) x.2.1 c
  let dst := m.1.flatMap fun x => (List.range cols).map fun c => viewElem user dv (offsetAt d 2 counts x.1) x.2.2 c
  let vals := src.map (readElem s)
  let writes := m.1.zipIdx.flatMap fun x =>
    ((List.range cols).map fun c =>
      (viewElem user dv (offsetAt d 2 counts x.1.1) x.1.2.2 c, storedBits dv ((vals[x.2 * cols + c]?).getD 0))) ++
    (padElems dv (elemIndex dv (offsetAt d 2 counts x.1.1) x.1.2.2 (cols - 1))).map fun e => (e, 0)
  let w := viewBits user sv
  let stand := doWrites s writes
  let outVals := if var = 2 then dst.map (readElem stand) else vals
  { touched := m.2.1 ++ src ++ writes.map (·.1)
    writes
    summary := Summary.zero
    weights := []
    inputs := [operandOf w (vals.map (streamBits sv))] ++
      (if var = 0 then [] else [operandOf 32 (m.2.1.map (readElem s))])
    outputs := [operandOf w (outVals.map (streamBits dv))]
    program := programDigest sb d counts [] []
    failure := m.2.2.map fun off => (0x0322, vHandle iv, off) }

/-! REDUCE (R153). -/

/-- The semiring whose combination a REDUCE uses: the sum, the maximum or the minimum of R153. -/
def reduceOp (d : BitVec 1024) : CellOp where
  sem := match dVariant d with
    | 0 => 0
    | 1 => 4
    | _ => 3
  acc := fld (dFw d 0) 3 0
  strict := true
  inf := bitOf (dFw d 0) 4

/-- An element as the accumulator of a REDUCE takes it (R56, R153). -/
def reducePart (o : CellOp) (f bits : Nat) : Nat :=
  if o.acc = 9 then intBits 64 (sx 8 bits)
  else if o.acc = 10 then intBits 64 (sx 24 bits * 2 ^ 23)
  else accBits o.acc (decodeNum f bits)

/-- The identity of R153. -/
def reduceIdentity (o : CellOp) : Nat := identityBits o

/-- One output element of a REDUCE: the tree over its leaves. Inside a leaf NAN_IN belongs to the part: the running
accumulator is no operand (R69). -/
def reduceNode (o : CellOp) (kb t n f : Nat) (parts : List Nat) : Node :=
  let one := fun (nd : Node) (x : Nat × Nat) =>
    let nan := decide (o.acc ≤ 1) && decodeNum f x.2 == .nan
    let r := combineBits o nd.bits (reducePart o f x.2)
    { nd with bits := r.1, sum := nd.sum.merge (flagsAt (r.2 / 2 * 2 ||| (if nan then fNan else 0)) t x.1 0 n) }
  let leaves := (kSteps kb parts.length (parts.mapIdx fun i x => (i, x))).map fun l =>
    let low := match l with
      | x :: _ => x.1
      | [] => 0
    l.foldl one ⟨reduceIdentity o, low, Summary.zero⟩
  (treeRoot (combineNodes o t 0 n) leaves).getD ⟨reduceIdentity o, 0, Summary.zero⟩

/-- The REDUCE body. -/
def bodyReduce (s : State) (sb : Sub) (d : BitVec 1024) (counts : List Nat) : Work :=
  let u := fun (_ : Nat) => 32
  let xv := slotView sb d 0
  let ov := slotView sb d 2
  let o := reduceOp d
  let parts := dFw d 1
  let len := dFw d 2
  let o0 := slotOffsets d 0 counts
  let o2 := slotOffsets d 2 counts
  let outs := (o0.zip o2).zipIdx.flatMap fun x => (List.range len).map fun n =>
    let ps := (List.range parts).map fun p => readElem s (viewElem u xv x.1.1 p n)
    let nd := reduceNode o (dFw d 4) x.2 n (vFmt xv) ps
    let c := convert (vFmt ov) o.inf (accNum o nd.bits)
    (viewElem u ov x.1.2 0 n, c.1, nd.sum.merge (flagsDrain c.2 x.2 0 n), n)
  let writes := outs.flatMap fun x => (x.1, x.2.1) ::
    (if x.2.2.2 + 1 = len then (padElems ov x.1.index).map fun e => (e, 0) else [])
  let xE := gridElems u xv o0 parts len
  { touched := xE ++ writes.map (·.1)
    writes
    summary := outs.foldl (fun q x => q.merge x.2.2.1) Summary.zero
    weights := []
    inputs := [readOperand s (viewBits u xv) xv xE]
    outputs := [operandOf (viewBits u ov) (outs.map fun x => streamBits ov x.2.1)]
    program := programDigest sb d counts [] []
    failure := none }

/-! TALLY and COUNT (R154). -/

/-- The TALLY body and its digest. -/
def bodyTally (s : State) (sb : Sub) (d : BitVec 1024) (counts : List Nat) : Work × List Byte :=
  let user := userFor s (dAffinity d)
  let xv := slotView sb d 0
  let xE := gridElems user xv (slotOffsets d 0 counts) (dFw d 1) (dFw d 2)
  let op := readOperand s (viewBits user xv) xv xE
  let dig := operandDigest op
  let gv := slotView sb d 2
  let named := sView d 2 != noView && decide (0 < iterCount counts)
  let writes := if named then dig.mapIdx fun (i : Nat) b => ((⟨vHandle gv, 8, (vBase gv + i : Nat)⟩ : Elem), b.toNat) else []
  ({ touched := xE ++ writes.map (·.1)
     writes
     summary := Summary.zero
     weights := []
     inputs := [op]
     outputs := if named then [operandOf 8 (dig.map (·.toNat))] else []
     program := programDigest sb d counts [] []
     failure := none }, dig)

/-- COUNT LOAD's element, and the work around a COUNT's value. -/
def bodyCount (s : State) (sb : Sub) (d : BitVec 1024) (counts : List Nat) : Work :=
  let v := slotView sb d 0
  let e := viewElem (fun _ => 32) v 0 0 0
  { Work.nothing with
    touched := if dVariant d = 1 then [e] else []
    inputs := if dVariant d = 1 then [operandOf 32 [readElem s e]] else []
    program := programDigest sb d counts [] [] }

end Sys2Proof.Machine
end

