-- ==== Sys2Proof/Machine/Records.lean ====
section
/-!
DEFINITION. Completion records (R163, R164), the completion of a descriptor with what follows from it (R140, R162, R223),
and the passing of HEAD (R126).
-/
namespace Sys2Proof.Machine
open Sys2Proof

/-! Headers (R133). -/

/-- NOTIFY of a header. -/
def hNotify (h : BitVec 1024) : Bool := bitOf (dWord h 0) 17
/-- SERIAL. -/
def hSerial (h : BitVec 1024) : Bool := bitOf (dWord h 0) 16
/-- VIEW_COUNT. -/
def hViews (h : BitVec 1024) : Nat := fld (dWord h 4) 31 16
/-- DESC_COUNT. -/
def hDescs (h : BitVec 1024) : Nat := fld (dWord h 4) 15 0
/-- COMPLETION. -/
def hCompletion (h : BitVec 1024) : Nat := dWord h 8
/-- TAG. -/
def hTag (h : BitVec 1024) : Nat := fld h.toNat 191 128

/-! Records. -/

/-- The 128 bytes of a record (R163). -/
def record128 (alm kind status restarts idx pos dh doff tag sm em sc ec : Nat) (rb tally : List Byte) : List Byte :=
  leBytes 4 (alm * 2 ^ 24 + kind * 2 ^ 16 + status) ++ leBytes 4 (restarts * 2 ^ 16 + idx) ++ leBytes 4 pos ++
    leBytes 4 dh ++ leBytes 8 doff ++ leBytes 8 tag ++ leBytes 8 sm ++ leBytes 8 em ++ leBytes 8 sc ++ leBytes 8 ec ++
    rb ++ tally

/-- A record is in bounds of ALM_CPL's buffer (R155). -/
def recordFits (s : State) (a idx : Nat) : Bool :=
  idx != noRecord && getReg s (almR a 0x18) != 0 &&
    decide (128 * idx + 128 ≤ handleSize s (getReg s (almR a 0x18)).toNat)

/-- A record written, and ALM_EVENT.COMPLETE set for its NOTIFY. -/
def putRecord (s : State) (a idx : Nat) (bs : List Byte) : State :=
  if recordFits s a idx then bufWrite s (getReg s (almR a 0x18)).toNat (128 * idx) bs else s

/-- ALM_EVENT.COMPLETE, where a record with NOTIFY was written. -/
def notifyRecord (s : State) (a idx : Nat) (notify : Bool) : State :=
  if notify ∧ recordFits s a idx then almEvent s a 0 else s

/-- 32 zero bytes. -/
def zero32 : List Byte := List.replicate 32 0

/-- A submission of an almanac changed. -/
def modSub (s : State) (a pos : Nat) (f : Sub → Sub) : State :=
  let al := getAlm s a
  setAlm s a { al with subs := al.subs.map fun sb => if sb.pos = pos then f sb else sb }

/-- A meridian time that nothing gave: a free value, or all ones while the meridian is not locked (R163). -/
def freeStamp (s : State) (v : Nat) : Nat := if mtrState s = 2 then v else 2 ^ 64 - 1

/-- The record of a descriptor as its run stands (R163, R246). A descriptor that failed at its start has the meridian time
of that start, and no pass or transfer that would give START_CYCLE. The times that nothing gave are free values: the
manual names none. -/
def descRecord (s : State) (d : DescRef) (sb : Sub) (r : Run) : List Byte × State :=
  let f1 := takeFree s
  let f2 := takeFree f1.2
  let started := r.startCycle.isSome
  let tally := if (r.code = 0 ∨ r.code = 0x0601) ∧ r.tally ≠ [] then r.tally else zero32
  (record128 d.alm.toNat 0 r.code r.restarts d.idx.toNat d.pos.toNat r.detailHandle r.detailOffset (hTag sb.header)
    (if r.phase = .waiting then freeStamp s f2.1 else r.startMeridian) (mtrStamp s) (r.startCycle.getD f1.1) s.cycle
    (recordBytes r.summary) tally, if started then s else f2.2)

/-- A tile without what it holds of the descriptors that `p` picks: threads with their contexts, units that have been built,
output areas and multicast streams. Passes in the array run to the end of their drains (R102). -/
def Tile.without (y : Tile) (p : DescRef → Bool) : Tile :=
  { y with threads := y.threads.filter fun x => !p x.1, units := y.units.filter fun x => !p x.owner,
           outputs := y.outputs.filter fun x => !p x.owner, streams := y.streams.filter fun x => !p x.owner }

/-- The threads and contexts of a descriptor given back on every tile and field tile (R170, R356), with what its contexts
have read (R186). -/
def dropThreads (s : State) (d : DescRef) (ts : List Nat) : State :=
  let s := (List.range 32).foldl (fun s p =>
    if (getPlot s p).units.any fun u => u.1 == d then
      modPlot s p fun x => { x with units := x.units.filter fun u => u.1 != d }
    else s) s
  ts.foldl (fun s t => modTile s t fun x => x.without (· == d)) s

/-- A descriptor's completion: its code and details set, then its record; a commit is noted as the submission's last
(R164). What its run-ahead reads brought is discarded
or used up (R186). -/
def closeDesc (s : State) (d : DescRef) (code dh doff : Nat) : State :=
  match findDesc s d with
  | some (sb, x, r) =>
    if r.phase = .finished then s
    else
      let r' := { r with code := code, detailHandle := dh, detailOffset := doff }
      let rec_ := descRecord s d sb r'
      let st := mtrStamp s
      let now := s.cycle
      let s := putRecord rec_.2 d.alm.toNat (dCompletion x) rec_.1
      let s := dropThreads (modRun s d fun _ => { r' with phase := .finished, runAhead := [] }) d r.tiles
      if code = 0 then modSub s d.alm.toNat d.pos.toNat fun sb => { sb with lastEnd := now, lastMeridian := st } else s
  | none => s

/-- The NOTIFY of a descriptor's record. -/
def notifyDesc (s : State) (d : DescRef) : State :=
  match findDesc s d with
  | some (_, x, _) => notifyRecord s d.alm.toNat (dCompletion x) (dNotify x)
  | none => s

/-! What follows a completion. -/

/-- The predecessors of descriptor `i`, by index. -/
def predsOf (d : BitVec 1024) (i : Nat) : List Nat :=
  ((List.range 2).filter fun n => dPred d n != 0 && decide (dPred d n ≤ i)).map fun n => i - dPred d n

/-- Descriptor `i`'s reference. -/
def refOf (a pos i : Nat) : DescRef := ⟨BitVec.ofNat 8 a, BitVec.ofNat 32 pos, BitVec.ofNat 16 i⟩

/-- A run has finished with a code other than OK. -/
def Run.failed (r : Run) : Bool := r.phase == .finished && r.code != 0
/-- A run has finished with OK. -/
def Run.passed (r : Run) : Bool := r.phase == .finished && r.code == 0

/-- Followers of a failed descriptor, in index order (R140). -/
def failFollower (a pos : Nat) (s : State) (i : Nat) : State :=
  match findDesc s (refOf a pos i) with
  | some (sb, x, r) =>
    if r.phase = .waiting ∧ (predsOf x i).any fun p => ((sb.runs[p]?).map Run.failed).getD false then
      notifyDesc (closeDesc s (refOf a pos i) 0x0320 0 0) (refOf a pos i)
    else s
  | none => s

/-- Descriptor `i`, whose predecessors may all have completed with OK (R140): its stall timer starts (R228), and where
`free`, no SERIAL gate holding it (R127), it is armed (R223). -/
def armFollower (a pos : Nat) (free : Bool) (s : State) (i : Nat) : State :=
  match findDesc s (refOf a pos i) with
  | some (sb, x, r) =>
    if r.phase = .waiting ∧ !r.armed ∧ (predsOf x i).all fun p => ((sb.runs[p]?).map Run.passed).getD false then
      let now := s.cycle
      let s := if r.predsMet then s
        else modRun s (refOf a pos i) fun r => { r with predsMet := true, stallFrom := now }
      if free then armRun s (refOf a pos i) else s
    else s
  | none => s

/-- The first descriptor that did not complete with OK, with its run. -/
def firstBad (runs : List Run) : Option (Nat × Run) := (runs.mapIdx fun i r => (i, r)).find? fun p => p.2.failed

/-- The submission's record (R162, R164): the first start and the last commit. Times that no descriptor gave are free
values. -/
def finishSub (s : State) (a pos code idx dh doff : Nat) : State :=
  match findSub s a pos with
  | some sb =>
    if sb.finished then s
    else
      let f1 := takeFree s
      let f2 := takeFree f1.2
      let f3 := takeFree f2.2
      let f4 := takeFree f3.2
      let ran := sb.firstStart.isSome
      let ended := sb.runs.any Run.passed
      let bs := record128 a 1 code 0 idx pos dh doff (hTag sb.header) (if ran then sb.firstMeridian else freeStamp s f1.1)
        (if ended then sb.lastMeridian else freeStamp s f2.1) (if ran then sb.firstStart.getD 0 else f3.1)
        (if ended then sb.lastEnd else f4.1) (List.replicate 32 0) zero32
      let s := if ran ∧ ended then s else f4.2
      let s := putRecord s a (hCompletion sb.header) bs
      let s := modSub s a pos fun sb => { sb with finished := true }
      notifyRecord s a (hCompletion sb.header) (hNotify sb.header)
  | none => s

/-- One submission brought up to date; `free`: every earlier one has finished (R127). -/
def settleSub (a : Nat) (free : Bool) (s : State) (sb : Sub) : State :=
  let idx := List.range sb.descs.length
  let s := idx.foldl (failFollower a sb.pos) s
  let s := idx.foldl (armFollower a sb.pos (free || !hSerial sb.header)) s
  match findSub s a sb.pos with
  | some x =>
    if x.finished ∨ !(x.runs.all fun r => r.phase == .finished) then s
    else match firstBad x.runs with
      | some (i, r) => finishSub s a sb.pos r.code i r.detailHandle r.detailOffset
      | none => finishSub s a sb.pos 0 0xFFFF 0 0
  | none => s

/-- HEAD passes every finished submission at the front (R126). -/
def passHead : Nat → State → Nat → State
  | 0, s, _ => s
  | n + 1, s, a =>
    match (getAlm s a).subs with
    | sb :: rest =>
      if sb.finished then
        passHead n (setReg (setAlm s a { getAlm s a with subs := rest }) (almR a 0x08)
          (BitVec.ofNat 32 (sb.pos + sb.slots))) a
      else s
    | [] => s

/-- An almanac brought up to date after a completion: followers, submissions in ring order, HEAD. -/
def settleAlm (s : State) (a : Nat) : State :=
  let s := (getAlm s a).subs.foldl (fun (st : State × Bool) sb =>
    let s := settleSub a st.2 st.1 sb
    (s, st.2 && ((findSub s a sb.pos).map (·.finished)).getD true)) (s, true) |>.1
  passHead (getAlm s a).subs.length s a

/-- A descriptor completed with a failure or a cancellation: record, NOTIFY, and what follows. -/
def failDesc (s : State) (d : DescRef) (code dh doff : Nat) : State :=
  settleAlm (notifyDesc (closeDesc s d code dh doff) d) d.alm.toNat

end Sys2Proof.Machine
end

