-- ==== Sys2Proof/Machine/Placement.lean ====
section
/-!
DEFINITION. Tiles, groups and page space as validation and placement see them (R166, R170, R171, R187 to R193).
-/
namespace Sys2Proof.Machine
open Sys2Proof

/-- TILE_ID.STATE of a tile. -/
def tileState (s : State) (t : Nat) : Nat := getf s (tileR t 0) 31 29

/-- Physical tiles. -/
def allTiles : List Nat := List.range 1152

/-- A tile serves: in service, as a loop tile or not. -/
def inService (s : State) (t : Nat) : Bool := decide (tileState s t ≤ 1)

/-- CMN_GROUPg: enabled with TILES of 1 or more. -/
def groupOn (s : State) (g : Nat) : Bool := decide (1 ≤ g ∧ g ≤ 255) && getb s (groupR g) 31 && getf s (groupR g) 10 0 != 0

/-- TILES of a group. -/
def groupSize (s : State) (g : Nat) : Nat := getf s (groupR g) 10 0

/-- A tile that has left placement: a running self-test or a TILE reset. -/
def tileOut (s : State) (t : Nat) : Bool := (getTile s t).selfTest || (getTile s t).resetting

/-- The tiles that a descriptor may use (R187 to R189). -/
def eligibleTiles (s : State) (d : BitVec 1024) : List Nat :=
  let g := dAffinity d
  if dLoop d then (groupTilesOf s g).filter fun t => tileState s t == 1
  else if dPin d && groupOn s g && !loopGroup s g then (groupTilesOf s g).filter fun t => tileState s t == 0
  else allTiles.filter fun t => tileState s t == 0

/-- The field tiles attached to a descriptor's group, as plots (R355). -/
def groupPlots (s : State) (g : Nat) : List Nat :=
  (List.range 32).filter fun p => getb s (pltR p 0x18) 31 && getf s (pltR p 0x18) 7 0 == g && getb s (pltR p 4) 28 &&
    plotServes s p

/-- Tiles of a group with its attached field tiles (R355). -/
def groupPlaces (s : State) (g : Nat) : Nat :=
  groupSize s g + ((List.range 32).filter fun p => getb s (pltR p 0x18) 31 && getf s (pltR p 0x18) 7 0 == g).length

/-- Stream contexts per tile that a descriptor holds (R170). -/
def contextNeed (sb : Sub) (d : BitVec 1024) : Nat :=
  let w := dFw d 0
  match dFamily d, dVariant d with
  | 1, _ => 3 + b2n (vScaled (slotView sb d 0)) + b2n (vScaled (slotView sb d 1)) + b2n (bitOf w 9) + b2n (bitOf w 10) +
      b2n (fld w 31 16 != noView)
  | 2, v => 3 + b2n (bitOf v 1)
  | 3, _ => ((List.range 3).filter fun k => sView d k != noView).length
  | 4, 0 => 2
  | 4, 3 => 2
  | 4, _ => 3
  | 5, _ => 2
  | 6, 1 => 1
  | 10, _ => 1 + b2n (sView d 2 != noView)
  | _, _ => 0

/-- A descriptor that needs a thread on a tile. -/
def needsThread (d : BitVec 1024) : Bool := contextNeed ⟨0, 0, 0, [], [], [], false, none, 0, 0, 0⟩ d != 0

/-- DIRECT of a tile (R169). -/
def directOf (s : State) (t : Nat) : Nat := getf s (tileR t 0x404) 6 0

/-- A thread and the contexts are free on a tile (R170, R171). -/
def tileHasRoom (s : State) (t need : Nat) : Bool :=
  let x := getTile s t
  decide (x.threads.length < 16) && decide (x.threads.foldl (fun n p => n + p.2) 0 + need ≤ 64 - directOf s t)

/-- Page space of one tile in a tier, in pages (R166). -/
def tilePages (s : State) (tier : Nat) : Nat :=
  if tier = 0 then (2 * 2 ^ 20 - getf s Reg.placeReserve 11 0 * 1024) / pageBytes else 32 * 2 ^ 20 / pageBytes

/-- Bytes of a sequence context's state (R149). -/
def SeqCtx.bytes (q : SeqCtx) : Nat := q.rows * (q.dims + 2) * 4

/-- Near store that sequence contexts take on a tile, in pages (R150, R205). -/
def seqPages (s : State) (t : Nat) : Nat :=
  ceilDiv (s.seqs.foldl (fun n p => if p.2.tile = t then n + p.2.bytes else n) 0) pageBytes

/-- Pages that lie at a place of this module: those that are leaving it apart, those on their way to it included, those of
handle `but` not counted. -/
def pagesAtPlace (s : State) (x : PagePlace) (but : Nat) : Nat :=
  s.handles.foldl (fun n h => if isWindow h ∨ h.id = but then n
    else n + ((livePages h).filter fun j => placeOf s h j == x && !copying s h.id j).length) 0 +
  (s.copies.filter fun c => c.dest == x && c.handle != but).length

/-- Pages that a tile holds in a tier (R165, R166). -/
def usedPages (s : State) (t tier but : Nat) : Nat :=
  pagesAtPlace s ⟨ownId s, tier, t⟩ but + (if tier = 1 then seqPages s t else 0)

/-- Granules of a page. -/
def pageGranules (h : Handle) (page : Nat) : Nat := ceilDiv (min pageBytes (h.size - page * pageBytes)) 64

/-- Pages of the module's LPDDR6 tier (R165). -/
def lpddrPages : Nat := 1440 * 2 ^ 30 / pageBytes

/-- The LPDDR6 tier is in service and has room for one more page. -/
def lpddrRoom (s : State) : Bool := memState s == 2 && decide (pagesAtPlace s ⟨ownId s, 2, 0⟩ 0 < lpddrPages)

/-- Tiles of a list that have room for one more page in a tier (R166). -/
def roomyTiles (s : State) (tiles : List Nat) (tier but : Nat) : List Nat :=
  tiles.filter fun t => decide (usedPages s t tier but < tilePages s tier)

/-- One member of a list, the placement engine's own choice. -/
def pickOne (l : List Nat) (s : State) : Option Nat × State :=
  let f := takeFree s
  (l[f.1 % l.length]?, f.2)

/-- A page put on a tile of a list, the engine's own choice among those with room; none has it: the page stays. -/
def placeOn (s : State) (h : Handle) (tiles : List Nat) (tier page : Nat) : State :=
  let r := pickOne (roomyTiles s tiles tier 0) s
  match r.1 with
  | some t => setPlace r.2 h.id page ⟨ownId s, tier, t⟩
  | none => r.2

/-- The tile whose stream engine copies a page: that of the new place, else that of the old one, else one in service of
the engine's choice. -/
def copyTile (s : State) (old new : PagePlace) : Nat × State :=
  if new.module = ownId s ∧ new.tier ≤ 1 then (new.tile, s)
  else if old.module = ownId s ∧ old.tier ≤ 1 then (old.tile, s)
  else let r := pickOne (allTiles.filter (inService s)) s; (r.1.getD 0, r.2)

/-- A copy begun; it takes the place of one under way (R196). -/
def startCopy (s : State) (owner : Option DescRef) (id page : Nat) (dest : PagePlace) : State :=
  match findHandle s id with
  | some h =>
    let r := copyTile s (placeOf s h page) dest
    let now := s.cycle
    { r.2 with copies := (s.copies.filter fun c => !(c.handle == id && c.page == page)) ++
        [⟨id, page, dest, r.1, owner, 0, [], now⟩] }
  | none => s

/-- The tile where a new sequence context's state lies: one with room in near store, of the engine's choice. -/
def seqHome (s : State) : Nat × State :=
  let r := pickOne (roomyTiles s (allTiles.filter (inService s)) 1 0) s
  (r.1.getD 0, r.2)

/-- Pages of existing pins that a tile holds in a tier, but for those of one handle (R193). -/
def pinnedPages (s : State) (tile tier but : Nat) : Nat :=
  s.handles.foldl (fun n h =>
    if h.pin.isNone ∨ h.id = but then n
    else n + ((List.range (pagesOf h.size)).filter fun j =>
      let p := placeOf s h j
      p.tier == tier && p.tile == tile && p.module == ownId s).length) 0

/-- Free page space of tiles in a tier, in pages (R193). -/
def freePages (s : State) (tiles : List Nat) (tier but : Nat) : Nat :=
  tiles.foldl (fun n t => n + (tilePages s tier - pinnedPages s t tier but)) 0

/-- The tiles concerned by a pin: the group's with GROUP, any in service otherwise. -/
def pinTiles (s : State) (g : Nat) (group : Bool) : List Nat :=
  if group then groupTilesOf s g else allTiles.filter (inService s)

/-- Near store taken by live sequence contexts, in bytes (R150). -/
def seqBytes (s : State) : Nat := s.seqs.foldl (fun n p => n + p.2.bytes) 0

end Sys2Proof.Machine
end

