-- ==== Sys2Proof/Machine/Validate.lean ====
section
/-!
DEFINITION. Validation of a whole submission: the eleven checks of R155 in their order, with the ten steps of R481 inside
check 4. The answer is the first failure, or none.
-/
namespace Sys2Proof.Machine
open Sys2Proof

/-- A refusal (R158): status, DESC_INDEX, DETAIL_HANDLE, DETAIL_OFFSET. -/
structure Refuse where
  code : Nat
  idx : Nat
  handle : Nat
  off : Nat
  deriving DecidableEq, Repr

/-- A refusal under a condition. -/
def refuseIf (b : Bool) (r : Refuse) : Option Refuse := if b then some r else none

/-- The first refusal of a list of checks. -/
def firstRefusal : List (Option Refuse) → Option Refuse
  | [] => none
  | some r :: _ => some r
  | none :: t => firstRefusal t

/-- A refusal that names a descriptor and nothing else. -/
def refuseDesc (i code : Nat) (b : Bool) : Option Refuse := refuseIf b ⟨code, i, 0, 0⟩

/-- The role of a view in a descriptor. -/
inductive Role where
  | aIn | bIn | numIn | numOut | mmaOut | index | indexOut | panel | anyIn | anyOut | tier | raw | rawOut | program
  deriving DecidableEq, Repr

/-- How far a role's elements reach: a grid moved by the loop nest, a grid that stays, a whole buffer, or granules. -/
inductive Reach where
  | moved | fixed | whole | granules
  deriving DecidableEq, Repr

/-- A view that a descriptor names: its role, index, slot for the increments, rows and columns, and reach. -/
structure Use where
  role : Role
  view : Nat
  slot : Nat
  rows : Nat
  cols : Nat
  reach : Reach
  deriving DecidableEq, Repr

/-- The role is an output. -/
def Role.isOut : Role → Bool
  | .numOut | .mmaOut | .indexOut | .panel | .anyOut | .tier | .rawOut => true
  | _ => false

/-- A byte range of a buffer (R145). -/
structure Foot where
  handle : Nat
  lo : Nat
  hi : Nat
  out : Bool
  deriving DecidableEq, Repr

/-- Two footprints meet. -/
def Foot.meets (a b : Foot) : Bool := a.handle == b.handle && decide (a.lo ≤ b.hi) && decide (b.lo ≤ a.hi)

/-- A submission as validation sees it: the almanac, its owner, the header, the views, the unused view positions of the
last view slot, and the descriptors. -/
structure Cand where
  alm : Nat
  owner : Nat
  header : BitVec 1024
  views : List (BitVec 256)
  rest : List (BitVec 256)
  descs : List (BitVec 1024)
  deriving DecidableEq, Repr

/-- View `i` of a candidate. -/
def Cand.view (c : Cand) (i : Nat) : BitVec 256 := (c.views[i]?).getD 0

/-- A candidate as a submission whose descriptors have not started. -/
def Cand.sub (c : Cand) (pos slots : Nat) : Sub where
  pos := pos
  slots := slots
  header := c.header
  views := c.views
  descs := c.descs
  runs := c.descs.map fun _ => Run.fresh
  finished := false
  firstStart := none
  firstMeridian := 0
  lastEnd := 0
  lastMeridian := 0

/-- The views that a descriptor names (R146 to R154). -/
def usesOf (d : BitVec 1024) (counts : List Nat) : List Use :=
  let w := dFw d 0
  let f1 := dFw d 1
  let f2 := dFw d 2
  let f3 := dFw d 3
  let aux := fld w 31 16
  match dFamily d, dVariant d with
  | 1, _ =>
    [⟨.aIn, sView d 0, 0, f1, f3, .moved⟩, ⟨.bIn, sView d 1, 1, f3, f2, .moved⟩, ⟨.mmaOut, sView d 2, 2, f1, f2, .moved⟩] ++
    (if bitOf w 9 then [⟨.numIn, sAux d 2, 2, f1, f2, .moved⟩] else []) ++
    (if aux = noView then []
     else if isCmp (fld w 2 0) then [⟨.indexOut, aux, 2, f1, f2, .moved⟩]
     else if bitOf w 11 then [⟨.panel, aux, 2, 1, iterCount counts * ceilDiv f1 32 * ceilDiv f2 32, .fixed⟩]
     else [])
  | 2, v =>
    [⟨.numIn, sView d 0, 0, f1, f3, .moved⟩, ⟨.numIn, sView d 1, 1, f3, f2, .moved⟩] ++
    (if bitOf v 1 then [⟨.numOut, sView d 2, 2, f1, f2, .moved⟩] else [])
  | 3, _ =>
    (((List.range 3).filter fun k => sView d k != noView).map fun k =>
      ⟨if bitOf w (10 + k) then .anyOut else .anyIn, sView d k, k, 1, sAux d k, .granules⟩) ++
    [⟨.program, fld f1 15 0, 0, 1, 8 * fld w 9 0, .fixed⟩]
  | 4, 0 => [⟨.anyIn, sView d 0, 0, f1, f2, .moved⟩, ⟨.anyOut, sView d 2, 2, f1, f2, .moved⟩]
  | 4, 1 => [⟨.anyIn, sView d 0, 0, f1, f2, .whole⟩, ⟨.index, sView d 1, 1, if f2 = 0 then 0 else f1, 1, .moved⟩,
      ⟨.anyOut, sView d 2, 2, f1, f2, .moved⟩]
  | 4, 2 => [⟨.anyIn, sView d 0, 0, f1, f2, .moved⟩, ⟨.index, sView d 1, 1, if f2 = 0 then 0 else f1, 1, .moved⟩,
      ⟨.anyOut, sView d 2, 2, f1, f2, .whole⟩]
  | 4, _ => [⟨.tier, sView d 0, 0, 1, 1, .whole⟩]
  | 5, _ => [⟨.numIn, sView d 0, 0, f1, f2, .moved⟩, ⟨.numOut, sView d 2, 2, 1, f2, .moved⟩]
  | 6, 1 => [⟨.index, sView d 0, 0, 1, 1, .fixed⟩]
  | 10, _ => [⟨.anyIn, sView d 0, 0, f1, f2, .moved⟩] ++
      (if sView d 2 = noView then [] else [⟨.rawOut, sView d 2, 2, 1, 32, .fixed⟩])
  | _, _ => []

/-! Checks 1 and 2. -/

/-- Check 1 (R133). -/
def check1 (h : BitVec 1024) : Option Refuse :=
  let w := dWord h 0
  firstRefusal
    [ refuseIf (fld w 31 18 != 0 || fld w 15 8 != 0 || dWord h 0x0C != 0 || fld h.toNat 1023 (8 * 0x18) != 0)
        ⟨0x0001, noView, 0, 0⟩
    , refuseIf (fld w 7 0 != 1) ⟨0x0002, noView, 0, 0⟩
    , refuseIf (decide (4096 < hViews h)) ⟨0x0305, noView, 0, 0⟩ ]

/-- Elements to which BASE, PITCH and the steps of a view are aligned (R135). -/
def packAlign (v : BitVec 256) : Nat := if vKind v ≠ 0 then 1 else if vFmt v = 8 then 2 else if vFmt v = 7 then 4 else 1

/-- Check 2 of one view (R134, R135, R128). -/
def check2 (s : State) (owner i : Nat) (v : BitVec 256) : Option Refuse :=
  firstRefusal
    [ refuseIf (fld v.toNat 255 192 != 0 || fld v.toNat 63 41 != 0) ⟨0x0001, noView, 0, i⟩
    , refuseIf (vKind v == 3) ⟨0x0002, noView, 0, i⟩
    , refuseIf (vKind v != 0 && vFmt v != 0) ⟨0x0001, noView, 0, i⟩
    , refuseIf (vPitch v == 0 || vBase v % packAlign v != 0 || vPitch v % packAlign v != 0) ⟨0x0305, noView, 0, i⟩
    , refuseIf (openHandle s owner (vHandle v)).isNone ⟨0x0303, noView, vHandle v, i⟩
    , refuseIf (vComp v != 0 && (openHandle s owner (vComp v)).isNone) ⟨0x0303, noView, vComp v, i⟩ ]

/-! Check 3. -/

/-- The bits of FWn that a family's variant defines. -/
def fwMask (d : BitVec 1024) (n : Nat) : Nat :=
  let all := 0xFFFFFFFF
  let row := match dFamily d with
    | 1 => [0xFFFF0FFF, all, all, all, all]
    | 2 => [0x3F, all, all, all, all]
    | 3 => [0x1FFF, 0xFFFF, 0, 0, 0]
    | 4 => [0, all, all, if dVariant d = 3 then 0x1F else 0, 0]
    | 5 => [0x1F, all, all, 0, all]
    | 6 => [0xF, if dVariant d = 1 then 0 else all, 0, 0, 0]
    | 7 => [1, 0, 0, 0, 0]
    | 8 => [0xFF, 0, 0, 0, 0]
    | 10 => [0, all, all, 0, 0]
    | _ => [0, 0, 0, 0, 0]
  (row[n]?).getD 0

/-- The highest VARIANT value that a family defines (R139). -/
def lastVariant (f : Nat) : Nat :=
  match f with
  | 2 => 3
  | 4 => 3
  | 5 => 2
  | 6 => 2
  | 8 => 2
  | _ => 0

/-- The slots whose VIEW must name a view, and those whose VIEW may be 0xFFFF. -/
def slotNeeds (d : BitVec 1024) : List Nat × List Nat :=
  match dFamily d with
  | 3 => ([], [0, 1, 2])
  | 10 => ([0], [2])
  | _ => (slotsUsed d, [])

/-- Reserved fields and encodings of a descriptor (R9, R10, R138, R139, R141, R144). -/
def check3Reserved (i : Nat) (d : BitVec 1024) : Option Refuse :=
  let f := dFamily d
  let w := dWord d 0
  let used := (slotNeeds d).1 ++ (slotNeeds d).2
  let nonzero := refuseDesc i 0x0001
  firstRefusal
    [ nonzero (bitOf w 31 || fld w 15 12 != 0 || fld (dWord d 0x1C) 29 28 != 0 || fld (dWord d 0x20) 31 24 != 0)
    , refuseDesc i 0x0002 (f == 0 || decide (10 < f))
    , nonzero (f == 2 && decide (3 < dVariant d))
    , refuseDesc i 0x0002 (decide (lastVariant f < dVariant d))
    , nonzero ((List.range 5).any fun n => dFw d n &&& (0xFFFFFFFF - fwMask d n) != 0)
    , nonzero ((List.range 2).any fun n =>
        (decide (dWaits d ≤ n) && (dWaitFlag d n != 0 || dWaitTarget d n != 0)) ||
        (decide (dSignals d ≤ n) && (dSigFlag d n != 0 || dSigAdd d n != 0)))
    , nonzero (if noLoops f then (List.range 4).any (fun n => dLoopWord d n != 0) || fld (dWord d 0x38) 15 0 != 0
        else (List.range 4).any fun n => bitOf (dLoopWord d n) 31 && fld (dLoopWord d n) 7 4 != 0)
    , nonzero ((List.range 3).any fun k => if used.contains k
        then sAux d k != 0 && !(f == 3 || (f == 1 && k == 2)) else dSlot d k != 0) ]

/-- An effective step of a slot's loop levels (R135). -/
def stepOf (d : BitVec 1024) (k n : Nat) : Int := sInc d k n * 2 ^ dShift d n

/-- A packed view moved by a step that is not whole groups, or a VEC operand off its granules (R135, R151). -/
def misaligned (s : State) (c : Cand) (d : BitVec 1024) : Bool :=
  let packed := fun (k vi : Nat) => decide (vi < c.views.length) &&
    (List.range 4).any fun n => stepOf d k n % (packAlign (c.view vi) : Int) != 0
  let off := fun (k : Nat) =>
    let v := c.view (sView d k)
    let w := viewBits (userFor s (dAffinity d)) v
    decide (sView d k < c.views.length) && (w * vBase v % 512 != 0 ||
      (List.range 4).any fun n => decide (1 < ((maxCounts d)[n]?).getD 0) && (w : Int) * stepOf d k n % 512 != 0)
  ((List.range 3).any fun k => packed k (sView d k)) || (dFamily d == 1 && bitOf (dFw d 0) 9 && packed 2 (sAux d 2)) ||
    (dFamily d == 3 && (List.range 3).any off)

/-- The ranges of a family's own fields. -/
def familyRange (c : Cand) (i : Nat) (d : BitVec 1024) : Bool :=
  let w := dFw d 0
  let nv := c.views.length
  let aux := fld w 31 16
  match dFamily d with
  | 1 => (aux != noView && decide (nv ≤ aux)) || (bitOf w 9 && decide (nv ≤ sAux d 2)) ||
      (bitOf w 11 && (aux == noView || isCmp (fld w 2 0))) || dFw d 4 == 0
  | 2 => dFw d 4 == 0 || decide (2 ^ 24 < dFw d 4)
  | 3 => fld w 9 0 == 0 || decide (512 < fld w 9 0) || decide (nv ≤ fld (dFw d 1) 15 0) ||
      (List.range 3).any fun k => sView d k != noView && sAux d k == 0
  | 4 => dVariant d == 3 && ((bitOf (dFw d 3) 4 && bitOf (dFw d 3) 3) ||
      (bitOf (dFw d 3) 2 && (fld (dFw d 3) 1 0 != 0 || dAffinity d == 0)))
  | 5 => dFw d 4 == 0 || decide (65536 < dFw d 4)
  | 8 => dVariant d == 2 && !(decide (1 ≤ dPred d 0 ∧ dPred d 0 ≤ i) &&
      match c.descs[i - dPred d 0]? with
      | some a => dFamily a == 8 && dVariant a == 1 && fld (dFw a 0) 7 0 == fld w 7 0
      | none => false)
  | 9 => dTransit d == 0
  | _ => false

/-- Fields out of their ranges (R138, R140, R188, R213). -/
def check3Range (s : State) (c : Cand) (i : Nat) (d : BitVec 1024) : Bool :=
  let nv := c.views.length
  decide (2 < dWaits d) || decide (2 < dSignals d) || dSpread d == 0 || decide (1024 < dSpread d) ||
  decide (i < dPred d 0) || decide (i < dPred d 1) || decide (255 < dAffinity d) ||
  ((List.range (dWaits d)).any fun n => !flagInRange s c.owner (dWaitFlag d n)) ||
  ((List.range (dSignals d)).any fun n => !flagInRange s c.owner (dSigFlag d n)) ||
  ((slotNeeds d).1.any fun k => decide (nv ≤ sView d k)) ||
  ((slotNeeds d).2.any fun k => sView d k != noView && decide (nv ≤ sView d k)) ||
  familyRange c i d || misaligned s c d

/-- Check 3 of one descriptor. -/
def check3 (s : State) (c : Cand) (i : Nat) (d : BitVec 1024) : Option Refuse :=
  firstRefusal [check3Reserved i d, refuseDesc i 0x0305 (check3Range s c i d)]

/-! Check 4 (R481). -/

/-- The input class of a pair (R55): 0 narrow, 1 16-bit, 2 INT8, 3 Q24, 4 FP32, 5 FP64. -/
def pairClass (a b : Nat) : Option Nat :=
  let narrow := fun f => f == 5 || f == 6 || f == 7 || f == 8
  let half := fun f => f == 2 || f == 3 || f == 4
  if narrow a && narrow b then some 0
  else if half a && half b then some 1
  else if a ≠ b then none
  else match a with
    | 9 => some 2
    | 10 => some 3
    | 1 => some 4
    | 0 => some 5
    | _ => none

/-- The semiring accepts the input class (R97). -/
def classAccepted (sem cls : Nat) : Bool :=
  if cls = 3 then sem == 0 else if cls = 5 then !isCmp sem else true

/-- The accumulator formats of an input class (R56, R97). -/
def accAccepted (sem cls : Nat) (scaled : Bool) (acc : Nat) : Bool :=
  match cls with
  | 2 => acc == if scaled then 1 else 9
  | 3 => acc == 10
  | 4 => acc == 1 || (acc == 0 && !isCmp sem)
  | 5 => acc == 0
  | _ => acc == 1

/-- A format that takes a block scale (R51). -/
def scalable (f : Nat) : Bool := f == 5 || f == 6 || f == 7 || f == 8 || f == 9

/-- Strict mode is available for a semiring (R65, R353). -/
def strictAvailable (sem : Nat) : Bool := sem == 0 || sem == 3 || sem == 4

/-- KIND that a role asks for. -/
def kindFits (r : Role) (k : Nat) : Bool :=
  match r with
  | .aIn | .bIn | .numIn | .numOut | .mmaOut | .panel => k == 0
  | .index | .indexOut => k == 1
  | .raw | .rawOut | .program => k == 2
  | .anyIn | .anyOut | .tier => true

/-- The program of a VEC descriptor lies in its buffer. -/
def programInside (s : State) (c : Cand) (d : BitVec 1024) : Bool :=
  let v := c.view (fld (dFw d 1) 15 0)
  decide (vBase v + 8 * fld (dFw d 0) 9 0 ≤ handleSize s (vHandle v))

/-- The words of the program that a VEC descriptor names. -/
def candWords (s : State) (c : Cand) (d : BitVec 1024) : List Nat :=
  if dFamily d = 3 ∧ programInside s c d then vecWords s (c.sub 0 0) d else []

/-- The user encodings that a descriptor uses (R354): formats, the semiring, operations, as bits of PLT_FT_CAP. -/
def userBits (s : State) (c : Cand) (d : BitVec 1024) (us : List Use) : List Nat :=
  ((us.filter fun u => vKind (c.view u.view) == 0 && decide (10 < vFmt (c.view u.view))).map fun u =>
    26 + vFmt (c.view u.view) - 11) ++
  (if dFamily d = 1 ∧ fld (dFw d 0) 2 0 = 7 then [42] else []) ++
  ((candWords s c d).filterMap fun w =>
    let op := fld w 63 56
    if 0x60 ≤ op ∧ op ≤ 0x67 then some (15 + (op - 0x60)) else none)

/-- A field tile of a group declares every user encoding of a list. -/
def declaring (s : State) (g : Nat) (bits : List Nat) : Option Nat :=
  (groupPlots s g).find? fun p => bits.all fun b => bitOf (get64 s (pltR p 8)) b

/-- Step 2: user encodings outside their three conditions (R354). -/
def userMisused (s : State) (d : BitVec 1024) (bits : List Nat) : Bool :=
  !bits.isEmpty && !(dPin d && groupOn s (dAffinity d) && (declaring s (dAffinity d) bits).isSome)

/-- Step 3 for a pair with a user format (R354): with itself, or with a format that the field tile declares. -/
def userPair (s : State) (g : Nat) (bits : List Nat) (a b : Nat) : Bool :=
  a == b || match declaring s g bits with
    | some p => (decide (a ≤ 10) && bitOf (get64 s (pltR p 8)) (31 + a)) ||
        (decide (b ≤ 10) && bitOf (get64 s (pltR p 8)) (31 + b))
    | none => false

/-- Indices per pass of an MMA (R88, R352). -/
def mmaPassLimit (s : State) (d : BitVec 1024) (a b : Nat) : Nat :=
  let w := dFw d 0
  let sem := fld w 2 0
  65536 * (if sem = 7 then 2 ^ fld (userWord s (dAffinity d)) 17 15 else rateP sem a b (bitOf w 7 && a != 9 && a != 10))

/-- Steps 3 to 8 of an MMA. -/
def check4Mma (s : State) (c : Cand) (i : Nat) (d : BitVec 1024) (bits : List Nat) : Option Refuse :=
  let w := dFw d 0
  let sem := fld w 2 0
  let acc := fld w 6 3
  let av := c.view (sView d 0)
  let bv := c.view (sView d 1)
  let cv := c.view (sView d 2)
  let biasV := c.view (sAux d 2)
  let user := decide (10 < vFmt av) || decide (10 < vFmt bv)
  let cls := pairClass (vFmt av) (vFmt bv)
  let scaleBad := fun (v : BitVec 256) => vScaled v && !scalable (vFmt v)
  let accOk := match cls with
    | some k => if sem = 7 then acc == 0 || acc == 1 || acc == 9 || acc == 10
        else accAccepted sem k (vScaled av || vScaled bv) acc
    | none => acc == 0 || acc == 1 || acc == 9 || acc == 10
  firstRefusal
    [ refuseDesc i 0x0101 (if user then !userPair s (dAffinity d) bits (vFmt av) (vFmt bv) else cls.isNone)
    , refuseDesc i 0x0102 (bitOf w 7 && !strictAvailable sem)
    , refuseDesc i 0x0101 (sem != 7 && !user && match cls with
        | some k => !classAccepted sem k
        | none => false)
    , refuseDesc i 0x0103 (scaleBad av || scaleBad bv || (bitOf w 9 && scaleBad biasV))
    , refuseDesc i 0x0101 (!accOk || vFmt cv == 2 ||
        (bitOf w 11 && !isCmp sem && vFmt (c.view (fld w 31 16)) != 1))
    , refuseDesc i 0x0201 (decide (mmaPassLimit s d (vFmt av) (vFmt bv) < dFw d 4)) ]

/-- Steps 3 to 8 of the other families (R148, R152, R153). An output view of format F19 is refused for each of them (R48;
DEDUCED for the copies of MOVE and the written operands of VEC, log entry 114). -/
def check4Other (c : Cand) (i : Nat) (d : BitVec 1024) (us : List Use) : Option Refuse :=
  let fm := fun (k : Nat) => vFmt (c.view (sView d k))
  let scaled := refuseDesc i 0x0103 (us.any fun u =>
    let v := c.view u.view
    !u.role.isOut && vKind v == 0 && vScaled v && !scalable (vFmt v))
  let f19Out := refuseDesc i 0x0101 (us.any fun u =>
    u.role == .anyOut && vKind (c.view u.view) == 0 && vFmt (c.view u.view) == 2)
  match dFamily d, dVariant d with
  | 2, v => firstRefusal
    [ refuseDesc i 0x0101 ([0, 1].any fun k => !(fm k == 1 || fm k == 2 || fm k == 3 || fm k == 4))
    , scaled
    , refuseDesc i 0x0101 (bitOf v 1 && fm 2 == 2) ]
  | 5, _ => firstRefusal
    [ scaled
    , refuseDesc i 0x0101 (fm 2 == 2 || match pairClass (fm 0) (fm 0) with
        | some k => !accAccepted 0 k false (fld (dFw d 0) 3 0)
        | none => true) ]
  | 4, v => firstRefusal [refuseDesc i 0x0101 (v != 3 && fm 0 != fm 2), scaled, f19Out]
  | _, _ => firstRefusal [scaled, f19Out]

/-- Step 10 for one view (R136, R146). -/
def companionBad (d : BitVec 1024) (c : Cand) (u : Use) : Bool :=
  let v := c.view u.view
  let input := u.role == .aIn || u.role == .bIn
  let takes := if input then vScaled v else u.role == .mmaOut && bitOf (dFw d 0) 10
  (vScaled v && !input) || (input && vScaled v && vKAxis v != (u.role == .bIn)) || takes != (vComp v != 0) ||
  (u.role == .bIn && vScaled v && vKAxis v && (vBase v / vPitch v % 32 != 0 ||
    (List.range 4).any fun n => (stepOf d 1 n).tdiv (vPitch v : Int) % 32 != 0))

/-- The lowest and highest element index of a use over all iterations; none where nothing is accessed. -/
def elemSpan (c : Cand) (d : BitVec 1024) (counts : List Nat) (u : Use) : Option (Int × Int) :=
  if u.rows = 0 ∨ u.cols = 0 ∨ counts.contains 0 then none
  else
    let v := c.view u.view
    let steps := if u.reach = .moved ∨ u.reach = .granules then
        counts.mapIdx fun n (k : Nat) => ((k : Int) - 1) * stepOf d u.slot n else []
    let lo := steps.foldl (fun x st => x + min 0 st) (vBase v : Int)
    let hi := steps.foldl (fun x st => x + max 0 st) (vBase v : Int)
    let last := if u.reach = .granules then hi else if u.reach = .moved then hi + (u.rows - 1 : Nat) * vPitch v + (u.cols - 1 : Nat)
      else hi + (u.cols - 1 : Nat)
    some (lo, last)

/-- The companion bytes of elements `lo` to `hi` (R136). -/
def compSpan (v : BitVec 256) (lo hi : Nat) (plane : Bool) : Nat × Nat :=
  let p := vPitch v
  if plane then (lo / 2, hi / 2)
  else if !vKAxis v then (scaleByteAt v lo, scaleByteAt v hi)
  else
    let g0 := lo / p / 32
    let end0 := min hi ((g0 + 1) * 32 * p - 1)
    let top := hi / p / 32
    let first := max lo (top * 32 * p)
    (g0 * p + (if lo / p < end0 / p then 0 else lo % p), top * p + (if first / p < hi / p then p - 1 else hi % p))

/-- The companion footprint of a use, where it takes one. -/
def compFoot (c : Cand) (d : BitVec 1024) (counts : List Nat) (u : Use) : Option Foot :=
  let v := c.view u.view
  let plane := u.role == .mmaOut && bitOf (dFw d 0) 10
  if plane ∨ ((u.role = .aIn ∨ u.role = .bIn) ∧ vScaled v) then
    match elemSpan c d counts u with
    | some (lo, hi) =>
      if lo < 0 then none
      else
        let r := compSpan v lo.toNat hi.toNat plane
        some ⟨vComp v, r.1, r.2, plane⟩
    | none => none
  else none

/-- Check 4 of one descriptor, in the order of R481. -/
def check4 (s : State) (c : Cand) (i : Nat) (d : BitVec 1024) : Option Refuse :=
  let counts := maxCounts d
  let us := usesOf d counts
  let bits := userBits s c d us
  let words := candWords s c d
  firstRefusal
    [ refuseDesc i 0x0310 ((us.any fun u => !kindFits u.role (vKind (c.view u.view))) ||
        (dFamily d == 4 && dVariant d != 3 && vKind (c.view (sView d 0)) != vKind (c.view (sView d 2))))
    , refuseDesc i 0x0A05 (userMisused s d bits)
    , if dFamily d = 1 then check4Mma s c i d bits else check4Other c i d us
    , if dFamily d = 3 ∧ programInside s c d then (progBreach words).map fun a => ⟨0x0204, i, 0, a⟩ else none
    , firstRefusal (us.map fun u => refuseIf (companionBad d c u) ⟨0x030D, i, vComp (c.view u.view), 0⟩)
    , firstRefusal (us.map fun u => match compFoot c d counts u with
        | some f => refuseIf (decide (handleSize s f.handle ≤ f.hi)) ⟨0x030D, i, f.handle, 0⟩
        | none => none) ]

/-! Checks 5 to 7. -/

/-- The footprint of a use, or its handle where it leaves its buffer (check 5). -/
def useFoot (s : State) (c : Cand) (d : BitVec 1024) (counts : List Nat) (u : Use) : Option (Foot × Bool) :=
  let v := c.view u.view
  let w := viewBits (userFor s (dAffinity d)) v
  let size := handleSize s (vHandle v)
  match elemSpan c d counts u with
  | none => none
  | some (lo, hi) =>
    if u.reach = .whole then some (⟨vHandle v, 0, size - 1, u.role.isOut⟩, true)
    else
      let last := if u.reach = .granules then elemLo w hi.toNat + 64 * u.cols - 1 else elemHi w hi.toNat
      some (⟨vHandle v, elemLo w lo.toNat, last, u.role.isOut⟩, decide (0 ≤ lo) && decide (last < size))

/-- Every footprint of a descriptor, companions last (R145, R155). -/
def feet (s : State) (c : Cand) (d : BitVec 1024) : List Foot :=
  let counts := maxCounts d
  let us := usesOf d counts
  (us.filterMap fun u => (useFoot s c d counts u).map (·.1)) ++ us.filterMap (compFoot c d counts)

/-- Check 5 of one descriptor. -/
def check5 (s : State) (c : Cand) (i : Nat) (d : BitVec 1024) : Option Refuse :=
  let counts := maxCounts d
  firstRefusal ((usesOf d counts).map fun u => match useFoot s c d counts u with
    | some (f, ok) => refuseIf (!ok) ⟨0x0302, i, f.handle, 0⟩
    | none => none)

/-- Check 6 of one descriptor. -/
def check6 (i : Nat) (fs : List Foot) : Option Refuse :=
  firstRefusal (fs.map fun o => refuseIf (o.out && fs.any fun x => !x.out && o.meets x) ⟨0x0306, i, o.handle, 0⟩)

/-- A completion index is in bounds (R155). -/
def indexFits (s : State) (a k : Nat) : Bool := k == noRecord || recordFits s a k

/-- A buffer is resident for LOOP descriptors of a group (R194). -/
def residentFor (s : State) (id g : Nat) : Bool :=
  match findHandle s id with
  | some h => h.pin == some ⟨0, true, g⟩
  | none => false

/-- Check 7 of one descriptor. DEDUCED (log entry 117): a MOVE TIER writes into its buffer here as well, since R192 counts
the whole buffer as its output footprint for the checks of R155, although it changes no contents. -/
def check7 (s : State) (c : Cand) (i : Nat) (d : BitVec 1024) (fs : List Foot) : Option Refuse :=
  let sealed := (c.views.filter vSealed).map vHandle
  let operands := ((usesOf d (maxCounts d)).filter fun u => u.role != .program).flatMap fun u =>
    let v := c.view u.view
    vHandle v :: (if vComp v = 0 then [] else [vComp v])
  firstRefusal
    [ firstRefusal (fs.map fun f => refuseIf (f.out && sealed.contains f.handle) ⟨0x0308, i, f.handle, 0⟩)
    , refuseDesc i 0x0309 (dTransit d != 0 && !dLoop d)
    , firstRefusal (operands.map fun h => refuseIf (dLoop d && !residentFor s h (dAffinity d)) ⟨0x030A, i, h, 0⟩)
    , refuseDesc i 0x030C (!indexFits s c.alm (dCompletion d)) ]

/-! Check 8. -/

/-- Ancestors through predecessors, one bit mask a descriptor. -/
def ancestors (descs : List (BitVec 1024)) : List Nat :=
  (descs.mapIdx fun i d => (i, d)).foldl (fun acc p =>
    acc ++ [(predsOf p.2 p.1).foldl (fun m j => m ||| (1 <<< j) ||| (acc[j]?).getD 0) 0]) []

/-- The count registers that a descriptor reads (R145). -/
def regsRead (d : BitVec 1024) : List Nat :=
  (if noLoops (dFamily d) then [] else
    ((List.range 4).filter fun n => bitOf (dLoopWord d n) 31).map fun n => fld (dLoopWord d n) 3 0) ++
  (if dFamily d = 6 ∧ dVariant d = 2 then [fld (dFw d 0) 3 0] else [])

/-- COUNT_ORDER (R145). -/
def checkCounts (c : Cand) : Option Refuse :=
  let anc := ancestors c.descs
  let ix := c.descs.mapIdx fun i d => (i, d)
  firstRefusal (ix.map fun p => refuseDesc p.1 0x030B ((regsRead p.2).any fun r => ix.any fun q =>
    dFamily q.2 == 6 && fld (dFw q.2 0) 3 0 == r && q.1 != p.1 && !((anc[p.1]?).getD 0).testBit q.1))

/-- A sequence context as validation follows it: number, live, R, D, positions. -/
abbrev SeqSeen := Nat × Bool × Nat × Nat × Nat

/-- One descriptor in the walk over sequence contexts (R150). -/
def seqWalk (s : State) (i : Nat) (d : BitVec 1024) (l : List SeqSeen) : Option Refuse × List SeqSeen :=
  if dFamily d ≠ 2 then (none, l)
  else
    let cx := fld (dFw d 0) 5 0
    let now : SeqSeen := match l.find? fun x => x.1 == cx with
      | some x => x
      | none => match findSeq s cx with
        | some q => (cx, true, q.rows, q.dims, q.positions)
        | none => (cx, false, 0, 0, 0)
    let init := bitOf (dVariant d) 0
    let bad := if init then now.2.1 || (findSeq s cx).isSome else !now.2.1 || now.2.2.1 != dFw d 1 || now.2.2.2.1 != dFw d 2
    let pos := (if init then 0 else now.2.2.2.2) + dFw d 3 * iterCount (maxCounts d)
    if bad then (refuseDesc i 0x030E true, l)
    else if 2 ^ 24 < pos then (refuseDesc i 0x030F true, l)
    else (none, (cx, !bitOf (dVariant d) 1, dFw d 1, dFw d 2, pos) :: l.filter fun x => x.1 != cx)

/-- SEQ_STATE and SEQ_OVERFLOW (R150). -/
def checkSeqs (s : State) (c : Cand) : Option Refuse :=
  ((c.descs.mapIdx fun i d => (i, d)).foldl (fun (st : Option Refuse × List SeqSeen) p =>
    match st.1 with
    | some r => (some r, st.2)
    | none => seqWalk s p.1 p.2 st.2) (none, [])).1

/-! Checks 9 and 10. -/

/-- The edges of R156 into each descriptor from each: a mask of the descriptors that `i` leads to. -/
def edgesFrom (ix : List (Nat × BitVec 1024)) (i : Nat) (d : BitVec 1024) : Nat :=
  let sigs := (List.range (dSignals d)).map (dSigFlag d)
  ix.foldl (fun m q =>
    let waits := (List.range (dWaits q.2)).map (dWaitFlag q.2)
    if (predsOf q.2 q.1).contains i || sigs.any waits.contains then m ||| (1 <<< q.1) else m) 0

/-- The transitive closure: paths that may pass through each descriptor in turn. -/
def closure (n : Nat) (rows : List Nat) : List Nat :=
  (List.range n).foldl (fun rs k =>
    let rk := (rs[k]?).getD 0
    rs.map fun r => if r.testBit k then r ||| rk else r) rows

/-- Which descriptors a path leads to from each (R156). -/
def reachRows (c : Cand) : List Nat :=
  let ix := c.descs.mapIdx fun i d => (i, d)
  closure c.descs.length (ix.map fun p => edgesFrom ix p.1 p.2)

/-- DEADLOCK_STATIC (R156). -/
def check9 (rows : List Nat) : Option Refuse :=
  firstRefusal (rows.mapIdx fun i r => refuseDesc i 0x0304 (r.testBit i))

/-- FOOTPRINT_RACE (R157). DESIGN CHOICE (log entry 115): the first pair is the one whose higher index is lowest, so the
pair (1, 2) comes before the pair (0, 5). -/
def check10 (rows : List Nat) (all : List (List Foot)) : Option Refuse :=
  let row := fun (i : Nat) => (rows[i]?).getD 0
  let fs := fun (i : Nat) => (all[i]?).getD []
  firstRefusal ((List.range all.length).map fun j => refuseDesc j 0x0307 ((List.range j).any fun i =>
    !(row i).testBit j && !(row j).testBit i &&
      (fs i).any fun a => (fs j).any fun b => (a.out || b.out) && a.meets b))

/-! Check 11. -/

/-- Bytes of near store in service, less the pages pinned there. -/
def nearBytes (s : State) : Nat :=
  let ts := allTiles.filter (inService s)
  ts.length * (32 * 2 ^ 20) - (ts.map fun t => pinnedPages s t 1 0).foldl (· + ·) 0 * pageBytes

/-- Bytes of a FOLD's context (R150). -/
def foldBytes (d : BitVec 1024) : Nat := dFw d 1 * (dFw d 2 + 2) * 4

/-- Check 11 of one descriptor; `seq`: bytes of sequence state reserved before it. DESIGN CHOICE (log entry 116): R155 names
Commons reservations among what check 11 looks at, and the manual gives no descriptor one beside those below, so no
further check stands for them. -/
def check11 (s : State) (c : Cand) (seq i : Nat) (d : BitVec 1024) : Option Refuse :=
  let g := dAffinity d
  let need := contextNeed (c.sub 0 0) d
  let w := dFw d 3
  let id := vHandle (c.view (sView d 0))
  firstRefusal
    [ refuseDesc i 0x0301 (dLoop d && !(loopGroup s g && groupOn s g))
    , refuseDesc i 0x0301 (dPin d && !dLoop d && groupOn s g && loopGroup s g)
    , refuseDesc i 0x0301 (need != 0 && (eligibleTiles s d).all fun t => decide (64 - directOf s t < need))
    , refuseIf (dFamily d == 4 && dVariant d == 3 && bitOf w 3 && decide (fld w 1 0 < 2) && !(maxCounts d).contains 0 &&
        decide (freePages s (pinTiles s g (bitOf w 2)) (fld w 1 0) id < pagesOf (handleSize s id))) ⟨0x0301, i, id, 0⟩
    , refuseDesc i 0x0301 (dFamily d == 2 && bitOf (dVariant d) 0 && decide (nearBytes s < seq + foldBytes d)) ]

/-- Bytes of sequence state after a descriptor. -/
def seqAfter (d : BitVec 1024) (seq : Nat) : Nat :=
  if dFamily d ≠ 2 then seq
  else seq + (if bitOf (dVariant d) 0 then foldBytes d else 0) - (if bitOf (dVariant d) 1 then foldBytes d else 0)

/-- Check 11 over the submission. -/
def checkFit (s : State) (c : Cand) : Option Refuse :=
  ((c.descs.mapIdx fun i d => (i, d)).foldl (fun (st : Option Refuse × Nat) p =>
    match st.1 with
    | some r => (some r, st.2)
    | none => (check11 s c st.2 p.1 p.2, seqAfter p.2 st.2)) (none, seqBytes s)).1

/-! The whole. -/

/-- One check over the descriptors in increasing index. -/
def eachDesc (c : Cand) (f : Nat → BitVec 1024 → Option Refuse) : Option Refuse := firstRefusal (c.descs.mapIdx f)

/-- Validation (R155): the first failing check. -/
def validate (s : State) (c : Cand) : Option Refuse :=
  let all := c.descs.map (feet s c)
  let foot := fun (i : Nat) => (all[i]?).getD []
  let rows := reachRows c
  firstRefusal
    [ check1 c.header
    , firstRefusal (c.views.mapIdx (check2 s c.owner))
    , firstRefusal (c.rest.mapIdx fun i v => refuseIf (v.toNat != 0) ⟨0x0001, noView, 0, c.views.length + i⟩)
    , eachDesc c (check3 s c)
    , eachDesc c (check4 s c)
    , eachDesc c (check5 s c)
    , eachDesc c fun i _ => check6 i (foot i)
    , refuseIf (!indexFits s c.alm (hCompletion c.header)) ⟨0x030C, noView, 0, 0⟩
    , eachDesc c fun i d => check7 s c i d (foot i)
    , checkCounts c
    , checkSeqs s c
    , check9 rows
    , check10 rows all
    , checkFit s c ]

end Sys2Proof.Machine
end

