-- ==== Sys2Proof/Machine/Commit.lean ====
section
/-!
DEFINITION. The end of a descriptor's attempt: failure, commit in the steps of R160, and twin comparison (R247 to R252).
-/
namespace Sys2Proof.Machine
open Sys2Proof

/-- A descriptor's attempt is under way. -/
def Run.going (r : Run) : Bool := r.phase == .running || r.phase == .computed

/-- A running descriptor's attempt ends with a failure; DESCRIPTOR_FAIL then completes it. The first failure stands. -/
def markFail (s : State) (d : DescRef) (code dh doff : Nat) : State :=
  modRun s d fun r => if r.going ∧ r.code = 0 then { r with code := code, detailHandle := dh, detailOffset := doff } else r

/-- Every running descriptor that `p` picks fails with a code. -/
def markFailAll (s : State) (code : Nat) (p : Nat → Nat → Nat → BitVec 1024 → Run → Bool) : State :=
  mapRuns (fun a pos i x r => if r.going ∧ r.code = 0 ∧ p a pos i x r then { r with code := code } else r) s

/-! The views as a run reads them. -/

/-- The handle that a view reads under a choice of swap members. -/
def memberOf (sw : List (Nat × Nat)) (h : Nat) : Nat := match sw.find? fun p => p.1 == h with
  | some p => p.2
  | none => h

/-- The submission with each input view of a LOOP descriptor that names a swap member showing the member chosen at the
start (R322). -/
def runViews (sb : Sub) (d : BitVec 1024) (r : Run) : Sub :=
  let ins := ((usesOf d r.counts).filter fun u => !u.role.isOut).map (·.view)
  { sb with views := sb.views.mapIdx fun i v =>
      if ins.contains i then BitVec.ofNat 256 (putFld v.toNat 31 0 (memberOf r.swaps (vHandle v))) else v }

/-! Twin mode. -/

/-- CMN_TWIN_STATUS.STATE: 0 off, 1 pairing, 2 running, 3 halted. -/
def twinState (s : State) : Nat := getf s Reg.twinStatus 31 30

/-- The almanac is twinned (R247). -/
def isTwinned (s : State) (a : Nat) : Bool :=
  getb s Reg.twinCtrl 31 && a != 0 && getb s (0x609010 + 4 * (a / 32)) (a % 32)

/-- POOL_ID of the partner. -/
def twinPartner (s : State) : Nat := getf s Reg.twinCtrl 21 16

/-- The twin halts (R250, R252): STATE and CODE, and the first divergence since ENABLE was set. -/
def twinHalt (s : State) (d : DescRef) (code part operand chunk : Nat) : State :=
  poolChange s fun s =>
    let first := twinState s != 3
    let s := setf (setf s Reg.twinStatus 31 30 3) Reg.twinStatus 15 0 code
    if first then
      set64 (set64 s Reg.twinDiverge (d.alm.toNat * 2 ^ 56 + d.idx.toNat * 2 ^ 40 + d.pos.toNat)) Reg.twinDivergeAt
        (part * 2 ^ 61 + operand % 256 * 2 ^ 48 + chunk % 2 ^ 40)
    else s

/-- The first index at which two lists differ. -/
def firstDiff {α : Type} [DecidableEq α] : List α → List α → Option Nat
  | [], [] => none
  | a :: s, b :: t => if a = b then (firstDiff s t).map (· + 1) else some 0
  | _, _ => some 0

/-- The operand and chunk where a role's operands first differ (R251): operand digests in role order, then leaves. -/
def roleDiff (a b : List (Nat × List (List Byte))) : Option (Nat × Nat) :=
  match firstDiff a b with
  | none => none
  | some i =>
    let l := fun (x : List (Nat × List (List Byte))) => ((x[i]?).map (·.2)).getD []
    some (i, (firstDiff (l a) (l b)).getD 0)

/-- Part, operand and chunk of a divergence (R251). -/
def findDiff (a b : TallyParts) : Nat × Nat × Nat :=
  if a.program ≠ b.program then (0, 0, 0)
  else match roleDiff a.weights b.weights with
    | some (i, c) => (1, i, c)
    | none => match roleDiff a.inputs b.inputs with
      | some (i, c) => (2, i, c)
      | none => match roleDiff a.outputs b.outputs with
        | some (i, c) => (3, i, c)
        | none => (4, 0, 0)

/-- The handles of a role's operands in the order of R244; 0 for an operand that no buffer holds. -/
def roleHandles (sb : Sub) (d : BitVec 1024) (part : Nat) : List Nat :=
  let h := fun (k : Nat) => vHandle (slotView sb d k)
  let comp := fun (k : Nat) => vComp (slotView sb d k)
  let w := dFw d 0
  let scale := fun (k : Nat) => if vScaled (slotView sb d k) then [comp k] else []
  let wr := (List.range 3).filter fun k => sView d k != noView && bitOf w (10 + k)
  let rd := (List.range 3).filter fun k => sView d k != noView && !bitOf w (10 + k)
  match dFamily d, part with
  | 1, 1 => [h 1] ++ scale 1 ++ (if bitOf w 9 then [vHandle (viewAt sb (sAux d 2))] else [])
  | 1, 2 => [h 0] ++ scale 0
  | 1, 3 => [h 2] ++ (if fld w 31 16 != noView && (isCmp (fld w 2 0) || bitOf w 11) then [vHandle (viewAt sb (fld w 31 16))]
      else []) ++ (if bitOf w 10 then [comp 2] else [])
  | 2, 2 => [0, h 0, h 1]
  | 2, 3 => [0, h 2]
  | 3, 2 => rd.map h
  | 3, 3 => wr.map h
  | 4, 2 => [h 0, h 1]
  | 4, 3 => [h 2]
  | 5, 2 => [h 0]
  | 5, 3 => [h 2]
  | 6, 2 => [h 0]
  | 10, 2 => [h 0]
  | 10, 3 => [h 2]
  | _, _ => []

/-- The two tallies of a key compared (R249 to R251): COMPARED counts a match and the commit may go on; a difference
fails the descriptor and halts the twin. -/
def twinCompare (s : State) (d : DescRef) (sb : Sub) (x : BitVec 1024) (own other : TallyParts) : State :=
  if own.tally = other.tally then
    modRun (set64 s Reg.twinCompared (get64 s Reg.twinCompared + 1)) d fun r => { r with twinOk := true }
  else
    let f := findDiff own other
    let h := ((roleHandles sb x f.1)[f.2.1]?).getD 0
    twinHalt (markFail s d 0x0601 h (65536 * f.2.2)) d 0x0601 f.1 f.2.1 f.2.2

/-! Commit (R160). -/

/-- The value that a COUNT writes at its commit (R154): an ADD reads its register here. -/
def countFinal (s : State) (d : DescRef) (x : BitVec 1024) (r : Run) : Nat :=
  match r.countValue with
  | some v => v
  | none => ((getReg s (almR d.alm.toNat (0x40 + 4 * fld (dFw x 0) 3 0))).toNat + dFw x 1) % 2 ^ 32

/-- Step 2: count registers, a pin that a MOVE TIER sets or removes (R194), the modules that a pool-scope FENCE has read
(R214), and sequence-context state (R145, R150, R205). -/
def commitState (s : State) (d : DescRef) (x : BitVec 1024) (r : Run) : State :=
  let a := d.alm.toNat
  let s := if dFamily x = 6 then
      let n := fld (dFw x 0) 3 0
      let s := setReg s (almR a (0x40 + 4 * n)) (BitVec.ofNat 32 (countFinal s d x r))
      let al := getAlm s a
      setAlm s a { al with countCommits := (n, s.cycle) :: al.countCommits.filter fun p => p.2 == s.cycle }
    else s
  let s := match r.pinNew with
    | some (id, p) => modHandle s id fun h => { h with pin := p }
    | none => s
  let s := match r.fenceIssued with
    | some n => { s with pool := { s.pool with written := s.pool.written.filter fun p => decide (n ≤ p.2) } }
    | none => s
  match r.seqNew with
  | some (c, some q) =>
    if s.seqs.any fun p => p.1 == c then { s with seqs := smInsert c q (smErase c s.seqs) }
    else let f := seqHome s; { f.2 with seqs := smInsert c { q with tile := f.1 } s.seqs }
  | some (c, none) => { s with seqs := smErase c s.seqs }
  | none => s

/-- Step 4: the signals (R141). -/
def commitSignals (s : State) (d : DescRef) (x : BitVec 1024) : State :=
  (List.range (min (dSignals x) 2)).foldl (fun s n => addFlag s (dSigFlag x n) (dSigAdd x n) (.descriptor d.alm d.idx)) s

/-- Steps 2 to 5, the outputs being visible, and what follows from the completion. -/
def commitNow (s : State) (d : DescRef) : State :=
  match findDesc s d with
  | some (_, x, r) =>
    let s := commitState s d x r
    let s := closeDesc s d 0 0 0
    let s := commitSignals s d x
    settleAlm (notifyDesc s d) d.alm.toNat
  | none => s

/-- The tally of a COUNT ADD, whose output is known only when its register is read. -/
def lateParts (s : State) (d : DescRef) (x : BitVec 1024) (r : Run) : Run :=
  if dFamily x = 6 then
    match r.parts with
    | some p =>
      let q := mkParts p.program p.weights p.inputs [operandOf 32 [countFinal s d x r]] r.summary
      { r with parts := some q, tally := q.tally }
    | none => r
  else r

/-- The partner's tally of a key used up. -/
def dropTally (s : State) (d : DescRef) : State :=
  { s with pool := { s.pool with tallies := s.pool.tallies.filter fun p => p.1 != d } }

/-- A computed descriptor goes to its commit: at once, or after the tallies of a twinned almanac have been exchanged
(R249). -/
def toCommit (s : State) (d : DescRef) : State :=
  match findDesc s d with
  | some (sb, x, r0) =>
    if r0.phase ≠ .computed ∨ r0.code ≠ 0 ∨ r0.preempted then s
    else
      let r := lateParts s d x r0
      let s := modRun s d fun _ => r
      if isTwinned s d.alm.toNat ∧ 2 ≤ twinState s ∧ !r.twinOk then
        match r.parts with
        | some own =>
          match r.twinSent with
          | some _ => s
          | none =>
            let s := emit s (.tally (twinPartner s) d.alm.toNat d.pos.toNat d.idx.toNat own.tally)
            let now := s.cycle
            let s := modRun s d fun r => { r with twinSent := some now }
            match s.pool.tallies.find? fun p => p.1 == d with
            | some (_, other) =>
              let s := twinCompare (dropTally s d) d sb x own other
              if own.tally = other.tally then commitNow s d else s
            | none => s
        | none => commitNow s d
      else commitNow s d
  | none => s

/-- The work of a descriptor without operands (R244): only its program digest stands. -/
def idleWork (s : State) (d : DescRef) : Work :=
  match findDesc s d with
  | some (sb, x, r) => { Work.nothing with program := programDigest sb x r.counts [] [] }
  | none => Work.nothing

/-- A body's result taken: its writes done, its summary and tally kept, the descriptor ready to commit; or its failure. -/
def finishBody (s : State) (d : DescRef) (x : BitVec 1024) (w : Work) (f : Run → Run) : State :=
  match accessFailure s w.touched with
  | some (c, h, o) => markFail s d c h o
  | none => match badAccess s w with
    | some (id, g) =>
      let s := match findHandle s id with
        | some h => uncorrectable s h (64 * g)
        | none => s
      markFail s d 0x0C03 id (64 * g)
    | none => match w.failure with
    | some (c, h, o) => markFail s d c h o
    | none =>
      let want := dTally x || isTwinned s d.alm.toNat
      let s := useFree (doWrites s w.writes) w.touched
      modRun s d fun r =>
        let r := { r with phase := .computed, summary := w.summary }
        f (if want then
            let p := mkParts w.program w.weights w.inputs w.outputs w.summary
            { r with parts := some p, tally := p.tally }
          else r)

end Sys2Proof.Machine
end

