-- ==== Sys2Proof/Machine/Hedgerow.lean ====
section
/-!
DEFINITION. The Hedgerow (R198 to R201, R463): flits, routes, input queues, links, regulators and the replays of seam links.
-/
namespace Sys2Proof.Machine
open Sys2Proof

/-! Directions and seams. -/

/-- The link leaves tile `t` across a die seam (R6: seams between columns 17 and 18 and rows 15 and 16). -/
def crossesSeam (t : Nat) : Dir → Bool
  | .north => t % 32 == 16
  | .east => t / 32 == 17
  | .south => t % 32 == 15
  | .west => t / 32 == 18

/-- Lowest bit of a direction's field of HDG_SEAM_REPLAY. -/
def dirShift : Dir → Nat
  | .north => 24
  | .east => 16
  | .south => 8
  | .west => 0

/-- The number of a direction in the DETAIL of LINK_FAULT, and of the port that looks that way. -/
def dirNumber : Dir → Nat
  | .north => 0
  | .east => 1
  | .south => 2
  | .west => 3

/-- The four directions. -/
def allDirs : List Dir := [.north, .east, .south, .west]

/-- The tile at the other end of a link. -/
def neighbour (t : Nat) : Dir → Nat
  | .north => t - 1
  | .east => t + 32
  | .south => t + 1
  | .west => t - 32

/-- The link that leaves a tile in a direction. -/
def linkOf (t : Nat) (dir : Dir) : Nat := 4 * t + dirNumber dir

/-- The input queue of a port and channel of a tile. -/
def queueOf (t port ch : Nat) : Nat := 4 * (5 * t + port) + ch

/-- The input queue at which a flit that leaves a tile in a direction arrives. -/
def arrivalQueue (t : Nat) (dir : Dir) (ch : Nat) : Nat := queueOf (neighbour t dir) ((dirNumber dir + 2) % 4) ch

/-! Routes (R199). -/

/-- The next link of a route, column first (XY) or row first (YX); none at the destination. -/
def nextDir (t dst : Nat) (rowFirst : Bool) : Option Dir :=
  let x := if t / 32 < dst / 32 then some Dir.east else if dst / 32 < t / 32 then some Dir.west else none
  let y := if t % 32 < dst % 32 then some Dir.south else if dst % 32 < t % 32 then some Dir.north else none
  if rowFirst then y.orElse fun _ => x else x.orElse fun _ => y

/-- The tiles of a route after its source, in at most `n` hops. -/
def routeTiles (dst : Nat) (rowFirst : Bool) : Nat → Nat → List Nat
  | 0, _ => []
  | n + 1, t => match nextDir t dst rowFirst with
    | some dir => neighbour t dir :: routeTiles dst rowFirst n (neighbour t dir)
    | none => []

/-- The unicast entry of a route (HDG_ROUTE_ENTRY). -/
def unicastEntry (dst : Nat) (rowFirst : Bool) : Nat :=
  (if rowFirst then 2 else 1) * 2 ^ 62 + dst / 32 * 2 ^ 55 + dst % 32 * 2 ^ 50

/-- A message is in flight on an entry of a tile's route table. -/
def onEntry (s : State) (t entry : Nat) : Bool :=
  s.hedge.queues.any fun q => q.2.any fun f => f.src == t && f.entry == entry

/-- The entry on which a unicast flit goes: the one that holds its route, else an unused one, else one on which nothing is in
flight; none while there is none. The choice among them is the placement engine's (DESIGN CHOICE, log entry 132). -/
def entryFor (s : State) (f : Flit) : Option Nat :=
  let e := fun (i : Nat) => smGet 0 i (getTile s f.src).routes
  let w := unicastEntry f.dst f.rowFirst
  (((List.range 64).find? fun i => e i == w).orElse fun _ => (List.range 64).find? fun i => e i == 0).orElse fun _ =>
    (List.range 64).find? fun i => fld (e i) 63 62 != 3 && !onEntry s f.src i

/-- A route-table entry written; reserved bits [49:32] read 0 (R206). It is rewritten only when no message is in flight on
it (R199). -/
def setRoute (s : State) (t entry route : Nat) : State :=
  let w := route / 2 ^ 50 * 2 ^ 50 + route % 2 ^ 32
  if smGet 0 entry (getTile s t).routes = w ∨ onEntry s t entry then s
  else modTile s t fun y => { y with routes := smSet 0 entry w y.routes }

/-! Flits. -/

/-- A flit handed to its tile's network interface. -/
def hedgeSend (s : State) (f : Flit) : State :=
  let k := 4 * f.src + f.ch
  { s with hedge := { s.hedge with waiting := smSet [] k (smGet [] k s.hedge.waiting ++ [f]) s.hedge.waiting } }

/-- Some flit that belongs to a transfer is still on its way. -/
def hedgeCarries (s : State) (p : Flit → Bool) : Bool :=
  (s.hedge.waiting.any fun q => q.2.any p) || s.hedge.queues.any fun q => q.2.any p

/-- A queue changed. -/
def setQueue (s : State) (k : Nat) (l : List Flit) : State :=
  { s with hedge := { s.hedge with queues := smSet [] k l s.hedge.queues } }

/-! Injection (R200). -/

/-- HDG_RATEn of a channel of a tile. -/
def rateR (t ch : Nat) : Nat := tileR t (0x810 + 4 * ch)

/-- BURST of a channel's regulator. -/
def burstOf (s : State) (k : Nat) : Nat := getf s (rateR (k / 4) (k % 4)) 31 24

/-- The placement engine sets the regulator of a tile that is no loop tile and whose route passes loop tiles; the values are
its own. -/
def regulate (s : State) (f : Flit) : State :=
  if tileState s f.src = 1 ∨ burstOf s (4 * f.src + f.ch) ≠ 0 ∨
      !(routeTiles f.dst f.rowFirst 68 f.src).any fun t => tileState s t == 1 then s
  else
    let r := Config.regulator f.src f.ch
    let s := setReg s (rateR f.src f.ch) (BitVec.ofNat 32 ((1 + r.1.toNat % 255) * 2 ^ 24 + (1 + r.2.toNat % 256)))
    { s with hedge := { s.hedge with tokens := smSet 0 (4 * f.src + f.ch) 1 s.hedge.tokens } }

/-- Tokens of a regulator, in 1/256 flit. -/
def tokensOf (s : State) (k : Nat) : Nat := smGet 0 k s.hedge.tokens - 1

/-- One cycle's tokens for every regulator (R200). -/
def accrue (s : State) : State :=
  { s with hedge := { s.hedge with tokens := s.hedge.tokens.map fun p =>
    (p.1, 1 + min (256 * burstOf s p.1) (tokensOf s p.1 + getf s (rateR (p.1 / 4) (p.1 % 4)) 8 0)) } }

/-- A flit enters its tile's own input queue: an entry for it, room there, and a token where a regulator is on. -/
def injectHead (s : State) (k : Nat) : State :=
  match smGet [] k s.hedge.waiting with
  | [] => s
  | f :: rest =>
    let s := regulate s f
    let q := queueOf f.src 4 f.ch
    let l := smGet [] q s.hedge.queues
    match if f.ch = 2 then some f.entry else entryFor s f with
    | none => s
    | some e =>
      if 16 ≤ l.length ∨ (burstOf s k ≠ 0 ∧ tokensOf s k < 256) then s
      else
        let s := if f.ch = 2 then s else setRoute s f.src e (unicastEntry f.dst f.rowFirst)
        let t := if burstOf s k = 0 then s.hedge.tokens else smSet 0 k (1 + tokensOf s k - 256) s.hedge.tokens
        let s := { s with hedge := { s.hedge with waiting := smSet [] k rest s.hedge.waiting, tokens := t } }
        setQueue s q (l ++ [{ f with entry := e, ready := s.cycle + 4 }])

/-! Links (R198, R201). -/

/-- A flit at the head of a queue may leave its tile in a direction, `some`, or has come to its destination, `none`. -/
def headGoes (s : State) (t : Nat) (dir : Option Dir) (q : Nat) : Bool :=
  match smGet [] q s.hedge.queues with
  | f :: _ => decide (f.ready ≤ s.cycle) && nextDir t f.dst f.rowFirst == dir
  | [] => false

/-- A port with a flit of a channel for a link whose queue at the far end has room: the credit flow control. -/
def linkPort (s : State) (t : Nat) (dir : Dir) (ch : Nat) : Option Nat :=
  if 16 ≤ (smGet [] (arrivalQueue t dir ch) s.hedge.queues).length then none
  else (List.range 5).find? fun p => headGoes s t (some dir) (queueOf t p ch)

/-- The channel that a link serves next: control first, the others in rotation (R198). -/
def linkChannel (s : State) (t : Nat) (dir : Dir) : Option Nat :=
  let ok := fun (ch : Nat) => (linkPort s t dir ch).isSome
  let last := smGet 0 (linkOf t dir) s.hedge.served
  if ok 3 then some 3 else ((List.range 3).map fun i => (last + i) % 3).find? ok

/-- One link's cycle. A hop takes 2 cycles, a die seam 2 more (R199); a link on one half takes 2 cycles a flit (R463). -/
def linkCycle (t : Nat) (s : State) (dir : Dir) : State :=
  let k := linkOf t dir
  if s.hedge.failed.contains k ∨ s.cycle < smGet 0 k s.hedge.busy then s
  else match linkChannel s t dir with
    | none => s
    | some ch => match linkPort s t dir ch with
      | none => s
      | some p => match smGet [] (queueOf t p ch) s.hedge.queues with
        | [] => s
        | f :: rest =>
          let u := neighbour t dir
          let f' := { f with ready := s.cycle + 2 + 2 * b2n (crossesSeam t dir), drops := f.drops.filter (· != u) }
          let s := setQueue s (queueOf t p ch) rest
          let s := setQueue s (arrivalQueue t dir ch) (smGet [] (arrivalQueue t dir ch) s.hedge.queues ++ [f'])
          let h := s.hedge
          { s with hedge := { h with
            served := if ch = 3 then h.served else smSet 0 k (ch + 1) h.served
            busy := smSet 0 k (if h.half.contains k then s.cycle + 2 else 0) h.busy
            replays := smSet 0 k 0 h.replays } }

/-- A flit that has come to its destination leaves the mesh; a request is answered by a response. -/
def ejectHead (s : State) (q : Nat) : State :=
  let t := q / 20
  if !headGoes s t none q then s
  else match smGet [] q s.hedge.queues with
    | f :: rest =>
      let s := setQueue s q rest
      if f.ch = 0 then hedgeSend s { f with ch := 1, src := f.dst, dst := f.src } else s
    | [] => s

/-- One core cycle of the Hedgerow: tokens, arrivals, links, injections. -/
def hedgeCycle (s : State) : State :=
  let s := accrue s
  let qs := s.hedge.queues.map (·.1)
  let s := qs.foldl ejectHead s
  let s := ((qs.map (· / 20)).eraseDups).foldl (fun s t => allDirs.foldl (linkCycle t) s) s
  (s.hedge.waiting.map (·.1)).foldl injectHead s

/-! Replays (R201, R463). -/

/-- SEAM_REPLAY: the sender counts the replay of a flit, which costs 8 cycles; after 16 in a row that failed the link waits
for its retraining. -/
def opSeamReplay (t : Nat) (dir : Dir) (s : State) : State :=
  let k := linkOf t dir
  if !crossesSeam t dir ∨ s.hedge.failed.contains k then s
  else
    let n := smGet 0 k s.hedge.replays
    if 16 ≤ n then { s with hedge := { s.hedge with failed := s.hedge.failed ++ [k] } }
    else
      let now := s.cycle
      let s := countUp s (tileR t 0x820) (dirShift dir + 7) (dirShift dir)
      { s with hedge := { s.hedge with
        replays := smSet 0 k (n + 1) s.hedge.replays, busy := smSet 0 k (now + 8) s.hedge.busy } }

/-- SEAM_REPLAY. -/
def execSeamReplay (t : TileIx) (dir : Dir) (s : State) : Host.Outcome State Fault Refusal := .next (opSeamReplay t.val dir s)

end Sys2Proof.Machine
end

