-- ==== Sys2Proof/Machine/Sequencer.lean ====
section
/-!
DEFINITION. The descriptor sequencer: the passes and units that it builds (R88, R89, R106, R187), the stream contexts that
fill their rings and areas (R107, R173, R174, R184), and the near-store cache that they read through (R167).
-/
namespace Sys2Proof.Machine
open Sys2Proof

/-! Passes (R88, R89, R99, R106). -/

/-- What a pass's cells do. -/
def passOp (p : PassFields) : CellOp where
  sem := p.semiring.toNat
  acc := p.accFmt.toNat
  strict := p.strict && p.aFmt != 9 && p.aFmt != 10
  inf := p.inf

/-- Indices per k-step of a pass (R88). -/
def passRate (p : PassFields) : Nat := rateP p.semiring.toNat p.aFmt.toNat p.bFmt.toNat (passOp p).strict

/-- Core cycles per k-step (R99). -/
def stepCycles (p : PassFields) : Nat := if p.aFmt = 0 then 4 else 1

/-- L of a pass (R87's table). -/
def passLatency (p : PassFields) : Nat :=
  if isCmp p.semiring.toNat ∨ p.accFmt = 9 ∨ p.accFmt = 10 then 2 else if p.accFmt = 0 then 4 else 3

/-- D of a pass (R99). -/
def drainCycles (p : PassFields) : Nat :=
  if p.mExt = 0 ∨ p.nExt = 0 then 0
  else
    6 + ceilDiv (p.mExt * (32 * fmtBits p.outFmt.toNat / 8)) 128 + (if isCmp p.semiring.toNat then p.mExt else 0) +
      (if p.flagPlane then ceilDiv p.mExt 8 else 0) + b2n p.panelMax

/-- Bytes of the value block, up to the next granule (R92). -/
def valueBlock (p : PassFields) : Nat := ceilDiv (p.mExt * 32 * fmtBits p.outFmt.toNat) 512 * 64

/-- Bytes of the index block, where there is one. -/
def indexBlock (p : PassFields) : Nat := if isCmp p.semiring.toNat then ceilDiv (p.mExt * 128) 64 * 64 else 0

/-- Bytes of the flag plane, where there is one. -/
def planeBlock (p : PassFields) : Nat := if p.flagPlane then ceilDiv (p.mExt * 16) 64 * 64 else 0

/-- The output area of a pass: its slot, base and granules; none where the pass writes nothing, or is not the root of its
outputs (R91, R92, R236). -/
def passOuts (p : PassFields) : List (Nat × Nat × Nat) :=
  if p.mExt = 0 ∨ p.nExt = 0 ∨ !p.root then []
  else [(0, p.outBase, (valueBlock p + indexBlock p + planeBlock p) / 64 + b2n p.panelMax)]

/-- TILE_PASS_LAST of a pass. -/
def passLast (p : PassFields) (bank : Nat) : Nat :=
  p.semiring.toNat * 2 ^ 61 + p.aFmt.toNat * 2 ^ 57 + p.bFmt.toNat * 2 ^ 53 + p.accFmt.toNat * 2 ^ 49 +
  p.outFmt.toNat * 2 ^ 45 + p.biasFmt.toNat * 2 ^ 41 + b2n p.strict * 2 ^ 40 + b2n p.inf * 2 ^ 39 + b2n p.bias * 2 ^ 38 +
  b2n p.aScaled * 2 ^ 37 + b2n p.bScaled * 2 ^ 36 + b2n p.flagPlane * 2 ^ 35 + b2n p.panelMax * 2 ^ 34 +
  p.mExt % 64 * 2 ^ 28 + p.nExt % 64 * 2 ^ 22 + bank * 2 ^ 21 + p.kSteps % 2 ^ 17 * 2 ^ 4

/-- Pass fields within R89's ranges: SEMIRING not the reserved value, the pair, ACC_FMT and scales as R51, R55, R56 and R97
take them, an output format other than F19, and extents within the array. -/
def passOk (p : PassFields) : Bool :=
  let sem := p.semiring.toNat
  let acc := p.accFmt.toNat
  sem != 7 && [0, 1, 9, 10].contains acc && p.outFmt != 2 && decide (p.outFmt.toNat ≤ 10) && decide (p.biasFmt.toNat ≤ 10) &&
    (!p.aScaled || scalable p.aFmt.toNat) && (!p.bScaled || scalable p.bFmt.toNat) &&
    (match pairClass p.aFmt.toNat p.bFmt.toNat with
      | some c => classAccepted sem c && accAccepted sem c (p.aScaled || p.bScaled) acc
      | none => false) &&
    decide (p.kSteps ≤ 65536) && decide (p.mExt ≤ 32) && decide (p.nExt ≤ 32)

/-- The groups of one scale byte: the number of the group that holds k index `k` of a panel (R52, R136). -/
def scaleGroup (g : Nat × Nat) (k : Nat) : Nat :=
  let at_ := fun (q : Nat) => q / g.1 * ceilDiv g.1 32 + q % g.1 / 32
  at_ (g.2 + k) - at_ g.2

/-! The programs of the contexts (R173). -/

/-- The place of a panel's element (R106): row or column `i`, k index `k`. -/
def panelPlace (chunk f p : Nat) (i k : Nat) (x : Elem) : Place :=
  ⟨if chunk = 0 then 0 else k / chunk, x.handle, x.bits, x.index,
    (if f = 2 then 16 else fmtBits f) * (p * (32 * (k / p) + i) + k % p), k / p, k / p⟩

/-- A panel's elements. -/
def panelPlaces (chunk f p ext kLen : Nat) (at_ : Nat → Nat → Elem) : List Place :=
  (List.range kLen).flatMap fun k => (List.range ext).map fun i => panelPlace chunk f p i k (at_ i k)

/-- A panel's scale bytes: one a row for each group (R52, R107). -/
def scalePlaces (chunk p ext kLen : Nat) (g : Nat × Nat) (at_ : Nat → Nat → Elem) : List Place :=
  ((List.range kLen).filter fun k => k == 0 || scaleGroup g k != scaleGroup g (k - 1)).flatMap fun k =>
    let last := ((List.range kLen).filter fun q => scaleGroup g q == scaleGroup g k).getLastD k
    (List.range ext).map fun i =>
      let x := at_ i k
      ⟨if chunk = 0 then 0 else k / chunk, x.handle, x.bits, x.index, 8 * (32 * scaleGroup g k + i), k / p, last / p⟩

/-- Elements one after the other in an area, needed at once. -/
def flatPlaces (w : Nat) (l : List Elem) : List Place := l.mapIdx fun i x => ⟨0, x.handle, x.bits, x.index, w * i, 0, 0⟩

/-- A context that has issued nothing. -/
def newFill (slot : Nat) (ring side : Ring) (split : Bool) (places : List Place) : Fill :=
  ⟨slot, ring, side, split, places, 0, [], none⟩

/-- A context that fills a flat area. -/
def flatFill (slot : Nat) (area : Ring) (w : Nat) (l : List Elem) : Fill :=
  newFill slot ⟨area.base, 0⟩ ⟨0, 0⟩ false (flatPlaces w l)

/-- A view reads a window handle: its granules are read in increasing address order, in one arming (R168). -/
def viewsWindow (s : State) (v : BitVec 256) : Bool := ((findHandle s (vHandle v)).map isWindow).getD false

/-! Units (R187). -/

/-- The pass of an MMA unit and its contexts: iteration, output block and k-block (R146, R147, R187). -/
def buildMma (s : State) (sb : Sub) (d : DescRef) (x : BitVec 1024) (counts : List Nat) (unit no : Nat) (r : Areas) :
    Pass × List Fill :=
  let u := fun (_ : Nat) => 32
  let a := slotView sb x 0
  let b := slotView sb x 1
  let c := slotView sb x 2
  let biasV := viewAt sb (sAux x 2)
  let w := dFw x 0
  let kb := dFw x 4
  let nk := max 1 (ceilDiv (dFw x 3) kb)
  let nb := ceilDiv (dFw x 2) 32
  let j := unit % nk
  let n0 := unit / nk % nb * 32
  let m0 := unit / nk / nb % ceilDiv (dFw x 1) 32 * 32
  let t := unit / nk / nb / ceilDiv (dFw x 1) 32
  let k0 := j * kb
  let kLen := min (dFw x 3) (k0 + kb) - k0
  let oA := offsetAt x 0 counts t
  let oB := offsetAt x 1 counts t
  let oC := offsetAt x 2 counts t
  let op := cellOf x (vFmt a) 0
  let p := rateP op.sem (vFmt a) (vFmt b) op.strict
  let f : PassFields :=
    { semiring := BitVec.ofNat 3 (fld w 2 0), aFmt := BitVec.ofNat 4 (vFmt a), bFmt := BitVec.ofNat 4 (vFmt b)
      accFmt := BitVec.ofNat 4 (fld w 6 3), outFmt := BitVec.ofNat 4 (vFmt c)
      biasFmt := if bitOf w 9 then BitVec.ofNat 4 (vFmt biasV) else 0, strict := bitOf w 7, inf := bitOf w 8
      bias := bitOf w 9 && j == 0, aScaled := vScaled a, bScaled := vScaled b, flagPlane := bitOf w 10
      panelMax := bitOf w 11, kSteps := ceilDiv kLen p, kOrigin := BitVec.ofNat 32 k0, mExt := min 32 (dFw x 1 - m0)
      nExt := min 32 (dFw x 2 - n0), aRing := r.a, bRing := r.b, aSide := r.aSide, bSide := r.bSide, biasBase := r.bias
      outBase := r.out, root := nk == 1 }
  let aG := (vPitch a, (elemIndex a oA m0 k0).toNat % vPitch a)
  let bG := (0, (elemIndex b oB k0 n0).toNat / vPitch b % 32)
  let ca := if viewsWindow s a then 0 else r.aChunk
  let cb := if viewsWindow s b then 0 else r.bChunk
  let panel := fun (slot : Nat) (v : BitVec 256) (ring side : Ring) (chunk ext : Nat) (at_ : Nat → Nat → Elem) =>
    newFill slot ring side (vFmt v == 2) (panelPlaces chunk (vFmt v) p ext kLen at_)
  (⟨d, no, f, kLen, aG, bG, 0, none, 0, none, 0, none, 0, Summary.zero, []⟩,
    [panel 0 a r.a r.aSide ca f.mExt fun i k => viewElem u a oA (m0 + i) (k0 + k),
     panel 1 b r.b r.bSide cb f.nExt fun i k => viewElem u b oB (k0 + k) (n0 + i)] ++
    (if f.bias then [newFill 2 ⟨r.bias, 0⟩ ⟨0, 0⟩ false
      ((List.range f.mExt).flatMap fun m => (List.range f.nExt).map fun n =>
        let e := viewElem u biasV oC (m0 + m) (n0 + n)
        ⟨0, e.handle, e.bits, e.index, fmtBits (vFmt biasV) * (32 * m + n), 0, 0⟩)] else []) ++
    (if vScaled a then [newFill 3 r.aSide ⟨0, 0⟩ false
      (scalePlaces ca p f.mExt kLen aG fun i k => scaleElem a oA (m0 + i) (k0 + k))] else []) ++
    (if vScaled b then [newFill 4 r.bSide ⟨0, 0⟩ false
      (scalePlaces cb p f.nExt kLen bG fun i k => scaleElem b oB (k0 + k) (n0 + i))] else []))

/-- The contexts of a FOLD unit: one block of positions for up to 64 rows (R187, R205). -/
def foldFills (sb : Sub) (x : BitVec 1024) (counts : List Nat) (unit : Nat) (r : Areas) : List Fill :=
  let u := fun (_ : Nat) => 32
  let nb := ceilDiv (dFw x 3) (dFw x 4)
  let p0 := unit % nb * dFw x 4
  let r0 := unit / nb % ceilDiv (dFw x 1) 64 * 64
  let t := unit / nb / ceilDiv (dFw x 1) 64
  let ps := min (dFw x 4) (dFw x 3 - p0)
  let sv := slotView sb x 0
  let vv := slotView sb x 1
  [flatFill 0 r.a (viewBits u sv) ((List.range (min 64 (dFw x 1 - r0))).flatMap fun i => (List.range ps).map fun q =>
      viewElem u sv (offsetAt x 0 counts t) (r0 + i) (p0 + q)),
   flatFill 1 r.b (viewBits u vv) ((List.range ps).flatMap fun q => (List.range (dFw x 2)).map fun i =>
      viewElem u vv (offsetAt x 1 counts t) (p0 + q) i)]

/-- The contexts of a VEC unit: the granules of each operand for one iteration (R109). -/
def vecFills (sb : Sub) (x : BitVec 1024) (counts : List Nat) (unit : Nat) (r : Areas) : List Fill :=
  ((List.range 3).filter fun k => sView x k != noView).map fun k =>
    flatFill k (if k = 0 then r.a else if k = 1 then r.b else ⟨r.out, 0⟩) 512 ((List.range (vecExtent x k)).map fun g =>
      vecGranule (fun _ => 32) (slotView sb x k) (offsetAt x k counts unit) g)

/-- The contexts of a MOVE unit, up to 64 rows, and its output area (R187). -/
def moveUnit (s : State) (sb : Sub) (x : BitVec 1024) (counts : List Nat) (unit : Nat) (r : Areas) :
    List Fill × List (Nat × Nat × Nat) :=
  let u := fun (_ : Nat) => 32
  let rows := dFw x 1
  let ng := ceilDiv rows 64
  let at_ := unit / ng * rows + unit % ng * 64
  let n := min 64 (rows - unit % ng * 64)
  let m := moveRows s sb x counts
  let sv := slotView sb x 0
  let src := ((m.1.drop at_).take n).flatMap fun y => (List.range (dFw x 2)).map fun c =>
    viewElem u sv (offsetAt x 0 counts y.1) y.2.1 c
  let w := viewBits u sv
  (flatFill 0 r.a w src :: (if dVariant x = 0 then [] else [flatFill 1 r.b 32 ((m.2.1.drop at_).take n)]),
    [(2, r.a.base, ceilDiv (src.length * w) 512)])

/-- The contexts of a unit of another family: a leaf of REDUCE, a chunk of TALLY, the element of a COUNT LOAD. -/
def otherFills (sb : Sub) (x : BitVec 1024) (counts : List Nat) (unit : Nat) (r : Areas) : List Fill :=
  let u := fun (_ : Nat) => 32
  let v := slotView sb x 0
  let w := viewBits u v
  if dFamily x = 5 then
    let nl := ceilDiv (dFw x 1) (dFw x 4)
    let p0 := unit % nl * dFw x 4
    [flatFill 0 r.a w ((List.range (min (dFw x 4) (dFw x 1 - p0))).flatMap fun p => (List.range (dFw x 2)).map fun i =>
      viewElem u v (offsetAt x 0 counts (unit / nl)) (p0 + p) i)]
  else if dFamily x = 10 then
    let l := gridElems u v (slotOffsets x 0 counts) (dFw x 1) (dFw x 2)
    [flatFill 0 r.a w (((l.mapIdx fun i e => (i, e)).filter fun q => q.1 * w / 8 / 65536 == unit).map (·.2))]
  else if dFamily x = 6 then [flatFill 0 r.a 32 [viewElem u v 0 0 0]]
  else []

/-- A unit as the sequencer builds it for a tile; `sb` shows the views as the run reads them. A MOVE TIER's pages go by
copies of their own (R196). -/
def buildUnit (s : State) (sb : Sub) (d : DescRef) (x : BitVec 1024) (counts : List Nat) (unit no : Nat) (r : Areas) : BuiltUnit :=
  match dFamily x with
  | 1 => let m := buildMma s sb d x counts unit no r; ⟨d, unit, no, .pass m.1, m.2, passOuts m.1.fields, false⟩
  | 2 => ⟨d, unit, no, .other, foldFills sb x counts unit r, [], false⟩
  | 3 =>
    let fs := vecFills sb x counts unit r
    ⟨d, unit, no, .invocation, fs,
      (fs.filter fun f => bitOf (dFw x 0) (10 + f.slot)).map fun f => (f.slot, f.ring.base, vecExtent x f.slot), false⟩
  | 4 =>
    if dVariant x = 3 then ⟨d, unit, no, .other, [], [], false⟩
    else let m := moveUnit s sb x counts unit r; ⟨d, unit, no, .other, m.1, m.2, false⟩
  | _ => ⟨d, unit, no, .other, otherFills sb x counts unit r, [], false⟩

/-- The pass of a unit. -/
def BuiltUnit.pass (u : BuiltUnit) : Option Pass := match u.work with
  | .pass p => some p
  | _ => none

/-! Areas of tile store. -/

/-- Two granule ranges (base, length) meet. -/
def rangesMeet (a b : Nat × Nat) : Bool := decide (a.1 < b.1 + b.2) && decide (b.1 < a.1 + a.2)

/-- The granules of a ring that a context's data takes up: the ring's length, or all of it where the ring is flat. -/
def ringSpan (r : Ring) (bits : Nat) : Nat × Nat := (r.base, if r.len = 0 then ceilDiv bits 512 else min r.len (ceilDiv bits 512))

/-- Bits of the main area of a context's data. -/
def Fill.mainBits (f : Fill) : Nat := f.places.foldl (fun n p => max n (p.pos + if f.split then 16 else p.bits)) 0

/-- The granule ranges that a context fills. -/
def Fill.spans (f : Fill) : List (Nat × Nat) :=
  ringSpan f.ring f.mainBits :: (if f.split then [ringSpan f.side (f.mainBits / 16 * 3)] else [])

/-- No two members of a list of ranges meet. -/
def apart : List (Nat × Nat) → Bool
  | [] => true
  | a :: t => (t.all fun b => !rangesMeet a b) && apart t

/-- A unit's rings and areas lie in the tile store's 32,768 granules, within the working reserve's size (R166), and apart
from each other; an operand that the engine writes in place is both. -/
def areasFit (s : State) (u : BuiltUnit) : Bool :=
  let l := u.fills.flatMap Fill.spans ++ (if u.pass.isSome then u.outs.map (·.2) else [])
  apart l && (l.all fun a => decide (a.1 + a.2 ≤ 32768)) &&
    decide (l.foldl (fun n a => n + a.2) 0 ≤ 16 * getf s Reg.placeReserve 11 0)

/-! Transfers (R173, R174). -/

/-- A number put into a rising list, once. -/
def insertOnce (n : Nat) : List Nat → List Nat
  | [] => [n]
  | m :: t => if n < m then n :: m :: t else if n = m then m :: t else m :: insertOnce n t

/-- An element of a place. -/
def Place.elem (p : Place) : Elem := ⟨p.handle, p.bits, p.index⟩

/-- The source granules of a place. -/
def Place.granules (p : Place) : List Nat :=
  (List.range (p.elem.hi / 64 + 1 - p.elem.lo / 64)).map fun i => p.elem.lo / 64 + i

/-- The transfers of a context, in the order in which it issues them: arming by arming, each in increasing order of source
byte; an arming and a source granule each. -/
def transfersOf (l : List Place) : List (Nat × Nat) :=
  (l.foldl (fun (as : List Nat) p => insertOnce p.arming as) []).flatMap fun a =>
    ((l.filter fun p => p.arming == a).foldl (fun gs p => p.granules.foldl (fun gs g => insertOnce g gs) gs) []).map
      fun g => (a, g)

/-- The places that a transfer brings, or brings a part of. -/
def broughtBy (l : List Place) (x : Nat × Nat) : List Place := l.filter fun p => p.arming == x.1 && p.granules.contains x.2

/-- Transfer `n` of a context has arrived. -/
def Fill.landed (f : Fill) (n : Nat) : Bool := decide (n < f.issued) && !f.outstanding.contains n

/-- Every transfer of a context has arrived. -/
def Fill.full (f : Fill) : Bool := f.outstanding.isEmpty && decide ((transfersOf f.places).length ≤ f.issued)

/-- The bytes of k-steps up to `j` are present (R174). -/
def Fill.present (f : Fill) (j : Nat) : Bool :=
  ((transfersOf f.places).mapIdx fun n x => (n, x)).all fun q =>
    f.landed q.1 || (broughtBy f.places q.2).all fun p => decide (j < p.first)

/-- Where a run of bits stands in an area of tile store, in bits: one range, or two where it goes round the ring. -/
def ringRanges (r : Ring) (pos w : Nat) : List (Nat × Nat) :=
  let b := 512 * r.base
  let l := 512 * r.len
  let q := pos % l
  if l = 0 then [(b + pos, w)] else if q + w ≤ l then [(b + q, w)] else [(b + q, l - q), (b, q + w - l)]

/-- The bits of tile store that a place of a context takes. -/
def Fill.bitsAt (f : Fill) (p : Place) : List (Nat × Nat) :=
  if f.split then ringRanges f.ring p.pos 16 ++ ringRanges f.side (p.pos / 16 * 3) 3 else ringRanges f.ring p.pos p.bits

/-- The k-steps of a unit that have entered the array; a unit goes with its last. -/
def entered (y : Tile) (u : BuiltUnit) : Nat := ((y.passes.find? fun q => q.no == u.no).map (·.entered)).getD 0

/-- Output areas that are not free (R174): of drained passes and ended invocations until they have been read, and of passes
in the array. -/
def heldAreas (y : Tile) : List (Nat × Nat) :=
  ((y.outputs.filter fun o => decide (o.issued < o.count)).map fun o => (o.base, o.count)) ++
    y.passes.flatMap fun q => (passOuts q.fields).map (·.2)

/-- A context's next transfer may write its bits: the k-steps that last held them have entered the array, or their unit has
ended, and no output area that is still to be read lies there (R174). -/
def mayFill (y : Tile) (u : BuiltUnit) (f : Fill) : Bool :=
  match (transfersOf f.places)[f.issued]? with
  | none => false
  | some x =>
    !((broughtBy f.places x).any fun q =>
      let mine := f.bitsAt q
      let meets := fun (a : Nat × Nat) => mine.any (rangesMeet a)
      (y.units.any fun v => decide (v.no ≤ u.no) && v.fills.any fun g => g.places.any fun p =>
        (decide (v.no < u.no) || (g.slot == f.slot && decide (p.pos < q.pos))) && decide (entered y v ≤ p.last) &&
          (g.bitsAt p).any meets) ||
      (heldAreas y).any fun r => meets (512 * r.1, 512 * r.2))

/-- A place's bits in an area. -/
def putPlace (s : State) (f : Fill) (m : List Host.Cell) (p : Place) : List Host.Cell :=
  let v := readElem s p.elem
  let put := fun (m : List Host.Cell) (r : Ring) (pos w v : Nat) =>
    (List.range w).foldl (fun m i =>
      let a := 64 * r.base + (if r.len = 0 then (pos + i) / 8 else (pos + i) / 8 % (64 * r.len))
      wrByte m a (BitVec.ofNat 8 (putFld (rdByte m a).toNat ((pos + i) % 8) ((pos + i) % 8) (v / 2 ^ i % 2)))) m
  if f.split then put (put m f.ring p.pos 16 (v / 2 ^ 16)) f.side (p.pos / 16 * 3) 3 (v / 2 ^ 13)
  else put m f.ring p.pos p.bits v

/-! What a granule read touches. -/

/-- An access by a tile to a page counted for the epoch (R195). -/
def countAccess (s : State) (id page t : Nat) : State :=
  let k := pageKey id page
  let up := fun (i : Nat) (l : List (Nat × List (Nat × Nat))) => smSet [] k (smSet 0 i (smGet 0 i (smGet [] k l) + 1) (smGet [] k l)) l
  { s with engine := { s.engine with byTile := up t s.engine.byTile, byModule := up (ownId s) s.engine.byModule } }

/-- A submission that has not finished seals a handle (R137, R167). -/
def sealedNow (s : State) (id : Nat) : Bool :=
  s.alms.any fun p => p.2.subs.any fun sb => !sb.finished && sb.views.any fun v => vSealed v && vHandle v == id

/-- Lines of 4 KiB that the near store of a tile has room for beside its pages (R167). -/
def lineRoom (s : State) (t : Nat) : Nat := 16 * (tilePages s 1 - usedPages s t 1 0)

/-- A line of a sealed handle's page in LPDDR6 or in another module kept in the reading tile's near store; the oldest line
gives way where there is no room (DESIGN CHOICE, log entry 131). -/
def cacheLine (s : State) (h : Handle) (off t : Nat) : State :=
  let p := placeOf s h (off / pageBytes)
  let line := (h.id, off / 4096, t)
  let mine := s.engine.cache.filter fun c => c.2.2 == t
  if isWindow h ∨ !sealedNow s h.id ∨ (p.module = ownId s ∧ p.tier ≤ 1) ∨ s.engine.cache.contains line ∨ lineRoom s t = 0 then s
  else
    let old := if mine.length < lineRoom s t then [] else mine.take 1
    { s with engine := { s.engine with cache := (s.engine.cache.filter fun c => !old.contains c) ++ [line] } }

/-- One cycle's care of the cache: lines of handles that no running submission seals any longer are dropped, and lines for
which a tile's pages leave no room (R167). -/
def tidyCache (s : State) : State :=
  let keep := s.engine.cache.filter fun c => sealedNow s c.1
  let cut := keep.filter fun c =>
    decide (((keep.dropWhile (· != c)).filter fun e => e.2.2 == c.2.2).length ≤ lineRoom s c.2.2)
  if s.engine.cache = cut then s else { s with engine := { s.engine with cache := cut } }

/-- The other tile whose store holds a byte of a buffer, where one does: the read goes over the Hedgerow. -/
def otherHome (s : State) (h : Handle) (off t : Nat) : Option Nat :=
  let p := placeOf s h (off / pageBytes)
  if h.kind = 0 ∧ p.module = ownId s ∧ p.tier ≤ 1 ∧ p.tile ≠ t then some p.tile else none

/-- A request for a granule sent to the tile that holds it. -/
def requestGranule (s : State) (id off t : Nat) (tag : Nat × Nat × Nat) : State :=
  match findHandle s id with
  | some h => match otherHome s h off t with
    | some u => hedgeSend s ⟨0, t, u, false, 0, [], tag, s.cycle⟩
    | none => s
  | none => s

end Sys2Proof.Machine
end

