-- ==== Sys2Proof/Machine/Almanac.lean ====
section
/-!
DEFINITION. Almanac registers and the taking of submissions (R123 to R132, R158), the start, placement, commit, failure
and restart of descriptors (R140 to R145, R160, R161, R185, R187, R320, R321).
-/
namespace Sys2Proof.Machine
open Sys2Proof

/-- Function `fn` may use almanac `a`'s window (R128). -/
def almMay (s : State) (fn a : Nat) : Bool := fn == 0 || fn == almOwner s a

/-- ALM_CFG.ENABLE. -/
def almOn (s : State) (a : Nat) : Bool := getb s (almR a 0x10) 31

/-- Slots of the ring, as SIZE_LOG2 gives. -/
def almSlots (s : State) (a : Nat) : Nat := 2 ^ getf s (almR a 0x10) 20 16

/-- ALM_STATUS.LAST_CODE set. -/
def setLastCode (s : State) (a code : Nat) : State := setf s (almR a 0x1C) 15 0 code

/-- A doorbell that is ignored with a report (R124, R132). -/
def doorbellInvalid (s : State) (a : Nat) : State := almEvent (setLastCode s a 0x0325) a 3

/-- ALM_DOORBELL (R124, R132). -/
def opAlmDoorbell (fn a : Nat) (tail : Word) (s : State) : State :=
  if !almMay s fn a then s
  else if !almOn s a then doorbellInvalid s a
  else
    let old := getReg s (almR a 0x0C)
    let room := almSlots s a - (old - getReg s (almR a 0x08)).toNat
    if tail = old then s
    else if (tail - old).toNat ≤ room then setReg s (almR a 0x0C) tail
    else doorbellInvalid s a

/-- The ring buffer suits the almanac (R131). -/
def ringFits (s : State) (a : Nat) : Bool :=
  match openHandle s (almOwner s a) (getReg s (almR a 0x14)).toNat with
  | some h => decide (128 * almSlots s a ≤ h.size)
  | none => false

/-- ALM_ENABLE: a write of ALM_CFG (R128, R129, R131). A write takes its own SIZE_LOG2 and OWNER before the check of
ENABLE; an OWNER above 16 names no function and is ignored. -/
def opAlmEnable (fn a : Nat) (cfg : Word) (s : State) : State :=
  if !almMay s fn a then s
  else
    let r := almR a 0x10
    let v := cfg.toNat
    let on := almOn s a
    let s := setf s r 30 30 (fld v 30 30)
    let e := fld v 25 21
    let s := setf s r 25 21 (if 27 ≤ e ∧ e ≤ 30 then 26 else e)
    let size := fld v 20 16
    let s := if !on ∧ 4 ≤ size ∧ size ≤ 16 then setf s r 20 16 size else s
    let o := fld v 12 8
    let s := if !on ∧ fn = 0 ∧ a ≠ 0 ∧ o ≤ 16 then setf s r 12 8 o else s
    if !bitOf v 31 then
      let s := setb s r 31 false
      setAlm s a { getAlm s a with tookLoop := false }
    else if on then s
    else if ringFits s a then setb s r 31 true
    else setLastCode s a 0x0303

/-- ALM_RESET: ALM_CTRL.RESET (R125, R130). Submissions not finished are discarded with it (DESIGN CHOICE). -/
def opAlmReset (fn a : Nat) (s : State) : State :=
  let busy := (getAlm s a).subs.any fun sb => sb.runs.any Run.going
  if !almMay s fn a ∨ almOn s a ∨ busy then s
  else
    let s := setReg (setReg s (almR a 0x08) 0) (almR a 0x0C) 0
    let s := (List.range 16).foldl (fun s n => setReg s (almR a (0x40 + 4 * n)) 0) s
    setAlm s a { getAlm s a with next := 0, subs := [], halted := s.seamFailed, countCommits := [] }

/-- ALM_ABORT: ALM_CTRL.ABORT (R229): every descriptor that has not started completes with CANCELLED. -/
def opAlmAbort (fn a : Nat) (s : State) : State :=
  if !almMay s fn a then s
  else
    let waiting := (getAlm s a).subs.flatMap fun sb =>
      ((sb.runs.mapIdx fun i r => (i, r)).filter fun p => p.2.phase == .waiting).map fun p => refOf a sb.pos p.1
    settleAlm (waiting.foldl (fun s d => notifyDesc (closeDesc s d 0x0324 0 0) d) s) a

/-- ALM_COUNT_WRITE (R145): the value of a COUNT that committed in this cycle stays. -/
def opAlmCountWrite (fn a n : Nat) (val : Word) (s : State) : State :=
  if !almMay s fn a ∨ (getAlm s a).countCommits.contains (n, s.cycle) then s else setReg s (almR a (0x40 + 4 * n)) val

/-! Taking a submission. -/

/-- Slot `c` of a ring (R123, R124). -/
def ringSlot (s : State) (a c : Nat) : BitVec 1024 :=
  BitVec.ofNat 1024 (handleNat s (getReg s (almR a 0x14)).toNat (128 * (c % almSlots s a)) 128)

/-- Slots of views. -/
def viewSlots (h : BitVec 1024) : Nat := ceilDiv (hViews h) 4

/-- The ring count of descriptor `i`'s slot. -/
def descSlot (sb : Sub) (i : Nat) : Nat := sb.pos + 1 + viewSlots sb.header + i

/-- The submission whose header stands at ring count `pos`, as validation sees it. -/
def readCand (s : State) (a pos : Nat) : Cand :=
  let h := ringSlot s a pos
  let vs := (List.range (viewSlots h)).flatMap fun k =>
    let w := (ringSlot s a (pos + 1 + k)).toNat
    (List.range 4).map fun j => BitVec.ofNat 256 (fld w (256 * j + 255) (256 * j))
  { alm := a, owner := almOwner s a, header := h, views := vs.take (hViews h), rest := vs.drop (hViews h),
    descs := (List.range (hDescs h)).map fun i => ringSlot s a (pos + 1 + viewSlots h + i) }

/-- A refused submission (R158): its record, ALM_REFUSAL, LAST_CODE and REFUSED; it has finished. -/
def refuseSub (s : State) (a pos : Nat) (r : Refuse) : State :=
  let s := finishSub s a pos r.code r.idx r.handle r.off
  let s := setReg s (almR a 0x24) (BitVec.ofNat 32 (r.idx % 2 ^ 16 * 2 ^ 16 + r.code))
  passHead (getAlm s a).subs.length (almEvent (setLastCode s a r.code) a 1) a

/-- Pages of a buffer that lie in this module's LPDDR6 sent to near store; the tile is the placement engine's choice among
those in service with room. -/
def holdNear (s : State) (id : Nat) : State :=
  match findHandle s id with
  | some h => if isWindow h then s else (livePages h).foldl (fun s j =>
      let p := placeOf s h j
      let r := pickOne (roomyTiles s (allTiles.filter (inService s)) 1 0) s
      match r.1 with
      | some t => if p.module = ownId s ∧ p.tier = 2 then startCopy r.2 none id j ⟨ownId s, 1, t⟩ else s
      | none => s) s
  | none => s

/-- An almanac that takes a LOOP descriptor holds its ring and completion buffers in near store (R191). -/
def tookLoopDesc (s : State) (a : Nat) : State :=
  if (getAlm s a).tookLoop then s
  else
    let s := setAlm s a { getAlm s a with tookLoop := true }
    holdNear (holdNear s (getReg s (almR a 0x14)).toNat) (getReg s (almR a 0x18)).toNat

/-- SUBMISSION_READ (R125, R126, R133, R155, R158, R191). -/
def opSubmissionRead (a : Nat) (s : State) : State :=
  let al := getAlm s a
  let avail := ((getReg s (almR a 0x0C)).toNat + 2 ^ 32 - al.next) % 2 ^ 32
  let gone := getf s Reg.poolStatus 63 61 == 3 || getf s Reg.poolStatus 63 61 == 4
  if !almOn s a ∨ al.halted ∨ avail = 0 ∨ gone then s
  else
    let h := ringSlot s a al.next
    let n := 1 + viewSlots h + hDescs h
    if almSlots s a < n then
      almEvent (setLastCode (setAlm s a { al with halted := true }) a 0x0311) a 2
    else if avail < n then s
    else
      let c := readCand s a al.next
      let pos := al.next
      let take := fun (sb : Sub) (s : State) =>
        setAlm s a { getAlm s a with next := (pos + n) % 2 ^ 32, subs := (getAlm s a).subs ++ [sb] }
      match validate s c with
      | some r => refuseSub (take { c.sub pos n with descs := [], runs := [] } s) a pos r
      | none =>
        let s := take (c.sub pos n) s
        settleAlm (if c.descs.any dLoop then tookLoopDesc s a else s) a

/-! Starting. -/

/-- A point (cycle, phase) of the meridian as one number. -/
def mtrPoint (c ph : Nat) : Nat := c * 2 ^ 24 + ph

/-- The present point of the meridian. -/
def mtrNow (s : State) : Nat := mtrPoint s.meridian.cycleNo (mtrPhase s)

/-- The cycle that a transit condition refers to (R142). -/
def transitCycle (x : BitVec 1024) (r : Run) : Nat := (r.readyCycle.getD 0) + dDelta x

/-- NOT_BEFORE is given. -/
def hasNotBefore (x : BitVec 1024) : Bool := bitOf (dTransit x) 0
/-- DEADLINE is given. -/
def hasDeadline (x : BitVec 1024) : Bool := bitOf (dTransit x) 1

/-- The deadline point (R142). -/
def deadlinePoint (x : BitVec 1024) (r : Run) : Nat :=
  mtrPoint (transitCycle x r + b2n (hasNotBefore x && decide (dDeadline x ≤ dNotBefore x))) (dDeadline x)

/-- The count has reached the deadline of a descriptor that is ready (R321). -/
def pastDeadline (s : State) (x : BitVec 1024) (r : Run) : Bool :=
  hasDeadline x && r.readyCycle.isSome && decide (deadlinePoint x r ≤ mtrNow s)

/-- The transit condition lets a ready descriptor start (R320, R321). -/
def transitMet (s : State) (x : BitVec 1024) (r : Run) : Bool :=
  dTransit x == 0 || (mtrState s == 2 && r.readyCycle.isSome &&
    (!hasNotBefore x || decide (mtrPoint (transitCycle x r) (dNotBefore x) ≤ mtrNow s)) && !pastDeadline s x r)

/-- Twin mode holds the descriptor back (R248, R250). -/
def twinHolds (s : State) (a : Nat) : Bool := isTwinned s a && (twinState s == 1 || twinState s == 3)

/-- Predecessors, waits, transit condition and twin mode let a descriptor start. -/
def startable (s : State) (d : DescRef) (x : BitVec 1024) (r : Run) : Bool :=
  r.phase == .waiting && r.ready.isSome && ((List.range (dWaits x)).all fun n => r.woke.contains n) && transitMet s x r &&
    !twinHolds s d.alm.toNat

/-- The descriptor occupies a thread on each of its tiles: every family but COUNT SET and ADD, FENCE, BARRIER and TRANSIT
(R170). -/
def takesThread (x : BitVec 1024) : Bool :=
  !(dFamily x == 7 || dFamily x == 8 || dFamily x == 9 || (dFamily x == 6 && dVariant x != 1))

/-- A tile can take one more descriptor with `need` contexts (R170, R187). -/
def tileTakes (s : State) (x : BitVec 1024) (t need : Nat) : Bool :=
  (eligibleTiles s x).contains t && !tileOut s t && !(getTile s t).preempt && tileHasRoom s t need

/-- The members of a list that meet a preference, or all of them where none does. -/
def prefer (p : Nat → Bool) (l : List Nat) : List Nat := let m := l.filter p; if m = [] then l else m

/-- A tile holds a page of some buffer that a descriptor names. -/
def holdsOperand (s : State) (sb : Sub) (x : BitVec 1024) (t : Nat) : Bool :=
  ((usesOf x [1, 1, 1, 1]).map fun u => vHandle (viewAt sb u.view)).any fun id => match findHandle s id with
    | some h => !isWindow h && (livePages h).any fun j =>
        let p := placeOf s h j
        p.module == ownId s && decide (p.tier ≤ 1) && p.tile == t
    | none => false

/-- Two tiles share a row or a column. -/
def sharesLine (a b : Nat) : Bool := a / 32 == b / 32 || a % 32 == b % 32

/-- The tiles that the engine prefers for one more tile of a descriptor, among those that take it: tiles of its affinity
group, then tiles that hold operand pages, then tiles that share a row or a column with the tiles it has (R187). -/
def preferredTiles (s : State) (sb : Sub) (x : BitVec 1024) (tiles : List Nat) : List Nat :=
  let need := contextNeed sb x
  let g := dAffinity x
  let l := (eligibleTiles s x).filter fun t => !tiles.contains t && !tileOut s t && !(getTile s t).preempt && tileHasRoom s t need
  let l := if groupOn s g ∧ (dLoop x ∨ !loopGroup s g) then prefer (fun t => (groupTilesOf s g).contains t) l else l
  prefer (fun t => tiles.any (sharesLine t)) (prefer (holdsOperand s sb x) l)

/-- A taken submission as validation saw it. -/
def subCand (s : State) (a : Nat) (sb : Sub) : Cand := ⟨a, almOwner s a, sb.header, sb.views, [], sb.descs⟩

/-- What a descriptor's units need of a field tile, as bits of PLT_FT_CAP (R351, R356). -/
def fieldNeeds (s : State) (c : Cand) (d : BitVec 1024) : List Nat :=
  let us := usesOf d (maxCounts d)
  let w := dFw d 0
  let fmts := (us.filter fun u => vKind (c.view u.view) == 0).map fun u =>
    let f := vFmt (c.view u.view)
    if f ≤ 10 then 31 + f else 26 + f - 11
  let scales := if us.any fun u => vScaled (c.view u.view) then [24] else []
  let engine := if dFamily d = 1 then (if fld w 2 0 = 7 then 42 else 43 + fld w 2 0) :: (if bitOf w 7 then [25] else [])
    else [23]
  fmts ++ scales ++ engine ++ userBits s c d us

/-- A plot's field tile takes one more unit of a descriptor (R356). -/
def fieldTakes (s : State) (sb : Sub) (x : BitVec 1024) (a p : Nat) : Bool :=
  let cap := get64 s (pltR p 8)
  let us := (getPlot s p).units
  (dFamily x == 1 || dFamily x == 3) && (groupPlots s (dAffinity x)).contains p &&
    ((fieldNeeds s (subCand s a sb) x).all fun b => bitOf cap b) && decide (us.length < 16) &&
    decide (us.foldl (fun n u => n + u.2) 0 + contextNeed sb x ≤ fld cap 14 8)

/-- The descriptor uses a user encoding, and so runs on field tiles alone (R354). -/
def fieldOnly (s : State) (sb : Sub) (x : BitVec 1024) (a : Nat) : Bool :=
  !(userBits s (subCand s a sb) x (usesOf x (maxCounts x))).isEmpty

/-- Field tiles on which a descriptor has units. -/
def fieldsOf (s : State) (d : DescRef) : List Nat :=
  (List.range 32).filter fun p => (getPlot s p).units.any fun u => u.1 == d

/-- A thread and contexts taken on a plot's field tile. -/
def takeField (s : State) (d : DescRef) (p need : Nat) : State :=
  modPlot s p fun x => { x with units := x.units ++ [(d, need)] }

/-- A count register holds more than its level's MAX (R145). -/
def countsExceed (x : BitVec 1024) (reg : Nat → Nat) : Bool :=
  !noLoops (dFamily x) && (List.range 4).any fun n =>
    let w := dLoopWord x n
    bitOf w 31 && decide (fld w 30 8 < reg (fld w 3 0))

/-- The views of a descriptor's inputs. -/
def inputViews (sb : Sub) (x : BitVec 1024) : List (BitVec 256) :=
  ((usesOf x [1, 1, 1, 1]).filter fun u => !u.role.isOut).map fun u => viewAt sb u.view

/-- The swap members that a LOOP descriptor reads, chosen at its start, by the handle that its view names (R322). -/
def swapChoice (s : State) (sb : Sub) (x : BitVec 1024) : List (Nat × Nat) :=
  if !dLoop x then [] else
  (((inputViews sb x).map vHandle).eraseDups).filterMap fun h => (activeMember s h).map fun m => (h, m)

/-- The handles that a descriptor's inputs read under a choice of swap members (R322, R324). -/
def readHandles (sb : Sub) (x : BitVec 1024) (sw : List (Nat × Nat)) : List Nat :=
  ((inputViews sb x).flatMap fun v => memberOf sw (vHandle v) :: (if vScaled v then [vComp v] else [])).eraseDups

/-- A thread and contexts taken on a tile. -/
def takeThread (s : State) (d : DescRef) (t need : Nat) : State :=
  modTile s t fun x => { x with threads := x.threads ++ [(d, need)] }

/-- DESCRIPTOR_START (R126, R140 to R145, R160, R223, R320, R356): on a tile, on one where its units have been placed ahead
(R185), or on a plot's field tile. Units placed ahead were built from the views as they stood: where the start chooses swap
members, or a field tile, they are given up (DEDUCED, log entry 130). -/
def opDescriptorStart (d : DescRef) (t : Nat) (plot : Option Nat) (s : State) : State :=
  match findDesc s d with
  | none => s
  | some (sb, x, r) =>
    let a := d.alm.toNat
    let need := contextNeed sb x
    let reg := fun n => (getReg s (almR a (0x40 + 4 * n))).toNat
    let sw := swapChoice s sb x
    let ahead := decide (r.tiles ≠ [] ∧ plot = none ∧ sw = [])
    let room := match plot with
      | some p => fieldTakes s sb x a p
      | none => if ahead then r.tiles.contains t else !fieldOnly s sb x a && (preferredTiles s sb x []).contains t
    if !startable s d x r ∨ (takesThread x ∧ !room) then s
    else if ringSlot s a (descSlot sb d.idx.toNat) ≠ x then
      markFail (modRun s d fun r => { r with phase := .running, startMeridian := mtrStamp s }) d 0x0323 0 0
    else if countsExceed x reg then
      markFail (modRun s d fun r => { r with phase := .running, startMeridian := mtrStamp s }) d 0x0321 0 0
    else
      let now := s.cycle
      let st := mtrStamp s
      let rh := readHandles sb x sw
      let s := if ahead ∨ r.tiles = [] then s else dropThreads s d r.tiles
      let s := modRun s d fun r => { r with
        phase := .running, counts := loopCounts x reg, startCycle := some now, startMeridian := st, swaps := sw,
        reads := rh, windowNext := [], stallFrom := now,
        tiles := if ahead then r.tiles else if !takesThread x ∨ plot.isSome then [] else [t],
        unitsPlaced := if ahead then r.unitsPlaced else [], runAhead := if ahead then r.runAhead else [],
        stallElapsed := r.stallElapsed + ((if dTransit x = 0 then now else r.ready.getD now) - r.stallFrom) }
      let s := if !takesThread x ∨ ahead then s else match plot with
        | some p => takeField s d p need
        | none => takeThread s d t need
      modSub s a d.pos.toNat fun sb =>
        if sb.firstStart.isSome then sb else { sb with firstStart := some now, firstMeridian := st }

/-- TRANSIT_LATE (R321): a descriptor whose deadline has come before its start. -/
def opTransitLate (d : DescRef) (s : State) : State :=
  match findDesc s d with
  | some (_, x, r) => if r.phase = .waiting ∧ r.ready.isSome ∧ pastDeadline s x r then failDesc s d 0x0905 0 0 else s
  | none => s

/-! Placement and run-ahead. -/

/-- Units of a descriptor (R187). -/
def unitCount (s : State) (sb : Sub) (x : BitVec 1024) (counts : List Nat) : Nat :=
  let n := iterCount counts
  let w := viewBits (userFor s (dAffinity x)) (slotView sb x 0)
  match dFamily x with
  | 1 => n * ceilDiv (dFw x 1) 32 * ceilDiv (dFw x 2) 32 * max 1 (ceilDiv (dFw x 3) (dFw x 4))
  | 2 => n * ceilDiv (dFw x 3) (dFw x 4) * ceilDiv (dFw x 1) 64
  | 3 => n
  | 4 => if dVariant x = 3 then 1 else n * ceilDiv (dFw x 1) 64
  | 5 => n * ceilDiv (dFw x 1) (dFw x 4)
  | 6 => if dVariant x = 1 then 1 else 0
  | 10 => ceilDiv (ceilDiv (n * dFw x 1 * dFw x 2 * w) 8) 65536
  | _ => 0

/-- Most tiles that a descriptor may occupy: SPREAD, its group's tiles with PIN, and one tile per unit (R187, R188). -/
def tileLimit (s : State) (sb : Sub) (x : BitVec 1024) (counts : List Nat) : Nat :=
  let g := dAffinity x
  min (unitCount s sb x counts)
    (if dPin x && !dLoop x && groupOn s g && !loopGroup s g then min (dSpread x) (groupPlaces s g) else dSpread x)

/-- The counts that the units of a descriptor follow: those of its start, or before it, where every level's count is
immediate, those. None while a count is a register's, which the start reads, and while a LOOP descriptor reads through a swap
pair, whose member the start chooses (R144, R185, R322; DEDUCED, log entry 130). -/
def unitCounts (s : State) (sb : Sub) (x : BitVec 1024) (r : Run) : Option (List Nat) :=
  if r.phase = .running ∧ r.code = 0 then some r.counts
  else if r.phase = .waiting ∧ (noLoops (dFamily x) ∨ (List.range 4).all fun n => !bitOf (dLoopWord x n) 31) ∧
      swapChoice s sb x = [] then some (loopCounts x fun _ => 0)
  else none

/-- A unit built on a tile (R89). -/
def addUnit (s : State) (t : Nat) (u : BuiltUnit) : State :=
  modTile s t fun y => { y with units := y.units ++ [u], built := y.built + 1 }

/-- UNIT_PLACEMENT (R89, R170, R171, R185, R187, R188, R356): on a tile, where the sequencer builds it with the areas that it
chooses, or on a plot's field tile. -/
def opUnitPlacement (d : DescRef) (unit t : Nat) (plot : Option Nat) (areas : Areas) (s : State) : State :=
  match findDesc s d with
  | none => s
  | some (sb, x, r) => match unitCounts s sb x r with
  | none => s
  | some counts =>
    let need := contextNeed sb x
    let fs := fieldsOf s d
    if !takesThread x ∨ unitCount s sb x counts ≤ unit ∨ (r.unitsPlaced.any fun p => p.1 == unit) then s
    else
      let more := decide (r.tiles.length + fs.length < tileLimit s sb x counts)
      let place := fun (at_ : Nat) (s : State) => modRun s d fun r => { r with unitsPlaced := r.unitsPlaced ++ [(unit, at_)] }
      match plot with
      | some p =>
        if r.phase = .waiting then s
        else if fs.contains p ∧ plotServes s p then place (1152 + p) s
        else if more ∧ fieldTakes s sb x d.alm.toNat p then place (1152 + p) (takeField s d p need)
        else s
      | none =>
        let u := buildUnit s (runViews sb x { r with counts := counts }) d x counts unit (getTile s t).built areas
        if !areasFit s u ∨ !((u.pass.map fun p => passOk p.fields).getD true) then s
        else if r.tiles.contains t then addUnit (place t s) t u
        else if more ∧ !fieldOnly s sb x d.alm.toNat ∧ (preferredTiles s sb x r.tiles).contains t then
          addUnit (place t (takeThread (modRun s d fun r => { r with tiles := r.tiles ++ [t] }) d t need)) t u
        else s

/-- A handle that run-ahead reads may take (R137, R168, R185): sealed for the submission, and not a window handle. -/
def runAheadHandle (s : State) (sb : Sub) (id : Nat) : Bool :=
  (sb.views.any fun v => vSealed v && vHandle v == id) && ((findHandle s id).map fun h => !isWindow h).getD false

/-- RUN_AHEAD_READ (R185): from now on the contexts of an input slot on a tile that the waiting descriptor's units have been
placed on read ahead of its start, with transfers of class 3, as far as their rings go. -/
def opRunAheadRead (d : DescRef) (slot t : Nat) (s : State) : State :=
  match findDesc s d with
  | none => s
  | some (sb, x, r) =>
    let inputs := (usesOf x (maxCounts x)).filter fun u => !u.role.isOut && u.slot == slot
    if r.phase ≠ .waiting ∨ !r.tiles.contains t ∨ !(inputs.any fun u => runAheadHandle s sb (vHandle (viewAt sb u.view))) ∨
        r.runAhead.contains (slot, t) then s
    else modRun s d fun r => { r with runAhead := r.runAhead ++ [(slot, t)] }

/-! The end of an attempt. -/

/-- DESCRIPTOR_COMMIT (R160, R209, R249). -/
def opDescriptorCommit (d : DescRef) (s : State) : State := toCommit s d

/-- DESCRIPTOR_FAIL (R140, R160, R162, R246): an attempt that has ended with a failure commits nothing. -/
def opDescriptorFail (d : DescRef) (s : State) : State :=
  match findDesc s d with
  | some (_, _, r) => if r.going ∧ r.code ≠ 0 then failDesc s d r.code r.detailHandle r.detailOffset else s
  | none => s

/-- Codes that lead to a restart (R161, R462, R463). -/
def restartable (code : Nat) : Bool := code == 0x0F01 || code == 0x0F03

/-- DESCRIPTOR_RESTART (R126, R161): the attempt ends; the descriptor runs again from its first iteration, or fails with
the fault's code after three restarts. -/
def opDescriptorRestart (d : DescRef) (code : Nat) (s : State) : State :=
  match findDesc s d with
  | none => s
  | some (sb, x, r) =>
    if !r.going ∨ r.code ≠ 0 then s
    else if !restartable code ∨ 3 ≤ r.restarts then markFail s d code 0 0
    else
      let s := dropThreads s d r.tiles
      let s := { s with copies := s.copies.filter fun c => c.owner != some d }
      let s := modRun s d fun r => { r with
        phase := .running, restarts := r.restarts + 1, tiles := [], unitsPlaced := [], runAhead := [], windowNext := [],
        tierBegun := false, pinNew := none, summary := Summary.zero, tally := [], parts := none, countValue := none, seqNew := none }
      let s := logEntry s 2 0x0F02 (d.pos.toNat * 2 ^ 32 + d.alm.toNat * 2 ^ 16 + d.idx.toNat)
        (code * 2 ^ 16 + (r.restarts + 1))
      if ringSlot s d.alm.toNat (descSlot sb d.idx.toNat) ≠ x then markFail s d 0x0323 0 0 else s

/-! The rows. -/

/-- ALM_DOORBELL. -/
def execAlmDoorbell (fn : Fn) (a : AlmIx) (tail : Word) (s : State) : Host.Outcome State Fault Refusal :=
  .next (opAlmDoorbell fn.val a.toNat tail s)
/-- ALM_ENABLE. -/
def execAlmEnable (fn : Fn) (a : AlmIx) (cfg : Word) (s : State) : Host.Outcome State Fault Refusal :=
  .next (opAlmEnable fn.val a.toNat cfg s)
/-- ALM_RESET. -/
def execAlmReset (fn : Fn) (a : AlmIx) (s : State) : Host.Outcome State Fault Refusal := .next (opAlmReset fn.val a.toNat s)
/-- ALM_ABORT. -/
def execAlmAbort (fn : Fn) (a : AlmIx) (s : State) : Host.Outcome State Fault Refusal := .next (opAlmAbort fn.val a.toNat s)
/-- ALM_COUNT_WRITE. -/
def execAlmCountWrite (fn : Fn) (a : AlmIx) (n : BitVec 4) (val : Word) (s : State) : Host.Outcome State Fault Refusal :=
  .next (opAlmCountWrite fn.val a.toNat n.toNat val s)
/-- SUBMISSION_READ. -/
def execSubmissionRead (a : AlmIx) (s : State) : Host.Outcome State Fault Refusal := .next (opSubmissionRead a.toNat s)
/-- DESCRIPTOR_START. -/
def execDescriptorStart (d : DescRef) (t : TileIx) (plot : Option PlotIx) (s : State) : Host.Outcome State Fault Refusal :=
  .next (opDescriptorStart d t.val (plot.map (·.toNat)) s)
/-- UNIT_PLACEMENT. -/
def execUnitPlacement (d : DescRef) (unit : Nat) (t : TileIx) (plot : Option PlotIx) (areas : Areas) (s : State) :
    Host.Outcome State Fault Refusal :=
  .next (opUnitPlacement d unit t.val (plot.map (·.toNat)) areas s)
/-- RUN_AHEAD_READ. -/
def execRunAheadRead (d : DescRef) (slot : BitVec 2) (t : TileIx) (s : State) : Host.Outcome State Fault Refusal :=
  .next (opRunAheadRead d slot.toNat t.val s)
/-- DESCRIPTOR_COMMIT. -/
def execDescriptorCommit (d : DescRef) (s : State) : Host.Outcome State Fault Refusal := .next (opDescriptorCommit d s)
/-- DESCRIPTOR_FAIL. -/
def execDescriptorFail (d : DescRef) (s : State) : Host.Outcome State Fault Refusal := .next (opDescriptorFail d s)
/-- DESCRIPTOR_RESTART. -/
def execDescriptorRestart (d : DescRef) (code : BitVec 16) (s : State) : Host.Outcome State Fault Refusal :=
  .next (opDescriptorRestart d code.toNat s)
/-- TRANSIT_LATE. -/
def execTransitLate (d : DescRef) (s : State) : Host.Outcome State Fault Refusal := .next (opTransitLate d s)

end Sys2Proof.Machine
end

