-- ==== Sys2Proof/Machine/Barriers.lean ====
section
/-!
DEFINITION. Barrier objects (R217 to R222): configuration, arrivals, the home's count of modules, and releases.
-/
namespace Sys2Proof.Machine
open Sys2Proof

/-- Object `b` is in use on this module with participants. -/
def barOn (s : State) (b : Nat) : Bool := getb s (barCfgR b) 31 && getf s (barCfgR b) 16 0 != 0

/-- HOME of an object. -/
def barHome (s : State) (b : Nat) : Nat := getf s (barCfgR b) 23 18

/-- A descriptor freed by a release: it completes with OK (R218); one that is pre-empted keeps the release until it
resumes (R225). -/
def freeWaiter (s : State) (d : DescRef) : State :=
  match findDesc s d with
  | some (_, x, r) =>
    if r.phase ≠ .running ∨ r.code ≠ 0 then s
    else
      let s := modRun s d fun r => { r with barReleased := true }
      if r.preempted then s else toCommit (finishBody s d x (idleWork s d) id) d
  | none => s

/-- A phase released on this module (R218): GENERATION rises and the phase's waiters are freed. -/
def releasePhase (s : State) (b : Nat) : State :=
  let x := getBar s b
  let go := x.waiters.filter fun w => decide (w.2 ≤ x.released)
  let s := setBar s b { x with released := x.released + 1, waiters := x.waiters.filter fun w => decide (x.released < w.2) }
  go.foldl (fun s w => freeWaiter s w.1) s

/-- The home has all the module arrivals of a phase: releases go to every module that sent one (R218). -/
def homeCheck (s : State) (b : Nat) (parity : Bool) : State :=
  let x := getBar s b
  let got := x.arrivals.filter fun p => p.2 == parity
  let need := getf s (barCfgR b) 30 24
  if need ≠ 0 ∧ need ≤ got.length then
    let s := setBar s b { x with arrivals := x.arrivals.filter fun p => p.2 != parity }
    let s := got.foldl (fun s p => if p.1 = ownId s then s else emit s (.release p.1 b parity)) s
    if got.any fun p => p.1 == ownId s then releasePhase s b else s
  else s

/-- A module arrival counted at the home. -/
def homeArrive (s : State) (b source : Nat) (parity : Bool) : State :=
  let x := getBar s b
  homeCheck (setBar s b { x with arrivals := x.arrivals ++ [(source, parity)] }) b parity

/-- The module's own phase is complete: its arrival goes to HOME (R217, R218). -/
def sendArrival (s : State) (b : Nat) (parity : Bool) : State :=
  if barHome s b = ownId s then homeArrive s b (ownId s) parity else emit s (.moduleArrival (barHome s b) b parity)

/-- One arrival counted toward the current phase (R218). -/
def countArrival (s : State) (b : Nat) : State :=
  let x := getBar s b
  let n := x.count + 1
  if n = getf s (barCfgR b) 16 0 then
    sendArrival (setBar s b { x with count := 0, phase := x.phase + 1 }) b (decide (x.phase % 2 = 1))
  else setBar s b { x with count := n }

/-- The phase that an arrival would count toward may not be counted yet (R220). -/
def arrivalHeld (x : Bar) : Bool := decide (x.released + 2 ≤ x.phase)

/-- A descriptor's arrival is counted: it keeps the phase; an arrive-only descriptor completes, an arrive-and-wait waits
unless the phase is released at once (R219). -/
def descArrived (s : State) (b : Nat) (d : DescRef) : State :=
  match findDesc s d with
  | some (_, x, _) =>
    let q := (getBar s b).phase
    let s := modRun s d fun r => { r with barPhase := some q, barHeld := false }
    let s := if dVariant x = 0 then
        let o := getBar s b
        setBar s b { o with waiters := o.waiters ++ [(d, q)] }
      else s
    let s := countArrival s b
    if dVariant x = 1 then toCommit (finishBody s d x (idleWork s d) id) d else s
  | none => countArrival s b

/-- An arrival by a descriptor or the host: counted, or held until a release (R220). -/
def barArrive (s : State) (b : Nat) (who : Option DescRef) : State :=
  let x := getBar s b
  if arrivalHeld x then
    let s := setBar s b { x with held := x.held ++ [who] }
    match who with
    | some d => modRun s d fun r => { r with barHeld := true }
    | none => s
  else match who with
    | some d => descArrived s b d
    | none => countArrival s b

/-- Held arrivals counted, oldest first, while their phase may be counted (R220). -/
def drainHeld : Nat → State → Nat → State
  | 0, s, _ => s
  | n + 1, s, b =>
    let x := getBar s b
    match x.held with
    | w :: rest =>
      if arrivalHeld x then s
      else
        let s := setBar s b { x with held := rest }
        drainHeld n (match w with
          | some d => descArrived s b d
          | none => countArrival s b) b
    | [] => s

/-- Every held arrival that a release lets in. -/
def drainAll (s : State) (b : Nat) : State := drainHeld (getBar s b).held.length s b

/-- The waiters and held arrivals of an object fail with a code, and the module's count, SENSE and GENERATION become 0
(R222). -/
def barFail (s : State) (b code : Nat) : State :=
  let x := getBar s b
  let s := setBar s b { Bar.reset with arrivals := x.arrivals }
  let s := x.waiters.foldl (fun s w => markFail s w.1 code 0 0) s
  x.held.foldl (fun s w => match w with
    | some d => markFail s d code 0 0
    | none => s) s

/-- The waiters of an object fail, its counts kept: a returned arrival, or a home that has been disabled (R222). -/
def barReturn (s : State) (b code : Nat) : State :=
  let x := getBar s b
  x.waiters.foldl (fun s w => markFail s w.1 code 0 0) (setBar s b { x with waiters := [] })

/-- The home of an object has left the pool or its link has failed while a phase was pending there (R222): the waiters
fail, the module's count, SENSE and GENERATION become 0, and the held arrivals, which that row does not name, then count. -/
def barHomeLost (s : State) (b : Nat) : State :=
  let x := getBar s b
  let s := setBar s b { Bar.reset with arrivals := x.arrivals, held := x.held }
  drainAll (x.waiters.foldl (fun s w => markFail s w.1 0x0504 0 0) s) b

/-- BARRIER_CONFIG_WRITE (R217, R222). -/
def opBarrierConfigWrite (b : Nat) (val : Word) (s : State) : State :=
  let r := barCfgR b
  let v := val.toNat
  let on := getb s r 31
  let s := if on then s else
    let s := if fld v 30 24 ≤ 64 then setf s r 30 24 (fld v 30 24) else s
    let s := setf s r 23 18 (fld v 23 18)
    if fld v 16 0 ≤ 65536 then setf s r 16 0 (fld v 16 0) else s
  if bitOf v 31 then
    (if on then s
     else if barHome s b = ownId s ∧ getf s r 30 24 = 0 then s
     else setb s r 31 true)
  else if !on then s
  else
    let home := barHome s b = ownId s
    let sent := (getBar s b).arrivals
    let s := setb (barFail s b 0x0501) r 31 false
    if home then
      let s := setBar s b { getBar s b with arrivals := [] }
      sent.foldl (fun s p => if p.1 = ownId s then s else emit s (.arrivalReturned p.1 b)) s
    else s

/-- ALM_BAR_ARRIVE (R219, R222). -/
def opAlmBarArrive (b : Nat) (val : Word) (s : State) : State :=
  if !val.getLsbD 0 ∨ !barOn s b then s else drainAll (barArrive s b none) b

/-- MODULE_ARRIVAL: another module's arrival reaches this one (R218, R222). One that carries this module's own POOL_ID is
its own arrival, returned by the home. -/
def opModuleArrival (b source : Nat) (parity : Bool) (s : State) : State :=
  if source = ownId s then (if barHome s b = ownId s then s else barReturn s b 0x0501)
  else if barHome s b = ownId s ∧ getb s (barCfgR b) 31 then drainAll (homeArrive s b source parity) b
  else emit s (.arrivalReturned source b)

/-- BARRIER_RELEASE: the home's release reaches this module (R218, R220). A release of a phase that this module has not
completed is none of its own. -/
def opBarrierRelease (b : Nat) (parity : Bool) (s : State) : State :=
  let x := getBar s b
  if getb s (barCfgR b) 31 ∧ x.released < x.phase ∧ parity = decide (x.released % 2 = 1) then
    drainAll (releasePhase s b) b
  else s

/-- A BARRIER descriptor that arrives (R219, R222). -/
def barrierDesc (variant : Nat) (d : DescRef) (s : State) : State :=
  match findDesc s d with
  | some (_, x, r) =>
    let b := fld (dFw x 0) 7 0
    if dFamily x ≠ 8 ∨ dVariant x ≠ variant ∨ r.phase ≠ .running ∨ r.code ≠ 0 ∨ r.barPhase.isSome ∨ r.barHeld then s
    else if !barOn s b then markFail s d 0x0501 0 0
    else drainAll (barArrive s b (some d)) b
  | none => s

/-- BARRIER wait (R219): it waits on the phase of the arrive that PRED0 names. -/
def opBarrierWait (d : DescRef) (s : State) : State :=
  match findDesc s d with
  | some (sb, x, r) =>
    let b := fld (dFw x 0) 7 0
    if dFamily x ≠ 8 ∨ dVariant x ≠ 2 ∨ r.phase ≠ .running ∨ r.code ≠ 0 ∨ r.barPhase.isSome then s
    else if !barOn s b then markFail s d 0x0501 0 0
    else
      let q := (((sb.runs[d.idx.toNat - dPred x 0]?).bind (·.barPhase))).getD 0
      let s := modRun s d fun r => { r with barPhase := some q }
      if q < (getBar s b).released then freeWaiter s d
      else
        let o := getBar s b
        setBar s b { o with waiters := o.waiters ++ [(d, q)] }
  | none => s

/-- BARRIER_CONFIG_WRITE. -/
def execBarrierConfigWrite (b : BitVec 8) (val : Word) (s : State) : Host.Outcome State Fault Refusal :=
  .next (opBarrierConfigWrite b.toNat val s)
/-- ALM_BAR_ARRIVE. -/
def execAlmBarArrive (b : BitVec 8) (val : Word) (s : State) : Host.Outcome State Fault Refusal :=
  .next (opAlmBarArrive b.toNat val s)
/-- MODULE_ARRIVAL. -/
def execModuleArrival (b : BitVec 8) (source : BitVec 6) (phase : Bool) (s : State) : Host.Outcome State Fault Refusal :=
  .next (opModuleArrival b.toNat source.toNat phase s)
/-- BARRIER_RELEASE. -/
def execBarrierRelease (b : BitVec 8) (phase : Bool) (s : State) : Host.Outcome State Fault Refusal :=
  .next (opBarrierRelease b.toNat phase s)
/-- BARRIER_ARRIVE_AND_WAIT. -/
def execBarrierArriveAndWait (d : DescRef) (s : State) : Host.Outcome State Fault Refusal := .next (barrierDesc 0 d s)
/-- BARRIER_ARRIVE. -/
def execBarrierArrive (d : DescRef) (s : State) : Host.Outcome State Fault Refusal := .next (barrierDesc 1 d s)
/-- BARRIER_WAIT. -/
def execBarrierWait (d : DescRef) (s : State) : Host.Outcome State Fault Refusal := .next (opBarrierWait d s)

end Sys2Proof.Machine
end

