-- ==== Sys2Proof/Machine/Pages.lean ====
section
/-!
DEFINITION. Pages that may move (R191, R196), room made for them (R166, R195), and the TIER moves and pins of R192 and
R193.
-/
namespace Sys2Proof.Machine
open Sys2Proof

/-- Some accepted descriptor that has not completed, other than `but`, has bytes of a range in an output footprint. -/
def outputBusy (s : State) (but : Option DescRef) (id lo hi : Nat) : Bool :=
  s.alms.any fun p => p.2.subs.any fun sb =>
    ((sb.descs.zip sb.runs).mapIdx fun i q => (i, q)).any fun q =>
      q.2.2.phase != .finished && some (refOf p.1 sb.pos q.1) != but &&
        (feet s (subCand s p.1 sb) q.2.1).any fun f => f.out && f.meets ⟨id, lo, hi, true⟩

/-- First and last destination byte of an arming; none where it moves nothing. -/
def armSpan (a : Arming) : Option (Int × Int) :=
  if a.rows = 0 ∨ a.rowBytes = 0 then none
  else
    let last := (a.dstOff : Int) + (a.rows - 1 : Nat) * a.dstStride
    some (min (a.dstOff : Int) last, max (a.dstOff : Int) last + a.rowBytes - 1)

/-- An arming has bytes of a range of a handle in its destination; one that has ended has, while transfers of it are still
outstanding. -/
def armHits (a : Arming) (id lo hi : Nat) : Bool :=
  a.dst == id && (!a.ended || !a.outstanding.isEmpty) && match armSpan a with
    | some (l, h) => decide (l ≤ hi) && decide ((lo : Int) ≤ h)
    | none => false

/-- Some direct arming has bytes of a range in its destination. -/
def armingBusy (s : State) (id lo hi : Nat) : Bool :=
  s.tiles.any fun t => t.2.stm.any fun c =>
    ((c.2.active.map fun a => armHits a id lo hi).getD false) || ((c.2.shadow.map fun a => armHits a id lo hi).getD false)

/-- A page is free to move, pins apart (R196). -/
def pageFree (s : State) (but : Option DescRef) (id page : Nat) : Bool :=
  let lo := page * pageBytes
  !outputBusy s but id lo (lo + pageBytes - 1) && !armingBusy s id lo (lo + pageBytes - 1)

/-- The buffer is the ring or completion buffer of an almanac that has taken a LOOP descriptor and is still enabled: its
pages stay in near store (R191). -/
def heldNear (s : State) (id : Nat) : Bool :=
  s.alms.any fun p => p.2.tookLoop && almOn s p.1 &&
    ((getReg s (almR p.1 0x14)).toNat == id || (getReg s (almR p.1 0x18)).toNat == id)

/-- A page of this module that may migrate (R191, R193, R196). -/
def mayMigrate (s : State) (id page : Nat) : Bool :=
  match findHandle s id with
  | some h =>
    h.kind == 0 && h.pin.isNone && decide (page < pagesOf h.size) && !h.lost.contains page &&
      (placeOf s h page).module == ownId s && pageFree s none id page && !copying s id page && !heldNear s id
  | none => false

/-! Room (R166, R195). -/

/-- Pages that lie on a tile in a tier of this module and may migrate. -/
def movablePages (s : State) (tier t : Nat) : List (Nat × Nat) :=
  s.handles.flatMap fun h => ((livePages h).filter fun j =>
    placeOf s h j == ⟨ownId s, tier, t⟩ && mayMigrate s h.id j).map fun j => (h.id, j)

/-- The page of a list with the fewest accesses in the last epoch, the first of equals (DESIGN CHOICE, log entry 118). -/
def coldest (s : State) (l : List (Nat × Nat)) : Option (Nat × Nat) :=
  let n := fun (p : Nat × Nat) => smGet 0 (pageKey p.1 p.2) s.engine.last
  match l with
  | [] => none
  | p :: t => some (t.foldl (fun b q => if n q < n b then q else b) p)

/-- One page demoted from a tile's near store to LPDDR6. -/
def demoteNear (s : State) (t : Nat) : Option State :=
  if !lpddrRoom s then none
  else (coldest s (movablePages s 1 t)).map fun v => startCopy s none v.1 v.2 ⟨ownId s, 2, 0⟩

/-- Room for one page in a tile's near store, by a demotion where it has none. -/
def nearRoom (s : State) (t : Nat) : Option State :=
  if usedPages s t 1 0 < tilePages s 1 then some s else demoteNear s t

/-- Room for one page on a tile in a tier, by demotions where it has none. -/
def makeRoom (s : State) (tier t : Nat) : Option State :=
  if tier = 1 then nearRoom s t
  else if usedPages s t 0 0 < tilePages s 0 then some s
  else match nearRoom s t with
    | some s => (coldest s (movablePages s 0 t)).map fun v => startCopy s none v.1 v.2 ⟨ownId s, 1, t⟩
    | none => none

/-- A tile of a list with room for one page in a tier: one that has it, of the engine's choice, or the first on which a
demotion makes it. -/
def tileFor (s : State) (tiles : List Nat) (tier : Nat) : Option (Nat × State) :=
  match pickOne (roomyTiles s tiles tier 0) s with
  | (some t, s) => some (t, s)
  | (none, s) => tiles.findSome? fun t => (makeRoom s tier t).map fun s => (t, s)

/-! TIER moves (R192, R193). -/

/-- The page lies in a tier of this module, below LPDDR6 on one of the tiles concerned. -/
def inTier (s : State) (h : Handle) (tiles : List Nat) (tier page : Nat) : Bool :=
  let x := placeOf s h page
  x.module == ownId s && x.tier == tier && (tier == 2 || tiles.contains x.tile)

/-- The copy of one page to a tier begun; none where the tier has no room for it. -/
def sendPage (s : State) (d : DescRef) (h : Handle) (tiles : List Nat) (tier page : Nat) : Option State :=
  if inTier s h tiles tier page then some s
  else if tier = 2 then (if lpddrRoom s then some (startCopy s (some d) h.id page ⟨ownId s, 2, 0⟩) else none)
  else (tileFor s tiles tier).map fun r => startCopy r.2 (some d) h.id page ⟨ownId s, tier, r.1⟩

/-- Every page sent to a tier: those that fit; the flag tells whether all did. -/
def sendPages (s : State) (d : DescRef) (h : Handle) (tiles : List Nat) (tier : Nat) : State × Bool :=
  (livePages h).foldl (fun r j => match sendPage r.1 d h tiles tier j with
    | some s => (s, r.2)
    | none => (r.1, false)) (s, true)

/-- Pin of a handle set or removed. -/
def setPin (s : State) (id : Nat) (p : Option Pin) : State := modHandle s id fun h => { h with pin := p }

/-- The tiles concerned by a TIER move. -/
def moveTiles (s : State) (x : BitVec 1024) : List Nat := pinTiles s (dAffinity x) (bitOf (dFw x 3) 2)

/-- A pin finds no space: its tier's, less the pages of other pins, or a tier that the buffer cannot leave near store for. -/
def pinFails (s : State) (h : Handle) (x : BitVec 1024) : Bool :=
  let tier := fld (dFw x 3) 1 0
  (decide (tier ≤ 1) && decide (freePages s (moveTiles s x) tier h.id < pagesOf h.size)) ||
    (heldNear s h.id && (tier == 0 || tier == 2))

/-- The pin that a MOVE TIER leaves at its commit; none: it changes none (R193, R194). -/
def newPin (x : BitVec 1024) (id : Nat) : Option (Nat × Option Pin) :=
  let w := dFw x 3
  if bitOf w 3 then some (id, some ⟨fld w 1 0, bitOf w 2, dAffinity x⟩)
  else if bitOf w 4 then some (id, none)
  else none

/-- The start of a MOVE TIER's work: none while a page may not move yet (R196), else the state, with the copies under way,
and the failure that it meets: a lost page, or a pin whose space has been taken. A move toward LPDDR6 waits until the tier
is in service (R398). A window handle has no pages (R168), a pinned buffer stays where its pin holds it unless the move
releases or pins it, and a buffer that R191 holds in near store stays there. -/
def beginTier (s : State) (d : DescRef) (sb : Sub) (x : BitVec 1024) (counts : List Nat) :
    Option (State × Option (Nat × Nat × Nat)) :=
  let w := dFw x 3
  let id := vHandle (slotView sb x 0)
  let tier := fld w 1 0
  match findHandle s id with
  | none => some (s, none)
  | some h =>
    if counts.contains 0 ∨ isWindow h then some (s, none)
    else if !((List.range (pagesOf h.size)).all fun j => pageFree s (some d) id j) ∨ (tier = 2 ∧ memState s ≠ 2) then none
    else match h.lost with
    | j :: _ => some (s, some (0x080B, id, j * pageBytes))
    | [] =>
      let s := { s with copies := s.copies.filter fun c => c.handle != id }
      if bitOf w 3 ∧ pinFails s h x then some (setPin s id none, some (0x0406, 0, 0))
      else if tier = 3 ∨ (!bitOf w 3 ∧ ((h.pin.isSome ∧ !bitOf w 4) ∨ heldNear s id)) then some (s, none)
      else
        let r := sendPages s d h (moveTiles s x) tier
        if bitOf w 3 ∧ !r.2 then some (setPin r.1 id none, some (0x0406, 0, 0)) else some (r.1, none)

end Sys2Proof.Machine
end

