-- ==== Sys2Proof/Machine/Families.lean ====
section
/-!
DEFINITION. The descriptor families (R146 to R154, R214): what each does once it has started.
-/
namespace Sys2Proof.Machine
open Sys2Proof

/-- A running descriptor of a family and variant, with its views as the run reads them; anything else is not due. -/
def withRun (fam : Nat) (var : Nat → Bool) (d : DescRef) (s : State) (f : Sub → BitVec 1024 → Run → State) : State :=
  match findDesc s d with
  | some (sb, x, r) =>
    if dFamily x = fam ∧ var (dVariant x) ∧ r.phase = .running ∧ r.code = 0 ∧ !r.preempted ∧
        !portHolds s d then f (runViews sb x r) x r
    else s
  | none => s

/-- Any variant. -/
def anyVar : Nat → Bool := fun _ => true

/-- MMA (R146, R147). -/
def opMma (d : DescRef) (s : State) : State :=
  withRun 1 anyVar d s fun sb x r => finishBody s d x (bodyMma s sb x r.counts) id

/-- FOLD (R148 to R150). -/
def opFold (d : DescRef) (s : State) : State :=
  withRun 2 anyVar d s fun sb x r =>
    let b := bodyFold s sb x r.counts
    finishBody s d x b.1 fun r => { r with seqNew := b.2 }

/-- The trap that TILE_VE_CHK_STATUS shows, where none stands (R120). -/
def recordTrap (s : State) (t pc kind reg : Nat) (mask : Bool) (early : Nat) : State :=
  let o := tileR t 0x84
  if getb s o 31 then s
  else setReg s o (BitVec.ofNat 32 (2 ^ 31 + kind * 2 ^ 29 + pc * 2 ^ 20 + reg * 2 ^ 14 + b2n mask * 2 ^ 13 + early * 2 ^ 9))

/-- The sward tile on which iteration `i` of a VEC descriptor runs (R187): where its unit was placed, otherwise the
descriptor's first tile; none on a field tile. -/
def vecTile (r : Run) (i : Nat) : Option Nat :=
  match r.unitsPlaced.find? fun p => p.1 == i with
  | some p => if p.2 < 1152 then some p.2 else none
  | none => r.tiles.head?

/-- VEC (R151), each invocation in checking mode as the tile it runs on says, and a trap recorded there (R120). -/
def opVec (d : DescRef) (s : State) : State :=
  withRun 3 anyVar d s fun sb x r =>
    let b := bodyVec s sb x r.counts d fun i => match vecTile r i with
      | some t => getb s (tileR t 0x80) 31
      | none => false
    let s := match b.2 with
      | some (i, pc, kind, reg, mask, early) => match vecTile r i with
        | some t => recordTrap s t pc kind reg mask early
        | none => s
      | none => s
    finishBody s d x b.1 id

/-- MOVE COPY, GATHER or SCATTER (R152). -/
def moveDesc (var : Nat) (d : DescRef) (s : State) : State :=
  withRun 4 (· == var) d s fun sb x r => finishBody s d x (bodyMove s sb x r.counts) id

/-- The end of a MOVE TIER's work, once every page that it sends has arrived. -/
def endTier (s : State) (d : DescRef) (sb : Sub) (x : BitVec 1024) (counts : List Nat) : State :=
  if s.copies.any fun c => c.owner == some d then s
  else finishBody s d x { Work.nothing with program := programDigest sb x counts [] [] } fun r =>
    { r with pinNew := if counts.contains 0 then none else newPin x (vHandle (slotView sb x 0)) }

/-- MOVE TIER (R192, R193, R196): while a page may not move the descriptor waits; then its pages are copied, and once the
last has been remapped the work is done. -/
def opMoveTier (d : DescRef) (s : State) : State :=
  withRun 4 (· == 3) d s fun sb x r =>
    if r.tierBegun then endTier s d sb x r.counts
    else match beginTier s d sb x r.counts with
      | none => s
      | some (s, some (c, h, o)) => markFail s d c h o
      | some (s, none) => endTier (modRun s d fun r => { r with tierBegun := true }) d sb x r.counts

/-- REDUCE SUM, MAX or MIN (R153). -/
def reduceDesc (var : Nat) (d : DescRef) (s : State) : State :=
  withRun 5 (· == var) d s fun sb x r => finishBody s d x (bodyReduce s sb x r.counts) id

/-- COUNT SET, LOAD or ADD (R154): the value that the commit writes; an ADD reads its register there. -/
def countDesc (var : Nat) (d : DescRef) (s : State) : State :=
  withRun 6 (· == var) d s fun sb x r =>
    let w := bodyCount s sb x r.counts
    let v := match var with
      | 0 => some (dFw x 1)
      | 1 => some (readElem s (viewElem (fun _ => 32) (slotView sb x 0) 0 0 0))
      | _ => none
    let w := { w with outputs := [operandOf 32 [v.getD 0]] }
    finishBody s d x w fun r => { r with countValue := v }

/-- TALLY (R154, R240 to R242). -/
def opTally (d : DescRef) (s : State) : State :=
  withRun 10 anyVar d s fun sb x r =>
    let b := bodyTally s sb x r.counts
    finishBody s d x b.1 fun r => { r with tally := b.2 }

/-- TRANSIT (R154, R321): it completes with OK where it would start. -/
def opTransit (d : DescRef) (s : State) : State :=
  withRun 9 anyVar d s fun _ x _ => toCommit (finishBody s d x (idleWork s d) id) d

/-- The modules that a pool-scope FENCE must read: those written since the last completed one. -/
def fenceTargets (s : State) : List Nat := s.pool.written.map (·.1)

/-- FENCE (R214). -/
def opFence (d : DescRef) (s : State) : State :=
  withRun 7 anyVar d s fun _ x r =>
    let ts := fenceTargets s
    if r.fenceIssued.isSome then s
    else if fld (dFw x 0) 0 0 = 0 ∨ ts = [] then toCommit (finishBody s d x (idleWork s d) id) d
    else
      let no := s.pool.writeNo
      let s := ts.foldl (fun s m => emit s (.fenceRead m)) s
      modRun s d fun r => { r with fenceIssued := some no, fencePending := ts }

/-- FENCE_READ_RETURN (R214): a read of a pool-scope FENCE returns, or ends in a timeout or an error. -/
def opFenceReadReturn (d : DescRef) (m : Nat) (ok : Bool) (s : State) : State :=
  withRun 7 anyVar d s fun _ x r =>
    if !r.fencePending.contains m then s
    else if !ok then markFail (modRun s d fun r => { r with fencePending := [] }) d 0x0502 0 0
    else
      let left := r.fencePending.filter fun k => k != m
      let s := modRun s d fun r => { r with fencePending := left }
      if left = [] then toCommit (finishBody s d x (idleWork s d) id) d else s

/-- MMA. -/
def execMma (d : DescRef) (s : State) : Host.Outcome State Fault Refusal := .next (opMma d s)
/-- FOLD. -/
def execFold (d : DescRef) (s : State) : Host.Outcome State Fault Refusal := .next (opFold d s)
/-- VEC. -/
def execVec (d : DescRef) (s : State) : Host.Outcome State Fault Refusal := .next (opVec d s)
/-- MOVE_COPY. -/
def execMoveCopy (d : DescRef) (s : State) : Host.Outcome State Fault Refusal := .next (moveDesc 0 d s)
/-- GATHER. -/
def execGather (d : DescRef) (s : State) : Host.Outcome State Fault Refusal := .next (moveDesc 1 d s)
/-- SCATTER. -/
def execScatter (d : DescRef) (s : State) : Host.Outcome State Fault Refusal := .next (moveDesc 2 d s)
/-- MOVE_TIER. -/
def execMoveTier (d : DescRef) (s : State) : Host.Outcome State Fault Refusal := .next (opMoveTier d s)
/-- REDUCE_SUM. -/
def execReduceSum (d : DescRef) (s : State) : Host.Outcome State Fault Refusal := .next (reduceDesc 0 d s)
/-- REDUCE_MAX. -/
def execReduceMax (d : DescRef) (s : State) : Host.Outcome State Fault Refusal := .next (reduceDesc 1 d s)
/-- REDUCE_MIN. -/
def execReduceMin (d : DescRef) (s : State) : Host.Outcome State Fault Refusal := .next (reduceDesc 2 d s)
/-- COUNT_SET. -/
def execCountSet (d : DescRef) (s : State) : Host.Outcome State Fault Refusal := .next (countDesc 0 d s)
/-- COUNT_LOAD. -/
def execCountLoad (d : DescRef) (s : State) : Host.Outcome State Fault Refusal := .next (countDesc 1 d s)
/-- COUNT_ADD. -/
def execCountAdd (d : DescRef) (s : State) : Host.Outcome State Fault Refusal := .next (countDesc 2 d s)
/-- FENCE. -/
def execFence (d : DescRef) (s : State) : Host.Outcome State Fault Refusal := .next (opFence d s)
/-- FENCE_READ_RETURN. -/
def execFenceReadReturn (d : DescRef) (module : BitVec 6) (ok : Bool) (s : State) : Host.Outcome State Fault Refusal :=
  .next (opFenceReadReturn d module.toNat ok s)
/-- TRANSIT. -/
def execTransit (d : DescRef) (s : State) : Host.Outcome State Fault Refusal := .next (opTransit d s)
/-- TALLY. -/
def execTally (d : DescRef) (s : State) : Host.Outcome State Fault Refusal := .next (opTally d s)

end Sys2Proof.Machine
end

