-- ==== Sys2Proof/Machine/Array.lean ====
section
/-!
DEFINITION. The tile's array: passes, k-steps, drains and the exception counters (R88 to R107, R122), and pre-emption
(R102, R225).
-/
namespace Sys2Proof.Machine
open Sys2Proof

/-! Rings (R106, R107). -/

/-- The tile-store byte of ring byte `x`; a ring of length 0 is flat. -/
def ringByte (r : Ring) (x : Nat) : Nat := 64 * r.base + (if r.len = 0 then x else x % (64 * r.len))

/-- `w` bits from bit `pos` of a ring. -/
def ringBits (store : List Host.Cell) (r : Ring) (pos w : Nat) : Nat :=
  let lo := pos / 8
  let bs := (List.range ((pos + w + 7) / 8 - lo)).map fun i => rdByte store (ringByte r (lo + i))
  leNat bs / 2 ^ (pos % 8) % 2 ^ w

/-- Element `e` of row `i` in k-step `j` of a panel with `p` indices a step: its bits in the format. -/
def panelBits (store : List Host.Cell) (main side : Ring) (f p j i e : Nat) : Nat :=
  if f = 2 then
    ringBits store main (16 * (p * (32 * j + i) + e)) 16 * 2 ^ 16 + ringBits store side (3 * (p * (32 * j + i) + e)) 3 * 2 ^ 13
  else ringBits store main (fmtBits f * (p * (32 * j + i) + e)) (fmtBits f)

/-- That element as a number, with its block scale: one byte a row for each group of indices, `g` (R107, R136). -/
def panelNum (store : List Host.Cell) (main side : Ring) (f : Nat) (scaled : Bool) (g : Nat × Nat) (p j i e : Nat) : Num :=
  let x := decodeNum f (panelBits store main side f p j i e)
  if scaled then scaleNum f (rdByte store (ringByte side (32 * scaleGroup g (j * p + e) + i))).toNat x else x

/-- The cells of a pass that compute (R91), as (m, n). -/
def passCells (p : PassFields) : List (Nat × Nat) :=
  (List.range p.mExt).flatMap fun m => (List.range p.nExt).map fun n => (m, n)

/-- Where a cell's bank lies in `Tile.bankBits`. -/
def bankKey (bank m n : Nat) : Nat := bank * 1024 + 32 * m + n

/-- Flags raised by a cell noted for its output's flag plane. -/
def notePlane (l : List (Nat × Nat)) (m n fl : Nat) : List (Nat × Nat) :=
  smSet 0 (32 * m + n) (smGet 0 (32 * m + n) l ||| fl) l

/-- One cell's part of a pass's first wavefront: its bank at the initial value (R98, R93). -/
def initCell (store : List Host.Cell) (q : Pass) (x : List (Nat × BitVec 64) × Pass) (c : Nat × Nat) :
    List (Nat × BitVec 64) × Pass :=
  let p := q.fields
  let o := passOp p
  let f := p.biasFmt.toNat
  let r := if p.bias then
      biasBits o (decodeNum f (ringBits store ⟨p.biasBase, 0⟩ (fmtBits f * (32 * c.1 + c.2)) (fmtBits f)))
    else (identityBits o, 0)
  (smSet 0 (bankKey q.bank c.1 c.2) (BitVec.ofNat 64 r.1) x.1,
   { x.2 with summary := x.2.summary.merge (flagsAt r.2 0 0 c.1 c.2), planes := notePlane x.2.planes c.1 c.2 r.2 })

/-- One cell's part of k-step `j`; the last k-step holds what the k-block leaves over. -/
def stepCell (store : List Host.Cell) (q : Pass) (j : Nat) (x : List (Nat × BitVec 64) × Pass) (c : Nat × Nat) :
    List (Nat × BitVec 64) × Pass :=
  let p := q.fields
  let n := passRate p
  let ts := ((List.range n).filter fun e => decide (j * n + e < q.kLen)).map fun e =>
    (j * n + e, panelNum store p.aRing p.aSide p.aFmt.toNat p.aScaled q.aGroups n j c.1 e,
      panelNum store p.bRing p.bSide p.bFmt.toNat p.bScaled q.bGroups n j c.2 e)
  let r := cellStep (passOp p) p.kOrigin.toNat (smGet 0 (bankKey q.bank c.1 c.2) x.1).toNat ts
  (smSet 0 (bankKey q.bank c.1 c.2) (BitVec.ofNat 64 r.1) x.1,
   { x.2 with
      summary := r.2.foldl (fun m f => m.merge (flagsAt f.2 0 f.1 c.1 c.2)) x.2.summary
      planes := r.2.foldl (fun l f => notePlane l c.1 c.2 f.2) x.2.planes })

/-! Issue and k-steps. -/

/-- A unit's pass may issue (R102, R174): it is the first of its thread that has not, its descriptor's attempt goes on, its
output area is free, apart from every ring that holds data, and the bytes of its first k-step are present. -/
def passReady (s : State) (y : Tile) (u : BuiltUnit) : Bool :=
  let first := (y.units.find? fun v => v.owner == u.owner && v.pass.isSome && !v.issued).map (·.no)
  u.pass.isSome && !u.issued && first == some u.no &&
    (match findDesc s u.owner with
      | some (_, _, r) => r.phase == .running && r.code == 0 && !r.preempted
      | none => false) &&
    (u.outs.all fun o => ((heldAreas y ++ y.units.flatMap fun v => v.fills.flatMap Fill.spans).all fun a =>
      !rangesMeet o.2 a)) &&
    u.fills.all fun f => f.present 0

/-- The unit whose pass issues next: threads in rotation after the last that was served (R102). -/
def nextPass (s : State) (y : Tile) : Option BuiltUnit :=
  let l := y.threads.map (·.1)
  let i := match y.lastThread with
    | some d => l.findIdx (· == d) + 1
    | none => 0
  (l.drop i ++ l.take i).findSome? fun d => y.units.find? fun u => u.owner == d && passReady s y u

/-- PASS_ISSUE (R98, R102, R174): at a pass boundary, with no pre-emption asked for. -/
def opPassIssue (t : Nat) (s : State) : State :=
  let x := getTile s t
  if x.preempt ∨ (x.passes.any fun q => q.tLast.isNone) then s
  else match nextPass s x with
  | none => s
  | some u => match u.pass with
    | none => s
    | some p =>
      let bank := x.issuedPasses % 2
      let s := setTile s t { x with
        passes := x.passes ++ [{ p with bank := bank }], issuedPasses := x.issuedPasses + 1, lastThread := some u.owner
        units := x.units.map fun v => if v.no = u.no then { v with issued := true } else v }
      setReg (set64 s (tileR t 0x40) (passLast p.fields bank)) (tileR t 0x48) p.fields.kOrigin

/-- A 64-bit counter raised by one, wrapping at 2^64. -/
def count64 (s : State) (off : Nat) : State := set64 s off ((get64 s off + 1) % 2 ^ 64)

/-- A throttle stall cycle of a tile (R464): loop tiles are never throttled. -/
def throttledNow (s : State) (t : Nat) : Bool :=
  tileState s t != 1 && decide (s.cycle % 16 < getf s Reg.throttle 31 28)

/-- A stall cycle: every later time of the passes in the array moves by one, a drain's under a throttle stall too
(R101). -/
def stallPasses (throttle : Bool) (l : List Pass) : List Pass :=
  l.map fun q =>
    if q.drainStart.isSome then (if throttle then { q with drainShift := q.drainShift + 1 } else q)
    else if q.tLast.isSome then { q with shift := q.shift + 1 }
    else q

/-- A core cycle that the throttle takes from a tile's array and drain (R101, R464): counted where they hold a pass. -/
def throttleTile (s : State) (t : Nat) : State :=
  let x := getTile s t
  if x.passes = [] ∨ !throttledNow s t then s
  else
    let now := s.cycle
    count64 (setTile s t { x with passes := stallPasses true x.passes, arrayNext := max x.arrayNext now + 1 }) (tileR t 0x68)

/-- The core cycle's throttle stalls on every tile. -/
def throttleAll (s : State) : State := (s.tiles.map (·.1)).foldl throttleTile s

/-- The pass whose first k-step would enter is held by the pass two before it (R100). -/
def passHeld (s : State) (x : Tile) (q : Pass) : Bool :=
  q.t0.isNone && ((x.passes.any fun y => y.tLast.isSome && y.bank == q.bank) ||
    (decide (s.cycle < x.lastDrainEnd) && decide ((x.issuedPasses - x.passes.length - 1) % 2 = q.bank)))

/-- The bytes of a pass's next k-step are present in its rings (R174). A pass whose descriptor's attempt has ended waits for
nothing: its contexts are gone, and it runs to the end of its drain (R102). -/
def stepPresent (x : Tile) (q : Pass) : Bool :=
  ((x.units.find? fun u => u.no == q.no).map fun u => u.fills.all fun f => f.present q.entered).getD true

/-- Corrected words of tile store counted (R103). -/
def storeEcc (s : State) (t n : Nat) : State := if n = 0 then s else countUpBy s (tileR t 0x90) 31 0 n

/-- The element of a slot that an array cycle reads, by its place among those of the k-step. -/
def stepElem (x : Tile) (q : Pass) (slot at_ : Nat) : Option Elem :=
  ((x.units.find? fun u => u.no == q.no).bind fun u => u.fills.find? fun f => f.slot == slot).bind fun f =>
    ((f.places.filter fun p => decide (p.first ≤ q.entered) && decide (q.entered ≤ p.last))[at_]?).map Place.elem

/-- The k-step of a pass with a word that was not delivered (R103): the descriptor fails, with the handle and byte offset of
the element in it, and what the cells and the summary make of the k-step is free. -/
def badStep (s : State) (t : Nat) (before after : Pass) (e : Option Elem) : State :=
  let s := markFail s after.owner 0x0C03 ((e.map (·.handle)).getD 0) ((e.map Elem.lo).getD 0)
  let n := s.free
  let q := { after with summary := before.summary.merge (flagsOnly (Config.freeNat n % 64)), planes := before.planes }
  let s := modTile s t fun x => { x with
    passes := x.passes.map fun y => if y.no = q.no then q else y
    bankBits := (passCells q.fields).foldl (fun b c =>
      smSet 0 (bankKey q.bank c.1 c.2) (BitVec.ofNat 64 (Config.freeNat (n + 1 + 32 * c.1 + c.2))) b) x.bankBits }
  { s with free := n + 1025 }

/-- K_STEP_ENTRY: one array cycle (R99 to R101, R103, R174): a hold or an operand stall counted, or the next k-step taken.
`corrected` words of its reads were repaired; `bad` names the slot and the element of the k-step in an uncorrectable one. -/
def opKStepEntry (t corrected : Nat) (bad : Option (Nat × Nat)) (s : State) : State :=
  let x := getTile s t
  match x.passes.find? fun q => q.tLast.isNone with
  | none => s
  | some q =>
    if s.cycle < x.arrayNext ∨ throttledNow s t then s
    else
      let now := s.cycle
      if passHeld s x q then count64 (setTile s t { x with arrayNext := now + 1 }) (tileR t 0x60)
      else if !stepPresent x q then
        count64 (setTile s t { x with passes := stallPasses false x.passes, arrayNext := now + 1 }) (tileR t 0x58)
      else
        let cells := passCells q.fields
        let start := if q.t0.isNone then cells.foldl (initCell x.store q) (x.bankBits, q) else (x.bankBits, q)
        let r := if q.fields.kSteps = 0 then start else cells.foldl (stepCell x.store q q.entered) start
        let done := decide (max 1 q.fields.kSteps ≤ q.entered + 1)
        let q' := { r.2 with t0 := some (q.t0.getD now), entered := q.entered + 1,
                             tLast := if done then some now else none }
        let ps := x.passes.map fun y => if y.no = q.no then q' else y
        let s' := setTile s t { x with
          passes := ps, bankBits := r.1, arrayNext := now + (if q.fields.kSteps = 0 then 1 else stepCycles q.fields)
          units := if done then x.units.filter fun u => u.no != q.no else x.units }
        let s' := storeEcc s' t corrected
        match bad with
        | some b => badStep s' t q q' (stepElem x q b.1 b.2)
        | none => s'

/-! Drains. -/

/-- The first cycle in which a pass may start to drain (R99). -/
def drainFrom (x : Tile) (q : Pass) : Nat :=
  max (q.tLast.getD 0 + 62 + passLatency q.fields + 1 + q.shift) x.lastDrainEnd

/-- PASS_DRAIN_START (R99): drains run one at a time, in pass order. -/
def opPassDrainStart (t : Nat) (s : State) : State :=
  let x := getTile s t
  match x.passes with
  | q :: rest =>
    if q.tLast.isSome ∧ q.drainStart.isNone ∧ drainFrom x q ≤ s.cycle ∧ !throttledNow s t then
      setTile s t { x with passes := { q with drainStart := some s.cycle } :: rest }
    else s
  | [] => s

/-- The output area of a drained pass (R92): where each block begins and the bytes it puts there. -/
structure DrainOut where
  store : List Host.Cell
  summary : Summary
  deriving DecidableEq, Repr

/-- Bits stored into a byte memory, the neighbours in shared bytes kept. -/
def putBits (m : List Host.Cell) (base pos w v : Nat) : List Host.Cell :=
  let lo := base + pos / 8
  let n := (pos % 8 + w + 7) / 8
  wrNat m lo n (putFld (rdNat m lo n) (pos % 8 + w - 1) (pos % 8) v)

/-- The drain of a pass (R92, R236). A pass that is not the root of its outputs keeps its accumulators for the combines:
nothing is converted and the manual gives its output area no contents. -/
def drainPass (x : Tile) (q : Pass) : DrainOut :=
  let p := q.fields
  let o := passOp p
  if !p.root then ⟨x.store, q.summary⟩
  else
    let f := p.outFmt.toNat
    let base := 64 * p.outBase
    let cells := passCells p
    let out := cells.foldl (fun (a : DrainOut) c =>
      let bits := (smGet 0 (bankKey q.bank c.1 c.2) x.bankBits).toNat
      let r := convert f o.inf (accNum o bits)
      let i := 32 * c.1 + c.2
      let m := putBits a.store base (fmtBits f * i) (fmtBits f) r.1
      let m := if isCmp o.sem then putBits m (base + valueBlock p) (32 * i) 32 (bits / 2 ^ 32) else m
      let m := if p.flagPlane then
          putBits m (base + valueBlock p + indexBlock p) (4 * i) 4 (planeBits (smGet 0 i q.planes ||| r.2))
        else m
      ⟨m, a.summary.merge (flagsDrain r.2 0 c.1 c.2)⟩) ⟨x.store, q.summary⟩
    let top := panelMax (cells.map fun c => accNum o (smGet 0 (bankKey q.bank c.1 c.2) x.bankBits).toNat)
    if p.panelMax ∧ cells ≠ [] then
      { out with store := wrNat out.store (base + valueBlock p + indexBlock p + planeBlock p) 4 top }
    else out

/-- The exception counters and interrupt bits of a drained pass (R76, R122). -/
def countFlags (s : State) (t fl : Nat) : State :=
  let s := (List.range 6).foldl (fun s i => if fl.testBit i then countUp s (tileR t (0x10 + 4 * i)) 31 0 else s) s
  let set := fl % 64 &&& getf s (tileR t 0x2C) 5 0
  risen 0 (261 + tileDie t) (dieCond (tileDie t)) (fun s => setf s (tileR t 0x30) 5 0 (getf s (tileR t 0x30) 5 0 ||| set)) s

/-- The cycle after a drain that began in cycle `b` (R99): the drain lasts D cycles, none where the pass writes nothing. -/
def drainOver (q : Pass) (b : Nat) : Nat := b + drainCycles q.fields + q.drainShift

/-- The output area of a drained pass, to be read out while its descriptor's attempt goes on (R174). -/
def drainedAreas (s : State) (q : Pass) : List OutArea :=
  match findDesc s q.owner with
  | some (_, _, r) => if r.going then (passOuts q.fields).map fun o => ⟨q.owner, q.no, o.1, o.2.1, o.2.2, 0, []⟩ else []
  | none => []

/-- PASS_DRAIN_END (R92, R98, R99, R122, R174). -/
def opPassDrainEnd (t : Nat) (s : State) : State :=
  let x := getTile s t
  match x.passes with
  | q :: rest =>
    match q.drainStart with
    | some b =>
      if s.cycle + 1 < drainOver q b ∨ (drainCycles q.fields ≠ 0 ∧ throttledNow s t) then s
      else
        let out := drainPass x q
        let fl := out.summary.flags
        let s := setTile s t { x with passes := rest, store := out.store, lastDrainEnd := drainOver q b,
                                      excStamp := some (s.cycle, fl), outputs := x.outputs ++ drainedAreas s q }
        let s := set64 s (tileR t 8) (summaryWord out.summary)
        countFlags (count64 s (tileR t 0x50)) t fl
    | none => s
  | [] => s

/-- Flags that a drain of this tile counted in the present core cycle (R122). -/
def flagsNow (s : State) (t : Nat) : Nat :=
  match (getTile s t).excStamp with
  | some (c, fl) => if c = s.cycle then fl else 0
  | none => 0

/-- TILE_EXC_CLEAR (R122): a counter that a pass raises in the same cycle ends at 1. -/
def opTileExcClear (t : Nat) (val : Word) (s : State) : State :=
  (List.range 6).foldl (fun s i =>
    if val.getLsbD i then setReg s (tileR t (0x10 + 4 * i)) (if (flagsNow s t).testBit i then 1 else 0) else s) s

/-! Pre-emption (R102, R225, R227). -/

/-- PREEMPTION_REQUEST: its tiles issue no further pass, and the descriptor's state is saved with it. Almanac 0 is never
pre-empted. -/
def opPreemptionRequest (t : Nat) (d : DescRef) (s : State) : State :=
  match findDesc s d with
  | some (_, _, r) =>
    if r.phase ≠ .running ∨ r.preempted ∨ d.alm = 0 ∨ !r.tiles.contains t then s
    else
      let now := s.cycle
      let s := modRun s d fun r => { r with preempted := true, stallElapsed := r.stallElapsed + (now - r.stallFrom) }
      r.tiles.foldl (fun s u => modTile s u fun x => { x with preempt := true }) s
  | none => s

/-- PREEMPTION_RESUME: on one of its tiles or on another that takes it; releases that came meanwhile are applied. -/
def opPreemptionResume (t : Nat) (d : DescRef) (s : State) : State :=
  match findDesc s d with
  | some (sb, x, r) =>
    let need := contextNeed sb x
    if !r.preempted ∨ !(r.tiles.contains t || tileTakes s x t need) then s
    else
      let now := s.cycle
      let s := r.tiles.foldl (fun s u => modTile s u fun y => { y with preempt := false }) s
      let s := if r.tiles.contains t then s else
        takeThread (modRun (dropThreads s d r.tiles) d fun r => { r with tiles := [t], unitsPlaced := [] }) d t need
      let s := modRun s d fun r => { r with preempted := false, stallFrom := now }
      if r.barReleased then freeWaiter s d else toCommit s d
  | none => s

/-- PASS_ISSUE. -/
def execPassIssue (t : TileIx) (s : State) : Host.Outcome State Fault Refusal := .next (opPassIssue t.val s)
/-- K_STEP_ENTRY. -/
def execKStepEntry (t : TileIx) (corrected : Nat) (bad : Option (Nat × Nat)) (s : State) : Host.Outcome State Fault Refusal :=
  .next (opKStepEntry t.val corrected bad s)
/-- PASS_DRAIN_START. -/
def execPassDrainStart (t : TileIx) (s : State) : Host.Outcome State Fault Refusal := .next (opPassDrainStart t.val s)
/-- PASS_DRAIN_END. -/
def execPassDrainEnd (t : TileIx) (s : State) : Host.Outcome State Fault Refusal := .next (opPassDrainEnd t.val s)
/-- PREEMPTION_REQUEST. -/
def execPreemptionRequest (t : TileIx) (d : DescRef) (s : State) : Host.Outcome State Fault Refusal :=
  .next (opPreemptionRequest t.val d s)
/-- PREEMPTION_RESUME. -/
def execPreemptionResume (t : TileIx) (d : DescRef) (s : State) : Host.Outcome State Fault Refusal :=
  .next (opPreemptionResume t.val d s)
/-- TILE_EXC_CLEAR. -/
def execTileExcClear (t : TileIx) (val : Word) (s : State) : Host.Outcome State Fault Refusal :=
  .next (opTileExcClear t.val val s)

end Sys2Proof.Machine
end

