-- ==== Sys2Proof/Machine/Image.lean ====
section
/-!
DEFINITION. Configuration images (R364 to R374): the header, sections, frame blocks, declarations and front-end programs of
the image in the staging area, and the checks on each.
-/
namespace Sys2Proof.Machine
open Sys2Proof

/-- A failing check: its code and what CFG_DETAIL names (R375). -/
abbrev Bad := Option (Nat × Nat)

/-- A failure where a condition holds. -/
def badIf (b : Bool) (code detail : Nat) : Bad := if b then some (code, detail) else none

/-- The first failure of a list. -/
def firstBadOf : List Bad → Bad
  | [] => none
  | some x :: _ => some x
  | none :: t => firstBadOf t

/-- Bytes of near store as one little-endian number. -/
abbrev Img := List Host.Cell

/-! The header (R364). -/

/-- The 8 bytes of MAGIC. -/
def magic : Nat := 0x314746434C4F5543
/-- KIND. -/
def iKind (g : Img) : Nat := rdNat g 0x0A 1
/-- KEY_SLOT. -/
def iKeySlot (g : Img) : Nat := rdNat g 0x0B 1
/-- SECTION_COUNT. -/
def iSections (g : Img) : Nat := rdNat g 0x0C 2
/-- PLOT. -/
def iPlot (g : Img) : Nat := rdNat g 0x0F 1
/-- IMAGE_BYTES. -/
def iBytes (g : Img) : Nat := rdNat g 0x10 4
/-- FRAME_COUNT. -/
def iFrames (g : Img) : Nat := rdNat g 0x14 4
/-- SERIAL. -/
def iSerial (g : Img) : Nat := rdNat g 0x20 8
/-- BUILD_TAG. -/
def iTag (g : Img) : Nat := rdNat g 0x28 8
/-- BASE_TAG. -/
def iBase (g : Img) : Nat := rdNat g 0x30 8
/-- LOAD_PULL. -/
def iPull (g : Img) : Nat := rdNat g 0x38 4

/-- The largest image (R361). -/
def maxImage : Nat := 267386880

/-- A section: type, length and offset (R365). -/
structure Section where
  type : Nat
  len : Nat
  off : Nat
  deriving DecidableEq, Repr

/-- Section entry `i`. -/
def sectionAt (g : Img) (i : Nat) : Section :=
  ⟨rdNat g (0x40 + 16 * i) 2, rdNat g (0x44 + 16 * i) 4, rdNat g (0x48 + 16 * i) 8⟩

/-- The sections of an image. -/
def sectionsOf (g : Img) : List Section := (List.range (min 12 (iSections g))).map (sectionAt g)

/-- The section of a type, where the image has one. -/
def findSection (g : Img) (t : Nat) : Option Section := (sectionsOf g).find? fun x => x.type == t

/-- The first multiple of 256 at or after a byte. -/
def up256 (n : Nat) : Nat := ceilDiv n 256 * 256

/-- Where the signature starts: the first multiple of 256 after the last section's end. -/
def sigStart (g : Img) : Nat := up256 ((sectionsOf g).foldl (fun m x => max m (x.off + x.len)) 0)

/-- Two sections share a byte. -/
def sectionsMeet (a b : Section) : Bool := decide (a.off < b.off + b.len) && decide (b.off < a.off + a.len)

/-- The section table's own rules (R365). -/
def sectionTable (g : Img) : List Bad :=
  let l := sectionsOf g
  let count := fun t => (l.filter fun x => x.type == t).length
  let full := iKind g == 1
  ((List.range 12).map fun i =>
    let at_ := 0x40 + 16 * i
    let x := sectionAt g i
    if l.length ≤ i then badIf (rdNat g at_ 16 != 0) 0x0B06 at_
    else badIf (rdNat g (at_ + 2) 2 != 0 || x.type == 0 || decide (4 < x.type) || (x.type == 4 && !full) ||
      x.off % 256 != 0 || decide (x.off < 256) ||
      (List.range i).any fun j => sectionsMeet (sectionAt g j) x || (sectionAt g j).type == x.type) 0x0B06 at_) ++
  [badIf (count 1 != 1 || count 2 != 1) 0x0B06 0x40, badIf (iBytes g != sigStart g + 512) 0x0B06 0x10]

/-- Checks 1 to 3 (R375): `kinds` are the kinds that suit the command. -/
def checkHeader (s : State) (g : Img) (staged : Nat) (kinds : List Nat) : Bad :=
  let full := iKind g == 1
  let fmt := fun b at_ => badIf b 0x0B06 at_
  firstBadOf
    ([ badIf (rdNat g 0 8 != magic) 0x0B01 0
     , fmt (rdNat g 8 2 != 1) 0x08
     , fmt (!kinds.contains (iKind g)) 0x0A
     , fmt (decide (3 < iKeySlot g)) 0x0B
     , fmt (decide (iSections g < 2) || decide (12 < iSections g)) 0x0C
     , fmt (rdNat g 0x0E 1 != 0) 0x0E
     , fmt (if full then iPlot g != 0xFF else decide (31 < iPlot g)) 0x0F
     , fmt (decide (maxImage < iBytes g) || decide (staged < iBytes g)) 0x10
     , fmt (iFrames g == 0 || decide ((if full then 503808 else 14336) < iFrames g)) 0x14
     , fmt (rdNat g 0x1C 4 != 0) 0x1C
     , fmt (full && iBase g != 0) 0x30
     , fmt (if full then decide (2 ^ 24 ≤ iPull g) || (List.range 12).any fun b => fld (iPull g) (2 * b + 1) (2 * b) == 3
         else iPull g != 0) 0x38
     , fmt (rdNat g 0x3C 4 != 0) 0x3C ] ++ sectionTable g ++
     [ badIf (rdNat g 0x18 4 != 0xB1520001) 0x0B02 0
     , badIf (iSerial g != 0 && iSerial g != Config.serial.toNat) 0x0B02 0
     , badIf (!full && iBase g != get64 s Reg.imageTag) 0x0B02 0 ])

/-! Frame blocks (R366, R367). -/

/-- A block: its head's byte offset, first frame address, count and CRC, and whether its reserved fields are 0. -/
structure Block where
  head : Nat
  addr : Nat
  count : Nat
  crc : Nat
  clean : Bool
  deriving DecidableEq, Repr

/-- The block whose head stands at a byte. -/
def blockAt (g : Img) (o : Nat) : Block :=
  ⟨o, rdNat g o 4 % 2 ^ 20, rdNat g (o + 4) 4, rdNat g (o + 8) 4, rdNat g o 4 < 2 ^ 20 && rdNat g (o + 12) 4 == 0⟩

/-- Frames in a block are 1 to 16,384. -/
def Block.sized (b : Block) : Bool := decide (1 ≤ b.count ∧ b.count ≤ 16384)

/-- The blocks of a section in order, as far as they can be told apart, and the byte at which they end. -/
def blocksFrom (g : Img) (stop : Nat) : Nat → Nat → List Block × Nat
  | 0, o => ([], o)
  | n + 1, o =>
    if stop < o + 16 then ([], o)
    else
      let b := blockAt g o
      if !b.sized ∨ stop < o + 16 + 256 * b.count then ([b], o)
      else
        let r := blocksFrom g stop n (o + 16 + 256 * b.count)
        (b :: r.1, r.2)

/-- The blocks of a section of a type. -/
def blocksOf (g : Img) (t : Nat) : List Block × Bool :=
  match findSection g t with
  | some x =>
    let r := blocksFrom g (x.off + x.len) (x.len / 272 + 1) x.off
    (r.1, r.2 == x.off + x.len)
  | none => ([], true)

/-- Bytes of frame `i` of a block. -/
def frameData (g : Img) (b : Block) (i : Nat) : Nat := rdNat g (b.head + 16 + 256 * i) 256

/-- Check 5 (R375): the CRC of every block that the frame section holds whole. -/
def checkCrc (g : Img) : Bad :=
  let stop := match findSection g 2 with
    | some x => x.off + x.len
    | none => 0
  firstBadOf ((blocksOf g 2).1.map fun b =>
    badIf (b.sized && decide (b.head + 16 + 256 * b.count ≤ stop) &&
      crc32c (rdBytes g (b.head + 16) (256 * b.count)) != b.crc) 0x0B07 b.addr)

/-- Frame indices of a site value: a plot's, the static region's, or none (R327). -/
def siteFrames (site : Nat) : Nat := if site = 63 then 16384 else if site ≤ 33 then 14336 else 0

/-- Two blocks hold one frame. -/
def blocksMeet (a b : Block) : Bool := decide (a.addr < b.addr + b.count) && decide (b.addr < a.addr + a.count)

/-- The rules of one block among those before it. -/
def blockBad (before : List Block) (b : Block) : Bad :=
  let site := b.addr / 2 ^ 14
  firstBadOf
    [ badIf (!b.clean || !b.sized) 0x0B06 b.addr
    , badIf (decide (32 ≤ site ∧ site ≤ 62)) 0x0B05 b.addr
    , badIf (decide ((if site = 63 then 16384 else 14336) < b.addr % 2 ^ 14 + b.count)) 0x0B06 b.addr
    , badIf (before.any fun a => blocksMeet a b) 0x0B06 b.addr ]

/-- The rules of a section of blocks; `total`: the sum its counts give, where one is laid down. -/
def blocksBad (r : List Block × Bool) (total : Option Nat) : Bad :=
  let last := match r.1.getLast? with
    | some b => b.addr
    | none => 0
  firstBadOf ((r.1.mapIdx fun i b => blockBad (r.1.take i) b) ++
    [ badIf (!r.2) 0x0B06 last
    , badIf (match total with | some n => r.1.foldl (fun x b => x + b.count) 0 != n | none => false) 0x0B06 last ])

/-- Check 7 (R366, R367). -/
def checkBlocks (g : Img) : Bad :=
  firstBadOf [blocksBad (blocksOf g 2) (some (iFrames g)), blocksBad (blocksOf g 3) none]

/-- Check 8 (R375): a partial image stays in its plot, which is the command's. -/
def checkRegion (g : Img) (plot : Option Nat) : Bad :=
  if iKind g ≠ 2 then none
  else
    let p := iPlot g
    firstBadOf
      (((blocksOf g 2).1 ++ (blocksOf g 3).1).map (fun b => badIf (b.addr / 2 ^ 14 != p) 0x0B05 b.addr) ++
       [badIf (match plot with | some q => q != p | none => false) 0x0B05 (p * 2 ^ 14)])

/-- Every frame an image carries: address and contents. -/
def carried (g : Img) : List (Nat × Nat) :=
  (blocksOf g 2).1.flatMap fun b => (List.range b.count).map fun i => (b.addr + i, frameData g b i)

/-- The masks an image carries. -/
def carriedMasks (g : Img) : List (Nat × Nat) :=
  (blocksOf g 3).1.flatMap fun b => (List.range b.count).map fun i => (b.addr + i, frameData g b i)

/-- The kind of frame whose multiplexers lie at an address: all sites are alike (R326). -/
def frameKind (a : Nat) : Nat := if a / 2 ^ 14 = 63 then a else a % 2 ^ 14

/-- Some multiplexer select of a frame lies outside its inputs (R332). -/
def selectBad (a data : Nat) : Bool :=
  let k := frameKind a
  (List.range (Config.muxCount k)).any fun m =>
    decide (Config.muxInputs k m < data / 2 ^ Config.muxLow k m % 2 ^ Config.muxWidth k m)

/-- Check 9 (R332). -/
def checkRoutes (g : Img) : Bad := firstBadOf ((carried g).map fun f => badIf (selectBad f.1 f.2) 0x0A03 f.1)

/-! Declarations (R368 to R372). -/

/-- A standard that a bank's declared VIO allows (R335): 1 1.2 V, 2 1.5 V, 3 1.8 V. -/
def stdAllowed (vio std : Nat) : Bool :=
  if vio = 3 then [0x01, 0x04, 0x07, 0x0A, 0x0B, 0x0C].contains std
  else if vio = 2 then [0x02, 0x05, 0x08, 0x0A, 0x0D].contains std
  else if vio = 1 then [0x03, 0x06, 0x09, 0x0A, 0x0E].contains std
  else false

/-- A DRIVE that R335 lists. -/
def driveAllowed (std drive : Nat) : Bool :=
  if std = 1 then drive == 4 || drive == 8 || drive == 12
  else if std = 2 ∨ std = 3 then drive == 4 || drive == 8
  else drive == 0

/-- A differential standard. -/
def isDiff (std : Nat) : Bool := decide (0x0A ≤ std ∧ std ≤ 0x0E)

/-- A pin's settings break R369: `pair`: pin 2i + 1 has the owner and no standard. -/
def pinBad (vio pin std drive : Nat) (term pair : Bool) : Bool :=
  (std != 0 && !stdAllowed vio std) || !driveAllowed std drive || (term && std != 0x0A) ||
    (isDiff std && (pin % 2 != 0 || !pair))

/-- `n` little-endian bytes of a list of bytes. -/
def declNat (l : List Byte) (off n : Nat) : Nat := leNat ((l.drop off).take n)

/-- Pin entry `i` of a full declaration. -/
def dPinEntry (l : List Byte) (i : Nat) : Nat := declNat l (0x90 + 4 * i) 4

/-- BANK_VIO of a pin's bank. -/
def dPinVio (l : List Byte) (i : Nat) : Nat := declNat l (i / 24) 1

/-- A clock source's own limits (R370). -/
def clockBad (w : Nat) (kinds : List Nat) : Bool :=
  let k := fld w 7 0
  let sel := fld w 15 8
  let sub := fld w 23 16
  !kinds.contains k || decide (2 ^ 24 ≤ w) ||
    ((k == 1 || k == 2) && (decide (11 < sel) || (sub != 0 && sub != 2))) || (k == 3 && (decide (3 < sel) || decide (3 < sub)))

/-- A clock pin that the static design does not own. -/
def clockClaim (l : List Byte) (w : Nat) : Bool :=
  let k := fld w 7 0
  let pin := 24 * fld w 15 8 + fld w 23 16
  let foreign := fun i => fld (dPinEntry l i) 7 0 != 0x3F
  (k == 1 && foreign pin) || (k == 2 && (foreign pin || foreign (pin + 1)))

/-- A PLL entry's limits (R370); an entry of zeros is an unused PLL. Only CLK_REF250 gives its frequency in the image. -/
def pllBad (l : List Byte) (o : Nat) : Bool :=
  let ref := declNat l o 4
  let mult := declNat l (o + 4) 2
  let div := declNat l (o + 6) 2
  let outs := (List.range 4).map fun i => declNat l (o + 8 + i) 1
  if declNat l o 16 = 0 then false
  else
    clockBad ref [1, 2, 4, 5] || decide (mult < 4) || decide (200 < mult) || div == 0 || decide (32 < div) ||
      (outs.any fun d => decide (128 < d)) || declNat l (o + 12) 4 != 0 ||
      (fld ref 7 0 == 4 && (decide (250 * mult < 1200 * div) || decide (2400 * div < 250 * mult) ||
        outs.any fun d => d != 0 && (decide (250 * mult < 10 * div * d) || decide (600 * div * d < 250 * mult))))

/-- Formats that share an accumulator with FP32 (R55, R56): FORMATS bits 2 to 8. -/
def narrowBits : List Nat := [2, 3, 4, 5, 6, 7, 8]

/-- The semiring accepts some declared format (R97). -/
def semiringServed (cap sem : Nat) : Bool :=
  let has := fun f => bitOf cap (31 + f)
  (narrowBits.any has) || has 9 || has 1 || (sem == 0 && has 10) || (!(sem == 5 || sem == 6) && has 0)

/-- A capability word with one of the faults of R351. -/
def capBad (cap user lat : Nat) : Bool :=
  let has := fun f => bitOf cap (31 + f)
  let mhz := fld cap 58 50
  decide (4 < fld cap 61 59) || mhz == 0 || decide (500 < mhz) ||
    ((List.range 7).any fun i => bitOf cap (43 + i) && !semiringServed cap i) ||
    ((narrowBits.any has) && !has 1) ||
    (bitOf cap 25 && !(bitOf cap 43 || bitOf cap 46 || bitOf cap 47)) ||
    decide (fld cap 14 8 < 8) || decide (64 < fld cap 14 8) ||
    user % 2 ^ 15 != 0 ||
    (bitOf cap 42 && (fld user 21 15 == 0 || !([0, 1, 9, 10].contains (fld user 21 18)) || decide (4 < fld user 17 15))) ||
    (List.range 8).any fun u => bitOf cap (15 + u) && fld lat (4 * u + 3) (4 * u) == 0

/-- A plot entry's faults (R351, R371); `at_`: its byte in the image. -/
def plotEntryBad (l : List Byte) (o at_ : Nat) : Bad :=
  let flags := declNat l o 4
  let user := declNat l (o + 4) 4
  let cap := declNat l (o + 8) 8
  let lat := declNat l (o + 16) 4
  let tile := bitOf flags 1
  firstBadOf
    [ badIf (decide (3 < flags) || declNat l (o + 20) 12 != 0 || (!tile && declNat l (o + 4) 16 != 0)) 0x0B06 at_
    , badIf (tile && capBad cap user lat) 0x0A05 at_ ]

/-- The park entries of a declaration. -/
def parksOf (l : List Byte) : List Nat := (List.range (declNat l 0x910 4)).map fun i => declNat l (0x918 + 4 * i) 4

/-- A park entry's faults among those before it (R371). -/
def parkBad (l : List Byte) (before : List Nat) (w at_ : Nat) : Bad :=
  let pos := fld w 23 8
  let plot := fld w 7 0
  let own := decide (pos < 576) && fld (dPinEntry l (pos / 2)) 7 0 == plot
  firstBadOf
    [ badIf (decide (2 ^ 26 ≤ w) || decide (31 < plot)) 0x0B06 at_
    , badIf (decide (4095 < pos) || (before.any fun v => v % 2 ^ 24 == w % 2 ^ 24) || (fld w 25 24 == 3 && !own)) 0x0A06 at_ ]

/-- A pin entry's faults in a full declaration. -/
def pinEntryBad (l : List Byte) (i at_ : Nat) : Bad :=
  let w := dPinEntry l i
  let own := fld w 7 0
  let mate := dPinEntry l (i + 1)
  firstBadOf
    [ badIf (!(decide (own ≤ 31) || own == 0x3F || own == 0xFF) || decide (2 ^ 23 ≤ w)) 0x0B06 at_
    , badIf (pinBad (dPinVio l i) (i % 24) (fld w 15 8) (fld w 19 16) (bitOf w 22)
        (fld mate 7 0 == own && fld mate 15 8 == 0)) 0x0A09 at_ ]

/-- Plots of which an image carries a frame. -/
def carriedPlots (g : Img) : List Nat := ((blocksOf g 2).1.map fun b => b.addr / 2 ^ 14).eraseDups

/-- A full image's declaration at byte `o` of the image (R368 to R371). -/
def declFull (g : Img) (l : List Byte) (o : Nat) : Bad :=
  firstBadOf
    ([ badIf (l.length != 0x918 + 4 * declNat l 0x910 4) 0x0B06 (o + 0x910)
     , badIf ((List.range 12).any fun b => decide (3 < declNat l b 1)) 0x0B06 o
     , badIf (declNat l 0x0C 4 != 0) 0x0B06 (o + 0x0C)
     , badIf (declNat l 0x914 4 != 0) 0x0B06 (o + 0x914) ] ++
     ((List.range 16).map fun t =>
       let w := declNat l (0x10 + 4 * t) 4
       firstBadOf [badIf (clockBad w [0, 1, 2, 3, 4, 5]) 0x0B06 (o + 0x10 + 4 * t),
         badIf (clockClaim l w) 0x0A04 (o + 0x10 + 4 * t)]) ++
     ((List.range 4).map fun i =>
       firstBadOf [badIf (pllBad l (0x50 + 16 * i)) 0x0B06 (o + 0x50 + 16 * i),
         badIf (clockClaim l (declNat l (0x50 + 16 * i) 4)) 0x0A04 (o + 0x50 + 16 * i)]) ++
     ((List.range 288).map fun i => pinEntryBad l i (o + 0x90 + 4 * i)) ++
     ((List.range 32).map fun p =>
       firstBadOf [plotEntryBad l (0x510 + 32 * p) (o + 0x510 + 32 * p),
         badIf (!bitOf (declNat l (0x510 + 32 * p) 1) 0 && (carriedPlots g).contains p) 0x0B06 (o + 0x510 + 32 * p)]) ++
     ((parksOf l).mapIdx fun i w => parkBad l ((parksOf l).take i) w (o + 0x918 + 4 * i)))

/-- A partial image's declaration against the loaded full image's, `full` (R372). -/
def declPartial (full l : List Byte) (p o : Nat) : Bad :=
  let pins := declNat l 0x20 2
  let poss := declNat l 0x22 2
  let stop := 0x28 + 4 * pins + 2 * poss
  let pinAt := fun i => declNat l (0x28 + 4 * i) 4
  let given := fun n => ((List.range pins).find? fun i => fld (pinAt i) 15 0 == n).map pinAt
  firstBadOf
    ([ badIf (l.length != ceilDiv stop 4 * 4 || declNat l stop (l.length - stop) != 0) 0x0B06 (o + 0x20)
     , plotEntryBad l 0 o
     , badIf (!bitOf (declNat l 0 1) 0) 0x0B06 o
     , badIf (declNat l 0x24 4 != 0) 0x0B06 (o + 0x24) ] ++
     ((List.range pins).map fun i =>
       let w := pinAt i
       let n := fld w 15 0
       let owner := fun k => if full = [] then 0xFF else fld (dPinEntry full k) 7 0
       let bare := match given (n + 1) with
         | some v => fld v 23 16 == 0
         | none => true
       firstBadOf
         [ badIf (bitOf w 31) 0x0B06 (o + 0x28 + 4 * i)
         , badIf (decide (288 ≤ n) || owner n != p) 0x0A04 (o + 0x28 + 4 * i)
         , badIf (pinBad (dPinVio full n) (n % 24) (fld w 23 16) (fld w 27 24) (bitOf w 30)
             (owner (n + 1) == p && bare)) 0x0A09 (o + 0x28 + 4 * i) ]) ++
     ((List.range poss).map fun i =>
       let pos := declNat l (0x28 + 4 * pins + 2 * i) 2
       badIf (!(parksOf full).any fun w => fld w 7 0 == p && fld w 23 8 == pos) 0x0A06 (o + 0x28 + 4 * pins + 2 * i)))

/-- Bytes of the declaration section, and where it lies. -/
def declOf (g : Img) : List Byte × Nat :=
  match findSection g 1 with
  | some x => (rdBytes g x.off x.len, x.off)
  | none => ([], 0)

/-- Check 10. -/
def checkDecl (s : State) (g : Img) : Bad :=
  let d := declOf g
  if iKind g = 1 then declFull g d.1 d.2 else declPartial s.cfg.declaration d.1 (iPlot g) d.2

/-! Front-end programs (R308, R373). -/

/-- An entry: port, instructions and initial X words. -/
structure FecEntry where
  port : Nat
  program : List Nat
  x : List Nat
  deriving DecidableEq, Repr

/-- An opcode that R307 assigns. -/
def fecOpcode (op : Nat) : Bool :=
  [0x00, 0x01, 0x02, 0x08, 0x09, 0x0A, 0x0B, 0x0C, 0x10, 0x11, 0x12, 0x13, 0x18, 0x19, 0x1A, 0x1B, 0x20, 0x21, 0x28, 0x29,
    0x2A].contains op

/-- OP of an instruction. -/
def fecOp (w : Nat) : Nat := fld w 47 42

/-- Instructions in a REP's body. -/
def repBody (w : Nat) : Nat := if fld w 21 16 = 0 then 64 else fld w 21 16

/-- A REP at `i` holds another REP in its body, or reaches past the END that follows it (R308). -/
def repBad (l : List Nat) (i w : Nat) : Bool :=
  let rest := l.drop (i + 1)
  let body := rest.take (repBody w)
  (body.any fun v => fecOp v == 2) || match rest.findIdx? fun v => fecOp v == 1 with
    | some e => decide (e + 1 < repBody w)
    | none => true

/-- A program that R308 refuses. -/
def programBad (l : List Nat) : Bool :=
  (l.any fun w => !fecOpcode (fecOp w) || fld w 29 24 != 0) || !(l.any fun w => fecOp w == 1) ||
    ((l.mapIdx fun i w => fecOp w == 2 && repBad l i w).any id)

/-- The entries of the FEC section, and whether they fill it in form; the port of the entry that does not. -/
def fecFrom (g : Img) (stop : Nat) : Nat → Nat → List FecEntry × Option Nat
  | 0, o => ([], if o = stop then none else some (rdNat g o 1))
  | n + 1, o =>
    if o = stop then ([], none)
    else
      let port := rdNat g o 1
      let len := rdNat g (o + 2) 2
      let xs := rdNat g (o + 4) 2
      let stop' := o + ceilDiv (8 + 6 * len + 4 * xs) 4 * 4
      if stop < o + 8 ∨ 7 < port ∨ rdNat g (o + 1) 1 ≠ 0 ∨ len = 0 ∨ 4096 < len ∨ 8192 < xs ∨ rdNat g (o + 6) 2 ≠ 0 ∨
          stop < stop' ∨ rdNat g (o + 8 + 6 * len + 4 * xs) (stop' - (o + 8 + 6 * len + 4 * xs)) ≠ 0 then ([], some port)
      else
        let r := fecFrom g stop n stop'
        (⟨port, (List.range len).map (fun i => rdNat g (o + 8 + 6 * i) 6),
          (List.range xs).map fun i => rdNat g (o + 8 + 6 * len + 4 * i) 4 % 2 ^ 24⟩ :: r.1, r.2)

/-- The front-end entries of an image. -/
def fecOf (g : Img) : List FecEntry × Option Nat :=
  match findSection g 4 with
  | some x => fecFrom g (x.off + x.len) 8 x.off
  | none => ([], none)

/-- Check 11 (R373). -/
def checkFec (g : Img) : Bad :=
  let r := fecOf g
  firstBadOf
    ((r.1.mapIdx fun i e => firstBadOf
      [ badIf ((r.1.take i).any fun x => x.port == e.port) 0x0B06 e.port
      , badIf (programBad e.program) 0x090A e.port ]) ++
     [match r.2 with | some p => some (0x0B06, p) | none => none])

/-! Verification (R375). -/

/-- Check 6 (R374). -/
def checkSignature (s : State) (g : Img) : Bad :=
  let n := iBytes g - 512
  match findKey s (iKeySlot g) with
  | some m => badIf (!rsaVerify m (rdBytes g 0 n) (rdBytes g n 512)) 0x0B03 n
  | none => none

/-- Checks 1 to 11 on a staged image, in order. -/
def verifyImage (s : State) (g : Img) (staged : Nat) (kinds : List Nat) (plot : Option Nat) : Bad :=
  match checkHeader s g staged kinds with
  | some b => some b
  | none => match badIf (findKey s (iKeySlot g)).isNone 0x0B04 0 with
    | some b => some b
    | none => match checkCrc g with
      | some b => some b
      | none => match checkSignature s g with
        | some b => some b
        | none => match checkBlocks g with
          | some b => some b
          | none => match checkRegion g plot with
            | some b => some b
            | none => match checkRoutes g with
              | some b => some b
              | none => match checkDecl s g with
                | some b => some b
                | none => checkFec g

end Sys2Proof.Machine
end

