-- ==== Sys2Proof/Machine/VectorEngine.lean ====
section
/-!
DEFINITION. The vector engine of a tile, one invocation and one instruction at a time (R108 to R120).
-/
namespace Sys2Proof.Machine
open Sys2Proof

/-- Instructions that the micro-program store holds (R108). -/
def veStoreSize : Nat := 512

/-- Resident programs, most recently used first, cut to what the store holds: whole programs go, least recently used
first (R108). -/
def keepResident : Nat → List (List Nat) → List (List Nat)
  | _, [] => []
  | room, w :: t => if w.length ≤ room then w :: keepResident (room - w.length) t else []

/-- A program used: loaded where it is not resident (R108). -/
def useProgram (l : List (List Nat)) (words : List Nat) : List (List Nat) :=
  keepResident veStoreSize (words :: l.filter (· != words))

/-- The base and extent of an operand in a unit's areas; none for an operand that the descriptor lacks. -/
def operandArea (x : BitVec 1024) (u : BuiltUnit) (k : Nat) : Nat × Nat :=
  match u.fills.find? fun f => f.slot == k with
  | some f => (f.ring.base, vecExtent x k)
  | none => (0, 0)

/-- VE_INVOCATION (R109): iteration `iter` of a running VEC descriptor on tile `t`, whose unit the sequencer has built there
and whose operands are present. One invocation runs at a time, and the next begins 4 cycles after it. -/
def opVeInvocation (t : Nat) (d : DescRef) (iter : Nat) (s : State) : State :=
  let y := getTile s t
  match findDesc s d, y.units.find? fun u => u.owner == d && u.unit == iter with
  | some (sb, x, r), some u =>
    if u.work ≠ .invocation ∨ u.issued ∨ r.phase ≠ .running ∨ r.code ≠ 0 ∨ r.preempted ∨ y.ve.running.isSome ∨
        s.cycle < y.ve.next ∨ !(u.fills.all Fill.full) then s
    else
      let wr := (List.range 3).filter fun k => sView x k != noView && bitOf (dFw x 0) (10 + k)
      let ve := veStart y.ve d iter ((List.range 3).map (operandArea x u)) wr (getb s (tileR t 0x80) 31)
      setTile s t { y with
        ve := { ve with resident := useProgram y.ve.resident (vecWords s sb x) }
        units := y.units.map fun v => if v.no = u.no then { v with issued := true } else v }
  | _, _ => s

/-- An invocation that has ended or stopped: its unit goes, and where it ended its operands with WRITE are read out. -/
def endInvocation (s : State) (t : Nat) (ended : Bool) : State :=
  let now := s.cycle
  modTile s t fun y => match y.units.find? fun u => u.work == .invocation && u.issued with
    | some u => { y with
        units := y.units.filter fun v => v.no != u.no
        outputs := y.outputs ++ if ended then u.outs.map fun o => ⟨u.owner, u.no, o.1, o.2.1, o.2.2, 0, []⟩ else []
        ve := { y.ve with next := now + 4 } }
    | none => y

/-- An instruction issued on a tile whose engine runs (R110): the engine and the tile store after it; a trap of the
hazard checker (R120) or an access out of bounds (R119) stops the invocation and fails the descriptor; an END merges the
invocation's flags (R112). -/
def veStep (t : Nat) (a : VeAction) (s : State) : State :=
  let x := getTile s t
  match x.ve.running with
  | none => s
  | some (d, _) =>
    let r := veIssue x.ve x.store a
    let s := setTile s t { x with ve := r.1, store := r.2.1 }
    match r.2.2 with
    | .ok => s
    | .ended => modRun (endInvocation s t true) d fun q =>
        if q.going then { q with summary := q.summary.merge (flagsOnly r.1.flags) } else q
    | .trap kind reg mask early => markFail (recordTrap (endInvocation s t false) t r.1.pc kind reg mask early) d 0x0202 0 0
    | .bounds => markFail (endInvocation s t false) d 0x0203 0 0

/-- The element of the running invocation's operands that a granule of tile store holds. -/
def operandElem (y : Tile) (g : Int) : Option Elem :=
  (y.units.find? fun u => u.work == .invocation && u.issued).bind fun u => u.fills.findSome? fun f =>
    (f.places.find? fun p => ((f.ring.base : Int) + (p.pos / 512 : Nat)) == g).map Place.elem

/-- A load's read of tile store (R103): `corrected` words of it were repaired and are counted; with an uncorrectable one the
word is not delivered, the invocation stops and the descriptor fails with the handle and byte offset of the granule. -/
def veLoad (t : Nat) (a : VeAction) (corrected : Nat) (bad : Bool) (s : State) : State :=
  let y := getTile s t
  match y.ve.running, (veIssue y.ve y.store a).2.2, a.mem with
  | some (d, _), .ok, some (areg, off, _, _) =>
    let s := storeEcc s t corrected
    if !bad then veStep t a s
    else
      let e := operandElem y ((y.ve.settle.getA areg).val + off)
      let s := endInvocation (modTile s t fun y => { y with ve := { y.ve with running := none, pend := [], loops := [] } }) t false
      markFail s d 0x0C03 ((e.map (·.handle)).getD 0) ((e.map Elem.lo).getD 0)
  | _, _, _ => veStep t a s

/-- VE_INVOCATION. -/
def execVeInvocation (t : TileIx) (d : DescRef) (iter : Nat) (s : State) : Host.Outcome State Fault Refusal :=
  .next (opVeInvocation t.val d iter s)
/-- VE_NOP. -/
def execVeNop (t : TileIx) (s : State) : Host.Outcome State Fault Refusal :=
  .next (veStep t.val actNop s)
/-- VE_END. -/
def execVeEnd (t : TileIx) (s : State) : Host.Outcome State Fault Refusal :=
  .next (veStep t.val actEnd s)
/-- LOOP. -/
def execLoop (t : TileIx) (count : BitVec 16) (body : BitVec 9) (s : State) : Host.Outcome State Fault Refusal :=
  .next (veStep t.val (actLoop count.toNat body.toNat) s)
/-- VLD. -/
def execVld (t : TileIx) (v : BitVec 6) (areg : BitVec 3) (offset : BitVec 16) (corrected : Nat) (bad : Bool) (s : State) :
    Host.Outcome State Fault Refusal :=
  .next (veLoad t.val (actVld v.toNat areg.toNat (sx 16 offset.toNat)) corrected bad s)
/-- VST. -/
def execVst (t : TileIx) (v : BitVec 6) (areg : BitVec 3) (offset : BitVec 16) (s : State) : Host.Outcome State Fault Refusal :=
  .next (veStep t.val (actVst v.toNat areg.toNat (sx 16 offset.toNat)) s)
/-- VLDB. -/
def execVldb (t : TileIx) (v : BitVec 6) (areg : BitVec 3) (offset : BitVec 16) (corrected : Nat) (bad : Bool) (s : State) :
    Host.Outcome State Fault Refusal :=
  .next (veLoad t.val (actVldb v.toNat areg.toNat offset.toNat) corrected bad s)
/-- ASET. -/
def execAset (t : TileIx) (areg : BitVec 3) (imm : BitVec 16) (s : State) : Host.Outcome State Fault Refusal :=
  .next (veStep t.val (actAset areg.toNat imm.toNat) s)
/-- AINC. -/
def execAinc (t : TileIx) (areg : BitVec 3) (imm : BitVec 16) (s : State) : Host.Outcome State Fault Refusal :=
  .next (veStep t.val (actAinc areg.toNat imm.toNat) s)
/-- FADD. -/
def execFadd (t : TileIx) (vd va vb : BitVec 6) (s : State) : Host.Outcome State Fault Refusal :=
  .next (veStep t.val (actFadd vd.toNat va.toNat vb.toNat) s)
/-- FSUB. -/
def execFsub (t : TileIx) (vd va vb : BitVec 6) (s : State) : Host.Outcome State Fault Refusal :=
  .next (veStep t.val (actFsub vd.toNat va.toNat vb.toNat) s)
/-- FMUL. -/
def execFmul (t : TileIx) (vd va vb : BitVec 6) (s : State) : Host.Outcome State Fault Refusal :=
  .next (veStep t.val (actFmul vd.toNat va.toNat vb.toNat) s)
/-- FFMA. -/
def execFfma (t : TileIx) (vd va vb vc : BitVec 6) (s : State) : Host.Outcome State Fault Refusal :=
  .next (veStep t.val (actFfma vd.toNat va.toNat vb.toNat vc.toNat) s)
/-- FMAX. -/
def execFmax (t : TileIx) (vd va vb : BitVec 6) (s : State) : Host.Outcome State Fault Refusal :=
  .next (veStep t.val (actFmax vd.toNat va.toNat vb.toNat) s)
/-- FMIN. -/
def execFmin (t : TileIx) (vd va vb : BitVec 6) (s : State) : Host.Outcome State Fault Refusal :=
  .next (veStep t.val (actFmin vd.toNat va.toNat vb.toNat) s)
/-- FABS. -/
def execFabs (t : TileIx) (vd va : BitVec 6) (s : State) : Host.Outcome State Fault Refusal :=
  .next (veStep t.val (actFabs vd.toNat va.toNat) s)
/-- FNEG. -/
def execFneg (t : TileIx) (vd va : BitVec 6) (s : State) : Host.Outcome State Fault Refusal :=
  .next (veStep t.val (actFneg vd.toNat va.toNat) s)
/-- FCMP. -/
def execFcmp (t : TileIx) (md : BitVec 3) (va vb : BitVec 6) (code : BitVec 3) (s : State) : Host.Outcome State Fault Refusal :=
  .next (veStep t.val (actFcmp md.toNat va.toNat vb.toNat code.toNat) s)
/-- SEL. -/
def execSel (t : TileIx) (vd : BitVec 6) (ms : BitVec 3) (va vb : BitVec 6) (s : State) : Host.Outcome State Fault Refusal :=
  .next (veStep t.val (actSel vd.toNat ms.toNat va.toNat vb.toNat) s)
/-- IADD. -/
def execIadd (t : TileIx) (vd va vb : BitVec 6) (s : State) : Host.Outcome State Fault Refusal :=
  .next (veStep t.val (actIadd vd.toNat va.toNat vb.toNat) s)
/-- ISUB. -/
def execIsub (t : TileIx) (vd va vb : BitVec 6) (s : State) : Host.Outcome State Fault Refusal :=
  .next (veStep t.val (actIsub vd.toNat va.toNat vb.toNat) s)
/-- IMUL. -/
def execImul (t : TileIx) (vd va vb : BitVec 6) (s : State) : Host.Outcome State Fault Refusal :=
  .next (veStep t.val (actImul vd.toNat va.toNat vb.toNat) s)
/-- AND. -/
def execVand (t : TileIx) (vd va vb : BitVec 6) (s : State) : Host.Outcome State Fault Refusal :=
  .next (veStep t.val (actAnd vd.toNat va.toNat vb.toNat) s)
/-- OR. -/
def execVor (t : TileIx) (vd va vb : BitVec 6) (s : State) : Host.Outcome State Fault Refusal :=
  .next (veStep t.val (actOr vd.toNat va.toNat vb.toNat) s)
/-- XOR. -/
def execVxor (t : TileIx) (vd va vb : BitVec 6) (s : State) : Host.Outcome State Fault Refusal :=
  .next (veStep t.val (actXor vd.toNat va.toNat vb.toNat) s)
/-- SHL. -/
def execShl (t : TileIx) (vd va : BitVec 6) (imm : BitVec 5) (s : State) : Host.Outcome State Fault Refusal :=
  .next (veStep t.val (actShl vd.toNat va.toNat imm.toNat) s)
/-- SHR. -/
def execShr (t : TileIx) (vd va : BitVec 6) (imm : BitVec 6) (s : State) : Host.Outcome State Fault Refusal :=
  .next (veStep t.val (actShr vd.toNat va.toNat imm.toNat) s)
/-- FRCP. -/
def execFrcp (t : TileIx) (vd va : BitVec 6) (s : State) : Host.Outcome State Fault Refusal :=
  .next (veStep t.val (actFrcp vd.toNat va.toNat) s)
/-- FRSQ. -/
def execFrsq (t : TileIx) (vd va : BitVec 6) (s : State) : Host.Outcome State Fault Refusal :=
  .next (veStep t.val (actFrsq vd.toNat va.toNat) s)
/-- FEXP2. -/
def execFexp2 (t : TileIx) (vd va : BitVec 6) (s : State) : Host.Outcome State Fault Refusal :=
  .next (veStep t.val (actFexp2 vd.toNat va.toNat) s)
/-- FLOG2. -/
def execFlog2 (t : TileIx) (vd va : BitVec 6) (s : State) : Host.Outcome State Fault Refusal :=
  .next (veStep t.val (actFlog2 vd.toNat va.toNat) s)
/-- FTANH. -/
def execFtanh (t : TileIx) (vd va : BitVec 6) (s : State) : Host.Outcome State Fault Refusal :=
  .next (veStep t.val (actFtanh vd.toNat va.toNat) s)
/-- LSUM. -/
def execLsum (t : TileIx) (vd va : BitVec 6) (s : State) : Host.Outcome State Fault Refusal :=
  .next (veStep t.val (actLsum vd.toNat va.toNat) s)
/-- LMAX. -/
def execLmax (t : TileIx) (vd va : BitVec 6) (s : State) : Host.Outcome State Fault Refusal :=
  .next (veStep t.val (actLmax vd.toNat va.toNat) s)
/-- LBCAST. -/
def execLbcast (t : TileIx) (vd va : BitVec 6) (lane : BitVec 6) (s : State) : Host.Outcome State Fault Refusal :=
  .next (veStep t.val (actLbcast vd.toNat va.toNat lane.toNat) s)

/-- A step with a format that R115 keeps out of an instruction: validation refuses such a program (R118), so no engine
issues it. -/
def veStepIf (ok : Bool) (t : Nat) (a : VeAction) (s : State) : State := if ok then veStep t a s else s

/-- CVT: FROM and TO name formats, TO not FP19 (R115). -/
def execCvt (t : TileIx) (vd va : BitVec 6) (src dst : BitVec 4) (inf : Bool) (s : State) :
    Host.Outcome State Fault Refusal :=
  .next (veStepIf (decide (src.toNat ≤ 10 ∧ dst.toNat ≤ 10 ∧ dst ≠ 2)) t.val
    (actCvt vd.toNat va.toNat src.toNat dst.toNat inf) s)
/-- CVTS: TO is a format of R83 (R115). -/
def execCvts (t : TileIx) (vd va vb : BitVec 6) (dst : BitVec 4) (s : State) : Host.Outcome State Fault Refusal :=
  .next (veStepIf (scaleFmt dst.toNat) t.val (actCvts vd.toNat va.toNat vb.toNat dst.toNat) s)
/-- SCALE: TO is a format of R82 (R115). -/
def execScale (t : TileIx) (vd va : BitVec 6) (dst : BitVec 4) (s : State) : Host.Outcome State Fault Refusal :=
  .next (veStepIf (scaleFmt dst.toNat) t.val (actScale vd.toNat va.toNat dst.toNat) s)

end Sys2Proof.Machine
end

