-- ==== Sys2Proof/Machine/Streams.lean ====
section
/-!
DEFINITION. Direct armings (R169, R172, R175 to R183), seam links (R201, R463) and multicast streams (R202 to R204).
-/
namespace Sys2Proof.Machine
open Sys2Proof

/-! Transfers of an arming. -/

/-- Lowest source byte of an arming. -/
def armLow (a : Arming) : Nat :=
  if 0 ≤ a.srcStride then a.srcOff else ((a.srcOff : Int) + (a.rows - 1 : Nat) * a.srcStride).toNat

/-- The row of a transfer: `id % 2^24` is its place in the order of source bytes (R173). -/
def armRow (a : Arming) (id : Nat) : Nat := if 0 ≤ a.srcStride then id % 2 ^ 24 else a.rows - 1 - id % 2 ^ 24

/-- First source byte of a transfer's row. -/
def armRowStart (a : Arming) (id : Nat) : Nat := armLow a + id % 2 ^ 24 * a.srcStride.natAbs

/-- First source byte of a transfer: what its row has in its source granule. -/
def armSrc (a : Arming) (id : Nat) : Nat := max (id / 2 ^ 24 * 64) (armRowStart a id)

/-- First destination byte of a transfer. -/
def armDst (a : Arming) (id : Nat) : Nat :=
  ((a.dstOff : Int) + armRow a id * a.dstStride + (armSrc a id - armRowStart a id : Nat)).toNat

/-- Bytes of a transfer. -/
def armLen (a : Arming) (id : Nat) : Nat := min (id / 2 ^ 24 * 64 + 64) (armRowStart a id + a.rowBytes) - armSrc a id

/-- The first transfer at source granule `g` or later. -/
def armFrom (a : Arming) (g : Nat) : Option Nat :=
  let st := a.srcStride.natAbs
  let low := armLow a
  let i := if 64 * g < low + a.rowBytes then 0
    else if st = 0 then a.rows else (64 * g - low - a.rowBytes) / st + 1
  if a.rows ≤ i then none else some (max g ((low + i * st) / 64) * 2 ^ 24 + i)

/-- The transfer after a transfer: source granule by source granule, and in each the rows that have bytes there. -/
def armNext (a : Arming) (id : Nat) : Option Nat :=
  if id % 2 ^ 24 + 1 < a.rows ∧ armRowStart a (id + 1) < id / 2 ^ 24 * 64 + 64 then some (id + 1)
  else armFrom a (id / 2 ^ 24 + 1)

/-- The first transfer of an arming; none where it moves nothing (R179). -/
def armFirst (a : Arming) : Option Nat := if a.rows = 0 ∨ a.rowBytes = 0 then none else armFrom a (armLow a / 64)

/-- Every transfer has issued, or the arming moves nothing. -/
def armIssued (a : Arming) : Bool := a.issued.isNone

/-- A transfer of an arming may issue. -/
def armReady (now : Nat) (a : Arming) : Bool := !a.ended && !armIssued a && decide (a.first ≤ now)

/-! Contexts. -/

/-- Context `x` of tile `t` set. -/
def setCtx (s : State) (t x : Nat) (c : StmCtx) : State :=
  modTile s t fun y => { y with stm := smSet StmCtx.reset x c y.stm }

/-- Context `x` of tile `t`. -/
def ctxOf (s : State) (t x : Nat) : StmCtx := (getTile s t).getCtx x

/-- The stream record (R181). -/
def streamRecord (s : State) (t x : Nat) (a : Arming) (code bytes detail : Nat) : List Byte :=
  leBytes 4 (a.seq * 2 ^ 16 + code) ++ leBytes 4 (x * 2 ^ 11 + t) ++ leBytes 8 bytes ++ leBytes 8 detail ++
    leBytes 8 s.cycle

/-- An arming's record, where it names one (R180). -/
def putStreamRecord (s : State) (t x : Nat) (a : Arming) (code bytes detail : Nat) : State :=
  match findHandle s a.recHandle with
  | some h =>
    let bs := streamRecord s t x a code bytes detail
    if 32 * a.recIndex + 32 ≤ h.size then handleWrite s h (32 * a.recIndex) bs else s
  | none => s

/-- Steps 2 and 3 of R180: the record, then with OK the signal. -/
def armEnd (s : State) (t x : Nat) (a : Arming) : State :=
  let s := putStreamRecord s t x a a.code a.bytes a.detail
  if a.code = 0 then addFlag s a.flag a.add (.arming (Fin.ofNat 1152 t) (BitVec.ofNat 6 x)) else s

/-- An arming becomes active with its first transfer in cycle `first`; one that moves nothing completes at once
(R177, R179). -/
def activate (s : State) (t x : Nat) (a : Arming) (first : Nat) : State :=
  let a := { a with first := first }
  if armIssued a then
    let now := s.cycle
    armEnd (setCtx s t x { ctxOf s t x with active := none, recordCycle := some now }) t x a
  else setCtx s t x { ctxOf s t x with active := some a }

/-- SHADOW_ARMING_ACTIVE (R177): in the cycle after the previous arming's record. -/
def opShadowActive (t x : Nat) (s : State) : State :=
  let c := ctxOf s t x
  match c.shadow with
  | some a =>
    if c.active.isSome ∨ s.cycle ≤ c.recordCycle.getD 0 then s
    else activate (setCtx s t x { c with shadow := none }) t x a s.cycle
  | none => s

/-! Arming. -/

/-- First and last byte over all rows from an offset. -/
def rowSpan (off : Nat) (stride : Int) (rows rowBytes : Nat) : Int × Int :=
  let last := (off : Int) + (rows - 1 : Nat) * stride
  (min (off : Int) last, max (off : Int) last + rowBytes - 1)

/-- A footprint lies inside a buffer (R176). -/
def spanFits (h : Handle) (x : Int × Int) : Bool := decide (0 ≤ x.1) && decide (x.2 < h.size)

/-- Two handles name the same bytes: window handles of one plot or one register space with meeting ranges. -/
def spansMeet (h g : Handle) (x y : Int × Int) : Bool :=
  h.kind != 0 && h.kind == g.kind && h.home == g.home && (h.kind == 2 || h.plot == g.plot) &&
    decide (x.1 + h.winOffset ≤ y.2 + g.winOffset) && decide (y.1 + g.winOffset ≤ x.2 + h.winOffset)

/-- A stride within ±(2^47 − 1). -/
def strideOk (x : Int) : Bool := decide (-(2 : Int) ^ 47 < x) && decide (x < (2 : Int) ^ 47)

/-- The arming that the staged registers of a tile describe. -/
def stagedArming (s : State) (t : Nat) (loop : Bool) : Arming where
  src := getf s (tileR t 0x410) 31 0
  dst := getf s (tileR t 0x414) 31 0
  srcOff := get64 s (tileR t 0x418) % 2 ^ 48
  dstOff := get64 s (tileR t 0x420) % 2 ^ 48
  srcStride := sx 64 (get64 s (tileR t 0x428))
  dstStride := sx 64 (get64 s (tileR t 0x430))
  rows := fld (get64 s (tileR t 0x438)) 55 32
  rowBytes := fld (get64 s (tileR t 0x438)) 23 0
  recHandle := fld (get64 s (tileR t 0x440)) 31 0
  recIndex := fld (get64 s (tileR t 0x440)) 63 32
  add := getf s (tileR t 0x448) 31 16
  flag := getf s (tileR t 0x448) 15 0
  loop := loop
  seq := 0
  first := 0
  issued := none
  outstanding := []
  bytes := 0
  code := 0
  detail := 0
  ended := false

/-- The conditions of R176 on handles, footprints, strides and the record. -/
def armingOk (s : State) (a : Arming) : Bool :=
  match openHandle s 0 a.src, openHandle s 0 a.dst with
  | some h, some g =>
    let moves := a.rows != 0 && a.rowBytes != 0
    let x := rowSpan a.srcOff a.srcStride a.rows a.rowBytes
    let y := rowSpan a.dstOff a.dstStride a.rows a.rowBytes
    h.id != g.id && (!moves || (spanFits h x && spanFits g y && !spansMeet h g x y)) &&
      strideOk a.srcStride && strideOk a.dstStride &&
      (a.recHandle == 0 || match openHandle s 0 a.recHandle with
        | some r => decide (32 * a.recIndex + 32 ≤ r.size)
        | none => false)
  | _, _ => false

/-- TILE_STM_ARM_STATUS.CODE of the last write. -/
def armCode (s : State) (t code : Nat) : State := setf s (tileR t 0x450) 15 0 code

/-- TILE_STM_ARM (R175 to R178). -/
def opTileStmArm (t : Nat) (val : Word) (s : State) : State :=
  let x := getf s (tileR t 0x408) 5 0
  let s := opShadowActive t x s
  let a := stagedArming s t (val.getLsbD 0)
  let c := ctxOf s t x
  if directOf s t ≤ x ∨ 2 ≤ val.toNat ∨ !armingOk s a then armCode s t 0x0401
  else if c.shadow.isSome then armCode s t 0x0402
  else
    let q := (c.seq + 1) % 2 ^ 16
    let a := { a with seq := q, issued := armFirst a }
    let s := setf (armCode s t 0) (tileR t 0x450) 31 16 q
    if c.active.isSome then setCtx s t x { c with seq := q, shadow := some a }
    else activate (setCtx s t x { c with seq := q }) t x a (s.cycle + 1)

/-- An active arming issues nothing further and ends with a code. -/
def endArming (s : State) (t x code detail : Nat) : State :=
  let c := ctxOf s t x
  match c.active with
  | some a => if a.ended then s else setCtx s t x { c with active := some { a with ended := true, code := code, detail := detail } }
  | none => s

/-- An arming ends at a granule it cannot take: that transfer and the later ones are dropped (R182). -/
def failArming (s : State) (t x id code detail : Nat) : State :=
  let s := endArming s t x code detail
  let c := ctxOf s t x
  match c.active with
  | some a =>
    setCtx s t x { c with active := some { a with outstanding := a.outstanding.filter fun i => decide (i < id) } }
  | none => s

/-- A context's shadow stopped (R183): behind an active arming that stops it goes with that one's record; behind one that
runs on, or alone, it is discarded at once, with its own record. -/
def stopShadow (s : State) (t x : Nat) : State :=
  let c := ctxOf s t x
  match c.shadow with
  | none => s
  | some b =>
    if (c.active.map (·.ended)).getD false then setCtx s t x { c with shadow := some { b with ended := true, code := 0x0403 } }
    else armEnd (setCtx s t x { c with shadow := none }) t x { b with code := 0x0403 }

/-- A context's armings stopped that `p` picks. -/
def stopCtx (s : State) (t x : Nat) (p : Arming → Bool) : State :=
  let s := if ((ctxOf s t x).active.map p).getD false then endArming s t x 0x0403 0 else s
  if ((ctxOf s t x).shadow.map p).getD false then stopShadow s t x else s

/-- TILE_STM_STOP (R183). -/
def opTileStmStop (t : Nat) (val : Word) (s : State) : State :=
  if val.getLsbD 0 then stopCtx s t (getf s (tileR t 0x408) 5 0) fun _ => true else s

/-- Every direct arming of the tile stopped, as a reset stops them; `all`: those with LOOP too (R183). -/
def stopArmings (s : State) (t : Nat) (all : Bool) : State :=
  ((getTile s t).stm.map (·.1)).foldl (fun s x => stopCtx s t x fun a => all || !a.loop) s

/-! Issue and arrival. -/

/-- The page copies that a tile's stream engine makes (R196). -/
def copiesOf (s : State) (t : Nat) : List PageCopy := s.copies.filter fun c => c.tile == t

/-- Transfers outstanding on a tile: those of direct armings, of sequencer contexts, output areas and page copies, and one for
each multicast stream with a granule on its way (R172, R202). What a stream of another tile brings counts there. -/
def outstandingOf (s : State) (t : Nat) : Nat :=
  let y := getTile s t
  (y.stm.map fun p => (p.2.active.map fun a => a.outstanding.length).getD 0).sum +
    (y.units.flatMap fun u => u.fills.map fun f => if f.remote = none then f.outstanding.length else 0).sum +
    (y.outputs.map fun o => o.outstanding.length).sum + (y.streams.map fun m => b2n (m.reading || m.loaded)).sum +
    ((copiesOf s t).map fun c => c.outstanding.length).sum

/-- The class of a descriptor's transfers (R172): 0 with LOOP, else `n`; none while its attempt is not under way. -/
def ownerClass (s : State) (d : DescRef) (n : Nat) : Option Nat :=
  match findDesc s d with
  | some (_, x, r) => if r.phase = .running ∧ r.code = 0 then some (if dLoop x then 0 else n) else none
  | none => none

/-- The slot of the descriptor that a context of a pass serves: a scale context that of its panel. -/
def viewSlot (slot : Nat) : Nat := if 3 ≤ slot then slot - 3 else slot

/-- The class of a context that fills an area: that of a started descriptor's reads (R184), or 3 where its slot is read ahead
of the start, from a handle that allows it (R185); none: it may not read yet. -/
def fillClass (s : State) (t : Nat) (u : BuiltUnit) (f : Fill) : Option Nat :=
  (ownerClass s u.owner 1).orElse fun _ => match findDesc s u.owner with
    | some (sb, x, r) =>
      if r.phase = .waiting ∧ r.runAhead.contains (viewSlot f.slot, t) ∧ f.places.all fun p => runAheadHandle s sb p.handle then
        some (if dLoop x then 0 else 3)
      else none
    | none => none

/-- Where a carrier stands in its class's rotation. -/
def carrierKey : Carrier → Nat
  | .direct x => x.toNat
  | .fill no slot => 64 + 16 * no + slot
  | .out no slot => 64 + 16 * no + 8 + slot
  | .stream e => 2 ^ 80 + e.toNat
  | .page h j => 2 ^ 81 + pageKey h.toNat j

/-- Every carrier of a tile with a transfer ready, with its class (R172). The class of a direct arming without LOOP is the
model's choice: the table names none for it (DESIGN CHOICE, log entry 128). -/
def readyCarriers (s : State) (t : Nat) : List (Nat × Carrier) :=
  let y := getTile s t
  let now := s.cycle
  (y.stm.filterMap fun p => p.2.active.bind fun a =>
    if armReady now a then some (if a.loop then 0 else 3, .direct (BitVec.ofNat 6 p.1)) else none) ++
  (y.units.flatMap fun u => u.fills.filterMap fun f =>
    if f.remote = none ∧ mayFill y u f then (fillClass s t u f).map fun c => (c, .fill u.no f.slot) else none) ++
  (y.streams.filterMap fun m =>
    if !m.reading && !m.loaded then (ownerClass s m.owner 1).map fun c => (c, .stream (BitVec.ofNat 6 m.entry)) else none) ++
  (y.outputs.filterMap fun o =>
    if o.issued < o.count then (ownerClass s o.owner 2).map fun c => (c, .out o.no o.slot) else none) ++
  ((copiesOf s t).filterMap fun c => match findHandle s c.handle with
    | some h => if c.issued < pageGranules h c.page then some (3, .page (BitVec.ofNat 32 c.handle) c.page) else none
    | none => none)

/-- The carrier of a class that is served after the key `last`, in rotation. -/
def nextInTurn (last : Option Nat) (l : List Carrier) : Option Carrier :=
  let low := fun (l : List Carrier) => l.foldl (fun (b : Option Carrier) c => match b with
    | some d => if carrierKey c < carrierKey d then some c else b
    | none => some c) none
  match last with
  | some k => (low (l.filter fun c => decide (k < carrierKey c))).orElse fun _ => low l
  | none => low l

/-- The class that is served: the lowest-numbered one with a transfer ready, unless one has waited 256 cycles. -/
def servedClass (now : Nat) (waits : List (Nat × Nat)) (l : List (Nat × Carrier)) : Option Nat :=
  let has := (List.range 4).filter fun c => l.any fun p => p.1 == c
  (has.find? fun c => waits.any fun w => w.1 == c && decide (w.2 + 256 ≤ now)).orElse fun _ => has.head?

/-- Since when each class has waited with a transfer ready, after a cycle that serves `served`. -/
def nextWaits (now : Nat) (waits : List (Nat × Nat)) (l : List (Nat × Carrier)) (served : Option Nat) : List (Nat × Nat) :=
  ((List.range 4).filter fun c => some c != served && l.any fun p => p.1 == c).map fun c =>
    (c, ((waits.find? fun w => w.1 == c).map (·.2)).getD now)

/-- A context of a unit changed. -/
def modFill (s : State) (t no slot : Nat) (g : Fill → Fill) : State :=
  modTile s t fun y => { y with units := y.units.map fun u => if u.no = no then
    { u with fills := u.fills.map fun f => if f.slot = slot then g f else f } else u }

/-- A multicast stream of a tile changed. -/
def modStream (s : State) (t entry : Nat) (g : Stream → Stream) : State :=
  modTile s t fun y => { y with streams := y.streams.map fun m => if m.entry = entry then g m else m }

/-- The context of a unit. -/
def fillOf (y : Tile) (no slot : Nat) : Option (BuiltUnit × Fill) :=
  (y.units.find? fun u => u.no == no).bind fun u => (u.fills.find? fun f => f.slot == slot).map fun f => (u, f)

/-- A source granule asked of the tile that holds it, where that is another one. -/
def askGranule (s : State) (t : Nat) (c : Carrier) (n : Nat) (l : List Place) (x : Nat × Nat) : State :=
  match broughtBy l x with
  | p :: _ => requestGranule s p.handle (64 * x.2) t (t, carrierKey c, n)
  | [] => s

/-- The next transfer of a carrier goes out; a read of another tile's store goes over the Hedgerow. -/
def issueOf (s : State) (t : Nat) (c : Carrier) : State :=
  let y := getTile s t
  match c with
  | .direct x =>
    let k := y.getCtx x.toNat
    match k.active with
    | some a => match a.issued with
      | some id =>
        let a' := { a with issued := armNext a id, outstanding := a.outstanding ++ [id] }
        requestGranule (setCtx s t x.toNat { k with active := some a' }) a.src (armSrc a id) t (t, carrierKey c, id)
      | none => s
    | none => s
  | .fill no slot => match fillOf y no slot with
    | some (_, f) => match (transfersOf f.places)[f.issued]? with
      | some x =>
        let s := modFill s t no slot fun f => { f with issued := f.issued + 1, outstanding := f.outstanding ++ [f.issued] }
        askGranule s t c f.issued f.places x
      | none => s
    | none => s
  | .out no slot => modTile s t fun y => { y with outputs := y.outputs.map fun o =>
      if o.no = no ∧ o.slot = slot then { o with issued := o.issued + 1, outstanding := o.outstanding ++ [o.issued] } else o }
  | .stream e => match y.streams.find? fun m => m.entry == e.toNat with
    | some m => match (transfersOf m.places)[m.next]? with
      | some x => askGranule (modStream s t e.toNat fun m => { m with reading := true }) t c m.next m.places x
      | none => s
    | none => s
  | .page h j => match s.copies.find? fun k => k.handle == h.toNat && k.page == j with
    | some k =>
      let s := { s with copies := s.copies.map fun k =>
        if k.handle = h.toNat ∧ k.page = j then { k with issued := k.issued + 1, outstanding := k.outstanding ++ [k.issued] }
        else k }
      requestGranule s k.handle (k.page * pageBytes + 64 * k.issued) t (t, carrierKey c, k.issued)
    | none => s

/-- GRANULE_TRANSFER_ISSUE (R172, R173): one transfer a cycle, 8 outstanding, the lowest-numbered class first, its carriers in
rotation, and a class that has waited 256 cycles before the others. -/
def opGranuleTransferIssue (t : Nat) (s : State) : State :=
  let y := getTile s t
  let now := s.cycle
  if y.issueCycle = some now ∨ 8 ≤ outstandingOf s t then s
  else
    let l := readyCarriers s t
    match servedClass now y.waits l with
    | none => s
    | some k =>
      let turn := (y.turns.find? fun p => p.1 == k).map (·.2)
      match nextInTurn turn ((l.filter fun p => p.1 == k).map (·.2)) with
      | none => s
      | some c =>
        let s := modTile s t fun y => { y with
          issueCycle := some now, waits := nextWaits now y.waits l (some k)
          turns := (y.turns.filter fun p => p.1 != k) ++ [(k, carrierKey c)] }
        issueOf s t c

/-- Status with which an access to bytes of a handle ends a direct arming, if it does (R282, R347). -/
def armAccess (s : State) (h : Handle) (lo n : Nat) : Option Nat :=
  if rangeLost h lo (lo + n - 1) then some 0x080B else if !plotOpen s h then some 0x0A02 else none

/-- The stream reads a window handle: its granules come one after the other (R168). -/
def fromWindow (s : State) (id : Nat) : Bool := ((findHandle s id).map isWindow).getD false

/-- A transfer of a direct arming arrives: the data goes to its own place (R173). -/
def directArrival (t x id : Nat) (s : State) : State :=
  let c := ctxOf s t x
  match c.active with
  | none => s
  | some a =>
    if !a.outstanding.contains id ∨ (fromWindow s a.src ∧ a.outstanding.head? ≠ some id) then s
    else
      let n := armLen a id
      match findHandle s a.src, findHandle s a.dst with
      | some h, some g =>
        match (armAccess s h (armSrc a id) n).orElse fun _ => armAccess s g (armDst a id) n with
        | some code => failArming s t x id code 0
        | none => match (badGranule s h.id (armSrc a id) n).isSome, badPart s g (armDst a id) n with
        | true, _ => failArming (uncorrectable s h (armSrc a id)) t x id 0x0C03 (armSrc a id / 64 * 64)
        | _, some b => failArming (uncorrectable s g (64 * b)) t x id 0x0C03 0
        | _, none =>
          let bs := handleBytes s h (armSrc a id) n
          let s := if isWindow h then { s with free := s.free + 1 } else countAccess s h.id (armSrc a id / pageBytes) t
          let s := handleWrite s g (armDst a id) bs
          setCtx s t x { c with active := some { a with outstanding := a.outstanding.filter (· != id), bytes := a.bytes + n } }
      | _, _ => s

/-- What keeps a read of elements from delivering (R282, R347, R401): the code, handle and byte offset. -/
def readFails (s : State) (l : List Elem) : Option (Nat × Nat × Nat) :=
  (accessFailure s l).orElse fun _ =>
    (s.lpddr.badGranules.find? fun g => l.any fun e => e.meetsGranule g.1 g.2).map fun g => (0x0C03, g.1, 64 * g.2)

/-- A read that does not deliver: an uncorrectable granule is recorded, and the descriptor fails; one that has not started
reads again after its start (R401). -/
def failRead (s : State) (d : DescRef) (x : Nat × Nat × Nat) : State :=
  let s := if x.1 = 0x0C03 then match findHandle s x.2.1 with
      | some h => uncorrectable s h x.2.2
      | none => s
    else s
  markFail s d x.1 x.2.1 x.2.2

/-- What a delivered read leaves: the window's free value taken, the page's access counted, a cache line made. -/
def afterRead (s : State) (t : Nat) (p : Place) (g : Nat) : State :=
  match findHandle s p.handle with
  | some h =>
    if isWindow h then { s with free := s.free + 1 }
    else cacheLine (countAccess s h.id (64 * g / pageBytes) t) h (64 * g) t
  | none => s

/-- A unit that no command shows at work goes with its last granule, and its output area is read out. -/
def endOther (s : State) (t no : Nat) : State :=
  modTile s t fun y => match y.units.find? fun u => u.no == no with
    | some u =>
      if u.work = .other ∧ u.fills.all Fill.full then
        { y with units := y.units.filter fun v => v.no != no
                 outputs := y.outputs ++ u.outs.map fun o => ⟨u.owner, no, o.1, o.2.1, o.2.2, 0, []⟩ }
      else y
    | none => y

/-- The flits of a transfer have not all come: a request or its response, or the multicast granule on its way to the tile. -/
def onTheWay (s : State) (t : Nat) (c : Carrier) (n : Nat) (remote : Option (Nat × Nat)) : Bool :=
  match remote with
  | some (src, e) => hedgeCarries s fun f => f.ch == 2 && f.tag == (src, 2 ^ 80 + e, n) && f.drops.contains t
  | none => hedgeCarries s fun f => f.ch != 2 && f.ch != 3 && f.tag == (t, carrierKey c, n)

/-- A transfer of a sequencer context arrives: each element that it brings goes to its place in the rings (R106, R107,
R173). -/
def fillArrival (t no slot n : Nat) (s : State) : State :=
  match fillOf (getTile s t) no slot with
  | none => s
  | some (u, f) => match (transfersOf f.places)[n]? with
    | none => s
    | some x =>
      let ps := broughtBy f.places x
      let win := ps.any fun p => fromWindow s p.handle
      if !f.outstanding.contains n ∨ (win ∧ f.outstanding.head? ≠ some n) then s
      else match readFails s (ps.map Place.elem) with
        | some e =>
          let back := (findDesc s u.owner).any fun q => q.2.2.phase == .waiting
          let s := modFill s t no slot fun f =>
            if back then { f with issued := 0, outstanding := [] } else { f with outstanding := f.outstanding.filter (· != n) }
          let s := if back then modRun s u.owner fun r => { r with runAhead := [] } else s
          failRead s u.owner e
        | none =>
          let s := match ps with
            | p :: _ => afterRead s t p x.2
            | [] => s
          let store := ps.foldl (putPlace s f) (getTile s t).store
          let s := modTile s t fun y => { y with store := store }
          let s := modFill s t no slot fun f => { f with outstanding := f.outstanding.filter (· != n) }
          endOther s t no

/-- A multicast stream's granule has been read (R202). -/
def streamArrival (t e : Nat) (s : State) : State :=
  match (getTile s t).streams.find? fun m => m.entry == e with
  | none => s
  | some m => match (transfersOf m.places)[m.next]? with
    | none => s
    | some x =>
      let ps := broughtBy m.places x
      if !m.reading then s
      else match readFails s (ps.map Place.elem) with
        | some f => failRead s m.owner f
        | none =>
          let s := match ps with
            | p :: _ => afterRead s t p x.2
            | [] => s
          modStream s t e fun m => { m with reading := false, loaded := true }

/-- GRANULE_ARRIVAL (R172, R173, R196): a transfer is done; its flits have come. -/
def opGranuleArrival (t : Nat) (c : Carrier) (n : Nat) (s : State) : State :=
  let remote := match c with
    | .fill no slot => (fillOf (getTile s t) no slot).bind fun p => p.2.remote
    | _ => none
  if onTheWay s t c n remote then s
  else match c with
    | .direct x => directArrival t x.toNat n s
    | .fill no slot => fillArrival t no slot n s
    | .out no slot => modTile s t fun y => { y with outputs := (y.outputs.map fun o =>
        if o.no = no ∧ o.slot = slot then { o with outstanding := o.outstanding.filter (· != n) } else o).filter fun o =>
          !(o.outstanding.isEmpty && decide (o.count ≤ o.issued)) }
    | .stream e => streamArrival t e.toNat s
    | .page h j => { s with copies := s.copies.map fun k =>
        if k.handle = h.toNat ∧ k.page = j ∧ k.tile = t then { k with outstanding := k.outstanding.filter (· != n) } else k }

/-- ARMING_DONE (R180, R183): the record and the signal; a shadow that was stopped with the arming is discarded with a record of
its own. -/
def opArmingDone (t x : Nat) (s : State) : State :=
  let c := ctxOf s t x
  match c.active with
  | none => s
  | some a =>
    if a.outstanding ≠ [] ∨ !(a.ended || armIssued a) then s
    else
      let now := s.cycle
      let s := armEnd (setCtx s t x { c with active := none, recordCycle := some now }) t x a
      match c.shadow with
      | some b =>
        if b.ended then
          armEnd (setCtx s t x { ctxOf s t x with shadow := none }) t x { b with code := 0x0403 }
        else s
      | none => s

/-! The direct contexts of a tile (R169). -/

/-- Every context that a change of DIRECT would move is idle: direct contexts hold no arming, and the descriptor
sequencer's contexts are taken from the highest number down (DESIGN CHOICE). -/
def directFree (s : State) (t want : Nat) : Bool :=
  let y := getTile s t
  let cur := directOf s t
  if want ≤ cur then y.stm.all fun p => decide (p.1 < want) || (p.2.active.isNone && p.2.shadow.isNone)
  else decide (y.threads.foldl (fun n p => n + p.2) 0 ≤ 64 - want)

/-- DIRECT_RESERVE_APPLIED. -/
def opDirectReserveApplied (t : Nat) (s : State) : State :=
  match (getTile s t).directWanted with
  | some w =>
    if directFree s t w then setf (modTile s t fun y => { y with directWanted := none }) (tileR t 0x404) 6 0 w else s
  | none => s

/-- TILE_STM_RESERVE_WRITE: a value above 64 is ignored; the value is held until it can take effect. -/
def opTileStmReserveWrite (t : Nat) (val : Word) (s : State) : State :=
  let w := val.toNat % 128
  if 64 < w then s else opDirectReserveApplied t (modTile s t fun y => { y with directWanted := some w })

/-! Seam links. -/

/-- Every almanac halts with a code (R463, R125). -/
def haltAll (s : State) (code : Nat) : State :=
  (List.range 256).foldl (fun s a =>
    almEvent (setLastCode (setAlm s a { getAlm s a with halted := true }) a code) a 2) s

/-- LINK_RETRAIN_END (R201, R463), of a link that failed 16 replays: flits lost on the link are recorded as LINK_FAULT; with one
half failed the link goes on degraded; with both, every almanac halts and running attempts end, and the link carries nothing
more. -/
def opLinkRetrainEnd (t : Nat) (dir : Dir) (failedHalves : Nat) (lost : Bool) (s : State) : State :=
  let k := linkOf t dir
  if !crossesSeam t dir ∨ (!s.hedge.failed.contains k ∧ smGet 0 k s.hedge.replays < 16) then s
  else
    let h := s.hedge
    let s := { s with hedge := { h with
      replays := smSet 0 k 0 h.replays
      failed := h.failed.filter (· != k) ++ (if 2 ≤ failedHalves then [k] else [])
      half := h.half.filter (· != k) ++ (if failedHalves = 1 then [k] else []) } }
    let s := if lost then logEntry s 3 0x0F03 t (dirNumber dir) else s
    if failedHalves = 0 then s
    else if failedHalves = 1 then logEntry s 4 0x0F11 t (dirNumber dir)
    else
      let s := logEntry s 4 0x0F12 t (dirNumber dir)
      markFailAll (haltAll { s with seamFailed := true } 0x0F12) 0x0F12 fun _ _ _ _ _ => true

/-! Multicast. -/

/-- The receivers of a tree entry of a route table (HDG_ROUTE_ENTRY), as tiles; none where it is no tree of tiles. -/
def treeReceivers (e : Nat) : List Nat :=
  if fld e 63 62 ≠ 3 then []
  else
    let col := fld e 60 55
    let row := fld e 54 50
    let byCol := bitOf e 61
    ((List.range 32).filter fun i => e.testBit i).filterMap fun i =>
      if byCol then (if row + i < 32 ∧ col < 36 then some (32 * col + (row + i)) else none)
      else (if col + i < 36 then some (32 * (col + i) + row) else none)

/-- The context of a receiver that a stream feeds: of a unit of the same descriptor and slot, for the same panel at the same
ring positions (R202), that no stream of another entry feeds. -/
def fedFill (s : State) (src entry : Nat) (d : DescRef) (slot : Nat) (like_ : Option (Ring × Ring × List Place)) (r : Nat) :
    Option (BuiltUnit × Fill) :=
  (getTile s r).units.findSome? fun u => if u.owner ≠ d then none else
    (u.fills.find? fun f => f.slot == slot && !f.full && (f.remote == none && f.issued == 0 || f.remote == some (src, entry)) &&
      ((like_.map fun l => f.ring == l.1 && f.side == l.2.1 && f.places == l.2.2).getD true)).map fun f => (u, f)

/-- A stream opened on an entry (R202): the receivers' contexts are fed by it from now on. -/
def openStream (s : State) (t entry : Nat) (d : DescRef) (slot : Nat) (rs : List Nat) : Option State :=
  match rs.head?.bind (fedFill s t entry d slot none) with
  | none => none
  | some (_, f) =>
    let all := rs.map fun r => (r, fedFill s t entry d slot (some (f.ring, f.side, f.places)) r)
    if f.issued ≠ 0 ∨ all.any (fun p => p.2.isNone) ∨ !((getTile s t).threads.any fun p => p.1 == d) then none
    else
      let s := all.foldl (fun s p => match p.2 with
        | some (u, _) => modFill s p.1 u.no slot fun f => { f with remote := some (t, entry) }
        | none => s) s
      some (modTile s t fun y => { y with
        streams := y.streams ++ [⟨entry, d, slot, f.ring, f.side, f.places, 0, false, false, [], none, []⟩] })

/-- A receiver has ring space for a stream's next granule. -/
def hasSpace (s : State) (src : Nat) (m : Stream) (r : Nat) : Bool :=
  match fedFill s src m.entry m.owner m.slot (some (m.ring, m.side, m.places)) r with
  | some (u, f) => f.issued == m.next && mayFill (getTile s r) u f
  | none => false

/-- A receiver's credit sent over the control channel, where it has space and has not sent one (R203). -/
def sendCredit (t : Nat) (m : Stream) (s : State) (r : Nat) : State :=
  if m.credits.contains r ∨ !hasSpace s t m r then s
  else
    let s := modStream s t m.entry fun m => { m with credits := m.credits ++ [r] }
    if r = t then s else hedgeSend s ⟨3, r, t, false, 0, [], (t, 2 ^ 80 + m.entry, m.next), s.cycle⟩

/-- The receivers whose credit for the next granule has come. -/
def granted (s : State) (t : Nat) (m : Stream) : List Nat :=
  m.credits.filter fun r => !(hedgeCarries s fun f => f.ch == 3 && f.src == r && f.tag == (t, 2 ^ 80 + m.entry, m.next))

/-- A cycle in which one receiver alone holds the stream (R204). -/
def holdStream (s : State) (t : Nat) (m : Stream) (r : Nat) : State :=
  let now := s.cycle
  let n := match m.heldBy with
    | some (q, n, last) => if q = r ∧ last + 1 = now then n + 1 else if q = r ∧ last = now then 0 else 1
    | none => 1
  if n = 0 then s
  else count64 (modStream s t m.entry fun m => { m with heldBy := some (r, n, now) }) (tileR r 0x830)

/-- The two ways of a tree's line from the source's own row or column: the receivers on each side, the last the farthest. -/
def treeSides (t : Nat) (byCol : Bool) (rs : List Nat) : List (List Nat) :=
  let at_ := fun (x : Nat) => if byCol then x % 32 else x / 32
  [(rs.filter fun r => decide (at_ r < at_ t)).reverse, rs.filter fun r => decide (at_ t ≤ at_ r)].filter fun l => l.any (· != t)

/-- The granule leaves for every receiver (R202, R203): by unicast to the tree's line, then along it both ways. -/
def sendGranule (s : State) (t : Nat) (m : Stream) (byCol : Bool) (rs : List Nat) : State :=
  let s := (treeSides t byCol rs).foldl (fun s l =>
    hedgeSend s ⟨2, t, l.getLastD t, !byCol, m.entry, l.filter (· != t), (t, 2 ^ 80 + m.entry, m.next), s.cycle⟩) s
  let s := rs.foldl (fun s r => match fedFill s t m.entry m.owner m.slot (some (m.ring, m.side, m.places)) r with
    | some (u, _) => modFill s r u.no m.slot fun f => { f with issued := f.issued + 1, outstanding := f.outstanding ++ [f.issued] }
    | none => s) s
  let n := (transfersOf m.places).length
  let s := modTile s t fun y => { y with streams := (y.streams.map fun k => if k.entry = m.entry then
    { k with next := k.next + 1, loaded := false, credits := [], heldBy := none } else k).filter fun k => decide (k.next < n) }
  emit s (.granule t m.entry m.next rs)

/-- MULTICAST_GRANULE_SEND (R202 to R204): the first for a tree entry opens the stream; a granule that has been read goes to all
receivers together once each has returned its credit, which `credits` names as they send them; while one alone withholds it
that receiver counts the cycle. -/
def opMulticastGranuleSend (t entry route : Nat) (d : DescRef) (slot : Nat) (credits : List Nat) (s : State) : State :=
  let rs := treeReceivers route
  if rs = [] then s
  else match (getTile s t).streams.find? fun m => m.entry == entry with
    | none => (openStream (setRoute s t entry route) t entry d slot rs).getD s
    | some m =>
      let rs := treeReceivers (smGet 0 entry (getTile s t).routes)
      let s := (rs.filter credits.contains).foldl (sendCredit t m) s
      match (getTile s t).streams.find? fun m => m.entry == entry with
      | none => s
      | some m =>
        let byCol := bitOf (smGet 0 entry (getTile s t).routes) 61
        if !m.loaded then s
        else match rs.filter fun r => !(granted s t m).contains r with
          | [] => sendGranule s t m byCol rs
          | [r] => holdStream s t m r
          | _ => modStream s t entry fun m => { m with heldBy := none }

/-- MCAST_LAG (R204): a receiver that has held the stream for more than the threshold, recorded once per stream and
receiver. -/
def opMcastLag (t entry receiver : Nat) (s : State) : State :=
  let th := getf s (tileR t 0x824) 31 0
  match (getTile s t).streams.find? fun m => m.entry == entry with
  | none => s
  | some m =>
    let n := match m.heldBy with
      | some (r, n, _) => if r = receiver then n else 0
      | none => 0
    if th = 0 ∨ n ≤ th ∨ m.lagged.contains receiver then s
    else
      let w := 2 ^ 31 + entry * 2 ^ 21 + receiver / 32 * 2 ^ 15 + receiver % 32 * 2 ^ 10
      let s := modStream s t entry fun m => { m with lagged := m.lagged ++ [receiver] }
      let s := if getb s (tileR t 0x828) 31 then s else setReg s (tileR t 0x828) (BitVec.ofNat 32 w)
      logEntry s 0 0x0405 t w

/-- TILE_STM_ARM. -/
def execTileStmArm (t : TileIx) (val : Word) (s : State) : Host.Outcome State Fault Refusal := .next (opTileStmArm t.val val s)
/-- TILE_STM_STOP. -/
def execTileStmStop (t : TileIx) (val : Word) (s : State) : Host.Outcome State Fault Refusal :=
  .next (opTileStmStop t.val val s)
/-- TILE_STM_RESERVE_WRITE. -/
def execTileStmReserveWrite (t : TileIx) (val : Word) (s : State) : Host.Outcome State Fault Refusal :=
  .next (opTileStmReserveWrite t.val val s)
/-- DIRECT_RESERVE_APPLIED. -/
def execDirectReserveApplied (t : TileIx) (s : State) : Host.Outcome State Fault Refusal :=
  .next (opDirectReserveApplied t.val s)
/-- GRANULE_TRANSFER_ISSUE. -/
def execGranuleTransferIssue (t : TileIx) (s : State) : Host.Outcome State Fault Refusal :=
  .next (opGranuleTransferIssue t.val s)
/-- GRANULE_ARRIVAL. -/
def execGranuleArrival (t : TileIx) (carrier : Carrier) (transfer : Nat) (s : State) : Host.Outcome State Fault Refusal :=
  .next (opGranuleArrival t.val carrier transfer s)
/-- ARMING_DONE. -/
def execArmingDone (t : TileIx) (ctx : BitVec 6) (s : State) : Host.Outcome State Fault Refusal :=
  .next (opArmingDone t.val ctx.toNat s)
/-- SHADOW_ARMING_ACTIVE. -/
def execShadowArmingActive (t : TileIx) (ctx : BitVec 6) (s : State) : Host.Outcome State Fault Refusal :=
  .next (opShadowActive t.val ctx.toNat s)
/-- LINK_RETRAIN_END. -/
def execLinkRetrainEnd (t : TileIx) (dir : Dir) (failedHalves : Nat) (lost : Bool) (s : State) :
    Host.Outcome State Fault Refusal :=
  .next (opLinkRetrainEnd t.val dir failedHalves lost s)
/-- MULTICAST_GRANULE_SEND. -/
def execMulticastGranuleSend (t : TileIx) (entry : BitVec 6) (route : DWord) (d : DescRef) (slot : BitVec 3) (credits : List Nat)
    (s : State) : Host.Outcome State Fault Refusal :=
  .next (opMulticastGranuleSend t.val entry.toNat route.toNat d slot.toNat credits s)
/-- MCAST_LAG. -/
def execMcastLag (t : TileIx) (entry : BitVec 6) (receiver : TileIx) (s : State) : Host.Outcome State Fault Refusal :=
  .next (opMcastLag t.val entry.toNat receiver.val s)

end Sys2Proof.Machine
end

