-- ==== Sys2Proof/Machine/Groups.lean ====
section
/-!
DEFINITION. Groups of tiles (R188 to R190, R482).
-/
namespace Sys2Proof.Machine
open Sys2Proof

/-! Choice of tiles. -/

/-- Hops between two tiles. -/
def tileHops (a b : Nat) : Nat :=
  (max (a / 32) (b / 32) - min (a / 32) (b / 32)) + (max (a % 32) (b % 32) - min (a % 32) (b % 32))

/-- The `n` members of a list nearest to a tile, the lower index of equals: a compact block around it. -/
def nearestTo (c : Nat) : Nat → List Nat → List Nat
  | 0, _ => []
  | n + 1, l => match l with
    | [] => []
    | h :: t =>
      let b := t.foldl (fun b x => if tileHops c x < tileHops c b then x else b) h
      b :: nearestTo c n (l.filter (· != b))

/-- The corner tile between the two edges on which the front-end cores lie; the manual does not say which corner it is. -/
def coreTile (k : Fin 4) : Nat := (if k.val % 2 = 0 then 0 else 32 * 35) + (if k.val < 2 then 0 else 31)

/-- Tiles that a group may take (R482). -/
def groupEligible (s : State) : List Nat :=
  allTiles.filter fun t => tileState s t == 0 && !tileOut s t && (getTile s t).retiring.isNone

/-- TILE_ID.STATE of a tile set. -/
def setTileState (s : State) (t st : Nat) : State := setf s (tileR t 0) 31 29 st

/-- An accepted submission that has not finished names the group (R190). -/
def groupNamed (s : State) (g : Nat) : Bool :=
  s.alms.any fun p => p.2.subs.any fun sb => !sb.finished && sb.descs.any fun x => dAffinity x == g

/-- A run without what it had placed or read on a tile. -/
def Run.leaves (r : Run) (t : Nat) : Run :=
  { r with tiles := r.tiles.filter (· != t), unitsPlaced := r.unitsPlaced.filter fun p => p.2 != t,
           runAhead := r.runAhead.filter fun p => p.2 != t }

/-- A tile without threads, units, output areas and streams. -/
def Tile.cleared (y : Tile) : Tile := y.without fun _ => true

/-- Units placed on a tile ahead of their descriptors' start leave it. -/
def leaveWaiting (s : State) (t : Nat) : State :=
  let s := mapRuns (fun _ _ _ _ r => if r.phase == .waiting && r.tiles.contains t then r.leaves t else r) s
  modTile s t fun y => y.without fun d => match findDesc s d with
    | some (_, _, r) => r.phase == .waiting
    | none => false

/-- A tile emptied of work that is not loop work: attempts leave it at their pass boundaries, and one that has no other
tile waits to be resumed elsewhere (R102, R190). -/
def emptyTile (s : State) (t : Nat) : State :=
  let now := s.cycle
  let s := mapRuns (fun _ _ _ x r =>
    if r.going && !dLoop x && r.tiles.contains t then
      let r := r.leaves t
      if r.tiles = [] ∧ !r.preempted then
        { r with preempted := true, stallElapsed := r.stallElapsed + (now - r.stallFrom) }
      else r
    else r) (leaveWaiting s t)
  modTile s t fun y => { y.cleared with preempt := false, loopDue := false }

/-- Pages pinned for a group on one tile moved to another, keeping tier and group (R482). -/
def moveGroupPages (s : State) (g t u : Nat) : State :=
  s.handles.foldl (fun s h =>
    match h.pin with
    | some p =>
      if p.group && p.affinity == g then
        (livePages h).foldl (fun s j =>
          let x := placeOf s h j
          if x.module = ownId s ∧ x.tile = t ∧ x.tier ≤ 1 then setPlace s h.id j { x with tile := u } else s) s
      else s
    | none => s) s

/-- A member of a group replaced, or removed where no substitute is given. -/
def replaceMember (s : State) (g t : Nat) (u : Option Nat) : State :=
  let l := groupTilesOf s g
  match u with
  | some u => moveGroupPages { s with groupTiles := smSet [] g (l.map fun x => if x = t then u else x) s.groupTiles } g t u
  | none => { s with groupTiles := smSet [] g (l.filter (· != t)) s.groupTiles }

/-- A tile that has become a loop tile leaves every non-loop group (R482). -/
def leaveGroups (s : State) (t : Nat) : State :=
  s.groupTiles.foldl (fun s p =>
    if loopGroup s p.1 ∨ !(groupTilesOf s p.1).contains t then s
    else
      let r := pickOne ((groupEligible s).filter fun u => !(groupTilesOf s p.1).contains u) s
      replaceMember r.2 p.1 t r.1) s

/-- A tile runs nothing that has begun: no pass of the array, no invocation of the vector engine. -/
def tileBetween (y : Tile) : Bool := y.passes.isEmpty && y.ve.running.isNone

/-- A tile that is to be a loop tile becomes one, once its last pass and invocation have ended (R190). -/
def settleLoop (s : State) (t : Nat) : State :=
  if (getTile s t).loopDue ∧ tileBetween (getTile s t) then leaveGroups (setTileState (emptyTile s t) t 1) t else s

/-- A tile enters a loop group: it issues no further pass, and is emptied at its pass boundary. -/
def becomeLoop (s : State) (t : Nat) : State :=
  settleLoop (modTile s t fun y => { y with preempt := true, loopDue := true }) t

/-- Every tile that waits to become a loop tile, looked at again. -/
def settleLoops (s : State) : State := (s.tiles.map (·.1)).foldl settleLoop s

/-- The group gives its loop tiles back and holds none. -/
def releaseGroup (s : State) (g : Nat) : State :=
  let s := if loopGroup s g then
      (groupTilesOf s g).foldl (fun s t =>
        if tileState s t = 1 then setTileState s t 0
        else if (getTile s t).loopDue then modTile s t fun y => { y with preempt := false, loopDue := false }
        else s) s
    else s
  { s with groupTiles := smSet [] g [] s.groupTiles }

/-- The tiles that a write taking effect gives its group, as one compact block: for a loop group the one nearest the
front-end cores (R189), for another one around a tile of the engine's own choice, or around the first tile of the list
that the command carries, which must be that block (R482). Around a tile a compact block is taken to be the tiles with
the fewest hops to it (DEDUCED, log entry 119). -/
def chooseTiles (s : State) (n : Nat) (loop : Bool) (given : Option (List Nat)) : Option (List Nat × State) :=
  let l := groupEligible s
  let k := min n l.length
  if loop then
    let ts := nearestTo (coreTile Config.coreCorner) k l
    if given = none ∨ given = some ts then some (ts, s) else none
  else match given with
    | none => let r := pickOne l s; some (nearestTo (r.1.getD 0) k l, r.2)
    | some ts => if ts = nearestTo (ts.headD 0) k l then some (ts, s) else none

/-- A write to CMN_GROUPg takes effect (R189, R190, R482); none where the choice of tiles is not one. -/
def groupEffect (s : State) (g v : Nat) (given : Option (List Nat)) : Option State :=
  let on := bitOf v 31
  let same := getb s (groupR g) 31 = on ∧ getb s (groupR g) 30 = bitOf v 30 ∧ getf s (groupR g) 10 0 = fld v 10 0
  let write := fun (s : State) =>
    { setReg s (groupR g) (BitVec.ofNat 32 (v &&& 0xC00007FF)) with groupHeld := s.groupHeld.filter fun p => p.1 != g }
  if on ∧ same then some (write s)
  else
    let s := write (releaseGroup s g)
    if !on then some s
    else match chooseTiles s (fld v 10 0) (bitOf v 30) given with
      | none => none
      | some (ts, s) =>
        let s := { s with groupTiles := smSet [] g ts s.groupTiles }
        some (if bitOf v 30 then ts.foldl becomeLoop s else s)

/-- TILES of every enabled loop group once all held writes have taken effect, with `v` for group `g` (R189). -/
def loopTotal (s : State) (g v : Nat) : Nat :=
  (List.range 256).foldl (fun n h =>
    let w := if h = g then v
      else match s.groupHeld.find? fun p => p.1 == h with
        | some p => p.2
        | none => (getReg s (groupR h)).toNat
    if h ≠ 0 ∧ fld w 31 30 = 3 then n + fld w 10 0 else n) 0

/-- CMN_GROUP_WRITE (R189, R190). -/
def opCmnGroupWrite (g : Nat) (val : Word) (s : State) : State :=
  let v := val.toNat
  if g = 0 ∨ 1024 < fld v 10 0 ∨ 512 < loopTotal s g v then s
  else if groupNamed s g then { s with groupHeld := (s.groupHeld.filter fun p => p.1 != g) ++ [(g, v)] }
  else (groupEffect s g v none).getD s

/-- HELD_GROUP_WRITE_EFFECT (R190): once no unfinished submission names the group. -/
def opHeldGroupWriteEffect (g : Nat) (tiles : List Nat) (s : State) : State :=
  match s.groupHeld.find? fun p => p.1 == g with
  | some p => if groupNamed s g then s else (groupEffect s g p.2 (some tiles)).getD s
  | none => s

/-- CMN_GROUP_WRITE. -/
def execCmnGroupWrite (g : BitVec 8) (val : Word) (s : State) : Host.Outcome State Fault Refusal :=
  .next (opCmnGroupWrite g.toNat val s)
/-- HELD_GROUP_WRITE_EFFECT. -/
def execHeldGroupWriteEffect (g : BitVec 8) (tiles : List Nat) (s : State) : Host.Outcome State Fault Refusal :=
  .next (opHeldGroupWriteEffect g.toNat tiles s)

end Sys2Proof.Machine
end

