-- ==== Sys2Proof/Machine/Sync.lean ====
section
/-!
DEFINITION. Flag writes, wakes and the wait-stall timer (R210 to R213, R223, R228 to R231), and twin mode (R247 to R252).
-/
namespace Sys2Proof.Machine
open Sys2Proof

/-! Flags. -/

/-- An addition that its sender may make: a host's only within its function's range (R213). -/
def addAllowed (s : State) (f : Nat) (a : FlagAdd) : Bool := match a.by_ with
  | .host fn => flagInRange s fn.val f
  | _ => true

/-- FLAG_UPDATE (R212, R213). -/
def opFlagUpdate (f : Nat) (host : Option (Fn × Word)) (adds : List FlagAdd) (s : State) : State :=
  flagUpdate s f (host.filter fun h => flagInRange s h.1.val f) (adds.filter (addAllowed s f))

/-- ALM_FLAG_WRITE (R211, R213). -/
def opAlmFlagWrite (fn : Fn) (f : Nat) (val : Word) (s : State) : State := opFlagUpdate f (some (fn, val)) [] s

/-- ALM_FLAG_ADD_WRITE (R211, R213). -/
def opAlmFlagAddWrite (fn : Fn) (f : Nat) (val : Word) (s : State) : State := opFlagUpdate f none [⟨val, .host fn⟩] s

/-! Wakes. -/

/-- WAKE_ARRIVAL (R223): the wake of a wait that held in an earlier cycle reaches the waiting tile. -/
def opWakeArrival (d : DescRef) (n : Nat) (s : State) : State :=
  match findDesc s d with
  | some (_, x, r) =>
    if r.phase = .waiting ∧ n < dWaits x ∧ ((r.heldAt n).any fun c => decide (c < s.cycle)) ∧ !r.woke.contains n then
      modRun s d fun r => { r with woke := r.woke ++ [n] }
    else s
  | none => s

/-- WAIT_REREGISTRATION (R223). -/
def opWaitReregistration (d : DescRef) (n : Nat) (s : State) : State :=
  match findDesc s d with
  | some (_, x, r) =>
    if r.phase = .waiting ∧ r.armed then modRun (registerWait s d n) d (markReady s.cycle (lockedCycle s) x) else s
  | none => s

/-! The wait-stall timer. -/

/-- Cycles of the timeout of R228 and R252. -/
def timeoutCycles (exp : Nat) : Nat := 1280 * 2 ^ min 26 exp

/-- The descriptor's timer runs: its predecessors have completed, a flag wait or its barrier wait has not held, and no
transit condition holds it back (R228). -/
def stallRuns (r : Run) (x : BitVec 1024) : Bool :=
  let barrier := dFamily x == 8 && dVariant x != 1
  (r.phase == .waiting && r.predsMet && (!waitsHeld x r || (barrier && dTransit x == 0))) ||
    (r.phase == .running && barrier && r.code == 0 && !r.preempted && !r.barReleased)

/-- What the report names: OBJECT and ALM_STALL_INFO. The first flag wait that has not held, else the barrier. -/
def stallReport (s : State) (x : BitVec 1024) (r : Run) : Nat × Nat :=
  match if r.phase = .waiting then (List.range (dWaits x)).find? fun n => !r.held n else none with
  | some n => (dWaitFlag x n, setterWord s (dWaitFlag x n))
  | none =>
    let b := fld (dFw x 0) 7 0
    (b, 2 ^ 31 + (getBar s b).count)

/-- WAIT_STALL (R228, R231). -/
def opWaitStall (d : DescRef) (s : State) : State :=
  match findDesc s d with
  | some (_, x, r) =>
    let a := d.alm.toNat
    let e := getf s (almR a 0x10) 25 21
    if e = 31 ∨ r.stallReported ∨ !stallRuns r x ∨ r.stallElapsed + (s.cycle - r.stallFrom) < timeoutCycles e then s
    else
      let rep := stallReport s x r
      let loc := d.pos.toNat * 2 ^ 32 + d.idx.toNat * 2 ^ 16 + rep.1
      let s := modRun s d fun r => { r with stallReported := true }
      let s := logEntry s 0 0x0503 loc (a * 2 ^ 32 + rep.2)
      let s := if getb s (almR a 0x20) 4 then s
        else setReg (set64 s (almR a 0x28) loc) (almR a 0x30) (BitVec.ofNat 32 rep.2)
      almEvent s a 4
  | none => s

/-! Twin mode. -/

/-- CMN_TWIN_ALM0 to 7. -/
def twinMaskRegs (s : State) : List Nat := (List.range 8).map fun i => getf s (0x609010 + 4 * i) 31 0

/-- Pairing judged on the masks that have come in from the partner (R248). -/
def twinJudge (s : State) : State :=
  match s.pool.twinHeard.find? fun e => e.1 == twinPartner s with
  | some (_, partner, masks) =>
    if twinState s ≠ 1 then s
    else poolChange s fun s =>
      if partner = ownId s ∧ masks = twinMaskRegs s then
        setf (setf s Reg.twinStatus 31 30 2) Reg.twinStatus 15 0 0
      else setf s Reg.twinStatus 15 0 0x0602
  | none => s

/-- TWIN_ENABLE: a write of CMN_TWIN_CTRL (R247, R248). A module whose ENABLE is cleared withdraws its masks: its partner
hears an empty list of them. -/
def opTwinEnable (val : Word) (s : State) : State :=
  let v := val.toNat
  let on := getb s Reg.twinCtrl 31
  let s := setf s Reg.twinCtrl 4 0 (fld v 4 0)
  if on then
    (if bitOf v 31 then s
     else poolChange (emit { s with pool := { s.pool with tallies := [] } } (.twinMasks (twinPartner s) [])) fun s =>
       setf (setb s Reg.twinCtrl 31 false) Reg.twinStatus 31 30 0)
  else
    let s := setf s Reg.twinCtrl 21 16 (fld v 21 16)
    if !bitOf v 31 then s
    else
      let s := set64 (set64 s Reg.twinDiverge 0) Reg.twinDivergeAt 0
      let s := poolChange s fun s => setf (setb s Reg.twinCtrl 31 true) Reg.twinStatus 31 30 1
      twinJudge (emit s (.twinMasks (twinPartner s) (twinMaskRegs s)))

/-- TWIN_MASKS_ARRIVAL (R248): a module's masks, or none when it has cleared its ENABLE. -/
def opTwinMasksArrival (source partner : Nat) (masks : List Nat) (s : State) : State :=
  let others := s.pool.twinHeard.filter fun e => e.1 != source
  twinJudge { s with pool := { s.pool with
    twinHeard := if masks = [] then others else others ++ [(source, partner, masks)] } }

/-- PARTNER_TALLY_ARRIVAL (R249 to R251): compared with this module's tally of the key, or kept until that is ready. -/
def opPartnerTallyArrival (d : DescRef) (parts : TallyParts) (s : State) : State :=
  if !getb s Reg.twinCtrl 31 then s
  else
    let keep := { dropTally s d with pool := { (dropTally s d).pool with tallies := (dropTally s d).pool.tallies ++ [(d, parts)] } }
    match findDesc s d with
    | some (sb, x, r) =>
      match r.parts with
      | some own =>
        if r.phase = .computed ∧ r.code = 0 ∧ r.twinSent.isSome ∧ !r.twinOk then
          toCommit (twinCompare s d sb x own parts) d
        else keep
      | none => keep
    | none => keep

/-- TWIN_PARTNER_LOST (R252): the timeout has run, or the partner has left the pool or cannot be reached. -/
def opTwinPartnerLost (d : DescRef) (s : State) : State :=
  match findDesc s d with
  | some (_, _, r) =>
    match r.twinSent with
    | some c =>
      let p := twinPartner s
      let gone := !(get64 s Reg.poolMembers).testBit p || s.pool.unreachable.any fun u => u.1 == p
      if r.phase ≠ .computed ∨ r.code ≠ 0 ∨ r.twinOk ∨ !isTwinned s d.alm.toNat ∨
          (!gone ∧ s.cycle < c + timeoutCycles (getf s Reg.twinCtrl 4 0)) then s
      else twinHalt (markFail s d 0x0603 0 0) d 0x0603 7 0 0
    | none => s
  | none => s

/-- FLAG_UPDATE. -/
def execFlagUpdate (f : BitVec 16) (host : Option (Fn × Word)) (adds : List FlagAdd) (s : State) :
    Host.Outcome State Fault Refusal :=
  .next (opFlagUpdate f.toNat host adds s)
/-- ALM_FLAG_WRITE. -/
def execAlmFlagWrite (fn : Fn) (f : BitVec 16) (val : Word) (s : State) : Host.Outcome State Fault Refusal :=
  .next (opAlmFlagWrite fn f.toNat val s)
/-- ALM_FLAG_ADD_WRITE. -/
def execAlmFlagAddWrite (fn : Fn) (f : BitVec 16) (val : Word) (s : State) : Host.Outcome State Fault Refusal :=
  .next (opAlmFlagAddWrite fn f.toNat val s)
/-- WAKE_ARRIVAL. -/
def execWakeArrival (d : DescRef) (wait : Bool) (s : State) : Host.Outcome State Fault Refusal :=
  .next (opWakeArrival d (b2n wait) s)
/-- WAIT_REREGISTRATION. -/
def execWaitReregistration (d : DescRef) (wait : Bool) (s : State) : Host.Outcome State Fault Refusal :=
  .next (opWaitReregistration d (b2n wait) s)
/-- WAIT_STALL. -/
def execWaitStall (d : DescRef) (s : State) : Host.Outcome State Fault Refusal := .next (opWaitStall d s)
/-- TWIN_ENABLE. -/
def execTwinEnable (val : Word) (s : State) : Host.Outcome State Fault Refusal := .next (opTwinEnable val s)
/-- TWIN_MASKS_ARRIVAL. -/
def execTwinMasksArrival (source partner : BitVec 6) (masks : List Word) (s : State) : Host.Outcome State Fault Refusal :=
  .next (opTwinMasksArrival source.toNat partner.toNat (masks.map (·.toNat)) s)
/-- PARTNER_TALLY_ARRIVAL. -/
def execPartnerTallyArrival (d : DescRef) (parts : TallyParts) (s : State) : Host.Outcome State Fault Refusal :=
  .next (opPartnerTallyArrival d parts s)
/-- TWIN_PARTNER_LOST. -/
def execTwinPartnerLost (d : DescRef) (s : State) : Host.Outcome State Fault Refusal := .next (opTwinPartnerLost d s)

end Sys2Proof.Machine
end

