-- ==== Sys2Proof/Machine/PlotPort.lean ====
section
/-!
DEFINITION. The port of a logical plot (R347, R348): requests of at most 64 bytes, up to 32 accepted at a time, and what
a plot that is not online answers.
-/
namespace Sys2Proof.Machine
open Sys2Proof

/-- PLT_STATUS.STATE (R342): 0 empty, 1 online, 2 draining, 3 offline, 4 loading, 5 loaded. -/
def plotState (s : State) (p : Nat) : Nat := getf s (pltR p 4) 31 29
/-- STATE set. -/
def setPlotState (s : State) (p v : Nat) : State := setf s (pltR p 4) 31 29 v
/-- PLT_STATUS.CODE set. -/
def plotCode (s : State) (p code : Nat) : State := setf s (pltR p 4) 15 0 code

/-- Bytes of an access. -/
def accLength : Access → Nat
  | .read n => n
  | .write l => l.length

/-- The answer to a host read of memory space. -/
def answer (s : State) (l : List Byte) : State := { s with host := { s.host with readBytes := l } }

/-- A host read's part answered: the parts of one access follow one another, and 0xFF stands past the handle's end (R268). -/
def answerPart (s : State) (q : PortReq) (l : List Byte) : State :=
  answer s ((if q.first then [] else s.host.readBytes) ++ l ++ List.replicate q.tail 0xFF)

/-- A request completed as for a plot that is not online (R347): a host read answers all ones, a host write is discarded
and DENIED is set; a descriptor fails. -/
def denyRequest (s : State) (p : Nat) (q : PortReq) : State :=
  match q.source, q.acc with
  | some d, _ => markFail s d 0x0A02 0 0
  | none, .read n => answerPart (setb s (pltR p 4) 26 true) q (List.replicate n 0xFF)
  | none, .write _ => setb s (pltR p 4) 26 true

/-- One to 64 bytes within one aligned granule of the window. -/
def validRequest (addr : Nat) (acc : Access) : Bool :=
  decide (1 ≤ accLength acc ∧ addr % 64 + accLength acc ≤ 64 ∧ addr + accLength acc ≤ 2 ^ 32)

/-- A request accepted by the port: the design sees a host's request now. -/
def acceptRequest (s : State) (p : Nat) (q : PortReq) : State :=
  let s := modPlot s p fun x => { x with accepted := x.accepted ++ [q] }
  if q.source.isNone then emit s (.plotRequest p q.addr q.acc) else s

/-- A request reaches a plot's port (R347, R348): a host's is accepted, waits in the host bridge's queue of 256, or is
denied; a tile's waits for a grant. -/
def portRequest (s : State) (p : Nat) (q : PortReq) : State :=
  let x := getPlot s p
  let hosts := x.waiting.filter fun w => w.source.isNone
  if !validRequest q.addr q.acc then s
  else if !plotServes s p then denyRequest s p q
  else if q.source.isNone ∧ x.waiting = [] ∧ x.accepted.length < 32 then acceptRequest s p q
  else if q.source.isNone ∧ 256 ≤ hosts.length then denyRequest s p q
  else modPlot s p fun x => { x with waiting := x.waiting ++ [q] }

/-- A handle names the address window of a plot of this module. -/
def ownPlot (s : State) (h : Handle) : Bool := h.kind == 1 && h.home == ownId s

/-- The view of a running descriptor through which bytes `addr` onward of a plot's window are reached in turn: addresses
rise within one use of the view, and a new use begins when the last has come to the handle's end (R168). -/
def windowSlot (s : State) (sb : Sub) (x : BitVec 1024) (r : Run) (p addr n : Nat) : Option Nat :=
  let sb := runViews sb x r
  ((usesOf x r.counts).map (·.view)).find? fun i => match sb.views[i]? with
    | some v => match findHandle s (vHandle v) with
      | some h =>
        let next := smGet 0 i r.windowNext
        ownPlot s h && h.plot == p && decide (h.winOffset ≤ addr) && decide (addr + n ≤ h.winOffset + h.size) &&
          (decide (next ≤ addr) || next == h.winOffset + h.size)
      | none => false
    | none => false

/-- PLOT_PORT_REQUEST: a descriptor's request is its running attempt's, in the order of R168. -/
def opPlotPortRequest (p : Nat) (source : Option DescRef) (addr : Nat) (acc : Access) (s : State) : State :=
  match source with
  | none => portRequest s p ⟨none, addr, acc, true, 0⟩
  | some d => match findDesc s d with
    | some (sb, x, r) =>
      if r.phase ≠ .running ∨ r.code ≠ 0 then s
      else match windowSlot s sb x r p addr (accLength acc) with
        | some v => portRequest (modRun s d fun r => { r with windowNext := smSet 0 v (addr + accLength acc) r.windowNext })
            p ⟨some d, addr, acc, true, 0⟩
        | none => s
    | none => s

/-- The tile that sends a request: the first of its descriptor's; the host bridge counts as 1152. -/
def requestTile (s : State) (q : PortReq) : Nat :=
  match q.source with
  | none => 1152
  | some d => match findDesc s d with
    | some (_, _, r) => r.tiles.headD 1152
    | none => 1152

/-- The request that is served next: the host's where it came first, else the oldest of the tile that follows the last
one served, in rotation (R348). -/
def nextRequest (s : State) (x : Plot) : Option PortReq :=
  match x.waiting with
  | [] => none
  | h :: t =>
    if h.source.isNone then some h
    else
      let turn := fun q => (requestTile s q + 1153 - x.lastTile % 1153 - 1) % 1153
      let tiles := (h :: t).filter fun q => q.source.isSome
      some (tiles.foldl (fun b q => if turn q < turn b then q else b) h)

/-- PLOT_PORT_GRANT (R348). -/
def opPlotPortGrant (p : Nat) (s : State) : State :=
  let x := getPlot s p
  if 32 ≤ x.accepted.length ∨ !plotServes s p then s
  else match nextRequest s x with
    | none => s
    | some q =>
      let t := requestTile s q
      let s := modPlot s p fun x => { x with waiting := x.waiting.erase q, lastTile := t }
      acceptRequest s p q

/-- PLOT_PORT_ACKNOWLEDGE (R347): the oldest accepted request completes; a host read takes what the design answers. -/
def opPlotPortAcknowledge (p : Nat) (s : State) : State :=
  match (getPlot s p).accepted with
  | [] => s
  | q :: rest =>
    let s := modPlot s p fun x => { x with accepted := rest }
    match q.source, q.acc with
    | none, .read n =>
      let s := answerPart s q ((List.range n).map fun i => Config.plotByte p s.free (q.addr + i))
      { s with free := s.free + 1 }
    | _, _ => s

/-- Every request that waits to be accepted is completed as for a plot that is not online (R348). -/
def denyWaiting (s : State) (p : Nat) : State :=
  let l := (getPlot s p).waiting
  l.foldl (fun s q => denyRequest s p q) (modPlot s p fun x => { x with waiting := [] })

/-- An access of the host split at granules and sent to the port (R347, R4). -/
def hostPieces : Nat → Nat → Nat → List (Nat × Nat)
  | 0, _, _ => []
  | k + 1, addr, n => if n = 0 then [] else
    let m := min n (64 - addr % 64)
    (addr, m) :: hostPieces k (addr + m) (n - m)

/-- A host's access to a plot's window, granule by granule; what the design answers comes with its acknowledgements, and
`tail` bytes past the handle's end follow. -/
def hostPlotAccess (s : State) (p addr : Nat) (acc : Access) (tail : Nat) : State :=
  let n := accLength acc
  (hostPieces n addr n).foldl (fun s q =>
    let part := match acc with
      | .read _ => .read q.2
      | .write bs => .write ((bs.drop (q.1 - addr)).take q.2)
    portRequest s p ⟨none, q.1, part, q.1 == addr, if q.1 + q.2 = addr + n then tail else 0⟩) s

/-- PLOT_PORT_REQUEST. -/
def execPlotPortRequest (p : PlotIx) (source : Option DescRef) (addr : Nat) (acc : Access) (s : State) :
    Host.Outcome State Fault Refusal :=
  .next (opPlotPortRequest p.toNat source addr acc s)
/-- PLOT_PORT_GRANT. -/
def execPlotPortGrant (p : PlotIx) (s : State) : Host.Outcome State Fault Refusal := .next (opPlotPortGrant p.toNat s)
/-- PLOT_PORT_ACKNOWLEDGE. -/
def execPlotPortAcknowledge (p : PlotIx) (s : State) : Host.Outcome State Fault Refusal :=
  .next (opPlotPortAcknowledge p.toNat s)

end Sys2Proof.Machine
end

