-- ==== Sys2Proof/Machine/Fabric.lean ====
section
/-!
DEFINITION. The logic ring (R326 to R341): logic cells, routing, DSP blocks, block RAMs, clock trees, I/O cells and border
cells. A zero frame configures nothing (R366), so only the frames that hold something are visited.
-/
namespace Sys2Proof.Machine
open Sys2Proof
open Sys2Proof.Config (Element Wire)

/-! Sites. -/

/-- PLT_STATUS.SITE. -/
def plotSite (s : State) (p : Nat) : Nat := getf s (pltR p 4) 25 20

/-- The logical plot at a site. -/
def sitePlot (s : State) (site : Nat) : Option Nat := (List.range 32).find? fun p => plotSite s p == site

/-- The plot is parked (R341, R342): only an online or a draining plot is not, and during a PLOT reset it is (R346). -/
def parked (s : State) (p : Nat) : Bool := !(plotState s p == 1 || plotState s p == 2) || (getPlot s p).releasing

/-- The flip-flops of a region run: the static region's after the full release, a site's while its plot is not parked
(R345, R379). -/
def regionRuns (s : State) (r : Nat) : Bool :=
  s.cfg.tilesReleased && (r == 63 || (sitePlot s r).any fun p => !parked s p)

/-- What a frame holds. -/
def frameAt (s : State) (f : Nat) : Nat := smGet 0 f s.cfg.frames

/-! Settings of an element, as the image gives them. -/

/-- A flip-flop's settings (R328): its tree, its data input taken past the LUT, its clock enable and its set-or-reset
input in use, that input asynchronous, the value it gives, the initial value. -/
structure FlopSet where
  tree : Nat
  bypass : Bool
  enable : Bool
  setReset : Bool
  async : Bool
  value : Bool
  init : Bool
  deriving DecidableEq, Repr

/-- A logic cell's settings (R328): its LUT's table, used as one function of 6 inputs or two of 5, its carry element in
use, subtracting, and its two flip-flops. -/
structure CellSet where
  table : Nat
  two : Bool
  carry : Bool
  subtract : Bool
  flop : Nat → FlopSet

/-- A flip-flop's settings from ten bits. -/
def flopSet (n : Nat) : FlopSet :=
  ⟨fld n 3 0, bitOf n 4, bitOf n 5, bitOf n 6, bitOf n 7, bitOf n 8, bitOf n 9⟩

/-- The settings of a logic cell. -/
def cellSet (s : State) (f i : Nat) : CellSet :=
  let n := Config.cellBits (frameKind f) i (frameAt s f)
  ⟨fld n 63 0, bitOf n 64, bitOf n 65, bitOf n 66, fun k => flopSet (fld n (79 + 10 * k) (70 + 10 * k))⟩

/-- A DSP block's settings (R330): pre-adder, subtraction, the 56-bit input in place of the product, the sum begun from the
block below, output shift, saturation width, tree. -/
structure DspSet where
  preAdd : Bool
  subtract : Bool
  wide : Bool
  cascade : Bool
  shift : Nat
  width : Nat
  tree : Nat
  deriving DecidableEq, Repr

/-- The settings of a DSP block. -/
def dspSet (s : State) (f i : Nat) : DspSet :=
  let n := Config.dspBits (frameKind f) i (frameAt s f)
  ⟨bitOf n 0, bitOf n 1, bitOf n 2, bitOf n 3, min 47 (fld n 9 4), max 8 (min 56 (fld n 15 10)), fld n 19 16⟩

/-- A block RAM port's settings (R331): bits of a word, 1, 8, 16, 32 or 64, and the tree. -/
structure RamSet where
  width : Nat
  tree : Nat
  deriving DecidableEq, Repr

/-- The settings of port `p` of a block RAM. -/
def ramSet (s : State) (f i p : Nat) : RamSet :=
  let n := fld (Config.ramBits (frameKind f) i (frameAt s f)) (8 * p + 7) (8 * p)
  ⟨match fld n 2 0 with
    | 0 => 1 | 1 => 8 | 2 => 16 | 3 => 32 | _ => 64, fld n 6 3⟩

/-- The block uses SECDED, in 512 × 64 mode only. -/
def ramSecded (s : State) (f i : Nat) : Bool :=
  bitOf (Config.ramBits (frameKind f) i (frameAt s f)) 16 && (ramSet s f i 0).width == 64 && (ramSet s f i 1).width == 64

/-- An I/O cell's settings. -/
def pinSet (s : State) (i : Nat) : Nat := Config.pinBits i (frameAt s (Config.pinFrame i))

/-! Lookup by a compound key. -/

/-- The value at a key, or a default. -/
def asGet {κ α : Type} [DecidableEq κ] (d : α) (k : κ) (l : List (κ × α)) : α := ((l.find? fun e => e.1 == k).map (·.2)).getD d

/-- The value at a key set. -/
def asSet {κ α : Type} [DecidableEq κ] (k : κ) (v : α) (l : List (κ × α)) : List (κ × α) := (k, v) :: l.filter fun e => e.1 != k

/-- The number whose bit `j` is `f j`, for `n` bits. -/
def gather (n : Nat) (f : Nat → Bool) : Nat := (List.range n).foldl (fun a j => a + b2n (f j) * 2 ^ j) 0

/-- A DSP block's stages. -/
def getDsp (s : State) (f i : Nat) : Dsp := asGet ⟨0, 0, 0, 0⟩ (f, i) s.fabric.dsps
/-- A block RAM port's output. -/
def getRamPort (s : State) (f i p : Nat) : RamPort := asGet ⟨0, false, false⟩ (f, i, p) s.fabric.ramPorts
/-- A pin's I/O cell. -/
def getIo (s : State) (i : Nat) : IoCell := asGet ⟨false, false, false, false, false, false, 0, 0⟩ i s.fabric.ios

/-! Pins and banks. -/

/-- A pin's owner (R369): a logical plot, 0x3F the static design, 0xFF nobody; a pin of no declaration has none. -/
def pinOwner (s : State) (i : Nat) : Nat := if s.cfg.declaration = [] then 0xFF else fld (dPinEntry s.cfg.declaration i) 7 0

/-- A pin's bank is live (R337). -/
def bankLive (s : State) (i : Nat) : Bool := getf s (0x204000 + 4 * (i / 24)) 31 30 == 3

/-- The park value that the loaded declaration gives a leaving position of a plot (R340, R371). -/
def parkOf (s : State) (p k : Nat) : Option Nat :=
  ((parksOf s.cfg.declaration).find? fun w => fld w 7 0 == p && fld w 23 8 == k).map fun w => fld w 25 24

/-- What a parked leaving signal shows: 0, 1, the held value, or high impedance. -/
def parkLevel (s : State) (p k : Nat) : Option Bool := match parkOf s p k with
  | some 0 => some false
  | some 1 => some true
  | some 2 => some (s.fabric.held.contains (p, k))
  | _ => none

/-! Signals. -/

/-- Saturation of an exact number to `w` bits. -/
def satTo (w : Nat) (v : Int) : Int := max (-2 ^ (w - 1)) (min (2 ^ (w - 1) - 1) v)

/-- A DSP block's output (R330): shifted right with ties to even, then saturated. -/
def dspResult (c : DspSet) (x : Dsp) : Int := satTo c.width (rneShift x.acc.toInt c.shift)

/-- One bit of a carry element: sum and carry out. -/
def carryBit (x y c : Bool) : Bool × Bool := (x ^^ y ^^ c, (x && y) || (x && c) || (y && c))

/-- The level of a signal: routing (R332), LUT and carry (R328), registers, blocks, pins (R337, R338) and borders (R334,
R340). The fuel bounds the depth of logic; what it does not reach is a combinational loop. -/
def level : Nat → State → Wire → Bool
  | 0, _, w => Config.loopLevel w
  | n + 1, s, w =>
    let input := fun e k => let m := Config.elemInput e k; level n s (.mux m.1 m.2)
    match w with
    | .zero => false
    | .mux f m =>
      let k := frameKind f
      let sel := fld (frameAt s f) (Config.muxLow k m + Config.muxWidth k m - 1) (Config.muxLow k m)
      if sel = 0 then false else level n s (Config.muxWire f m sel)
    | .lut f i h =>
      let c := cellSet s f i
      let bits := fun k => gather k (input (.cell f i))
      let x := if c.two then bitOf c.table (32 * h + bits 5) else bitOf c.table (bits 6)
      if c.carry then
        (carryBit x (input (.cell f i) (6 + h) ^^ c.subtract)
          (if h = 0 then match Config.cellBelow f i with
            | some b => level n s (.carry b.1 b.2 1)
            | none => c.subtract
           else level n s (.carry f i 0))).1
      else x
    | .carry f i h =>
      let c := cellSet s f i
      let bits := fun k => gather k (input (.cell f i))
      let x := if c.two then bitOf c.table (32 * h + bits 5) else bitOf c.table (bits 6)
      (carryBit x (input (.cell f i) (6 + h) ^^ c.subtract)
        (if h = 0 then match Config.cellBelow f i with
          | some b => level n s (.carry b.1 b.2 1)
          | none => c.subtract
         else level n s (.carry f i 0))).2
    | .flop f i k =>
      let c := (cellSet s f i).flop k
      if c.setReset && c.async && input (.cell f i) (10 + k) then c.value else s.fabric.flops.contains (f, i, k)
    | .dspOut f i b => (BitVec.ofInt 56 (dspResult (dspSet s f i) (getDsp s f i))).getLsbD b
    | .ramOut f i p b =>
      let x := getRamPort s f i p
      if b < 64 then x.data.getLsbD b else if b = 64 then x.corrected else x.uncorrectable
    | .pinIn i falling =>
      bankLive s i && (if bitOf (pinSet s i) 4 then (if falling then (getIo s i).inFall else (getIo s i).inRise)
        else Config.pinLevel i s.cycle falling)
    | .left site k => match sitePlot s site with
      | some p => if parked s p then (parkLevel s p k).getD false else input (.leave site k) 0
      | none => false
    | .entered site k => match sitePlot s site with
      | some p => !parked s p && input (.enter site k) 0
      | none => false
    | .meridian b => if b < 64 then bitOf (s.meridian.cycleNo * 2 ^ 24 + mtrPhase s) b else mtrState s == 2
    | .resetRequest site => (sitePlot s site).any fun p => (getPlot s p).resetRequest

/-- A logic depth that no path of the ring passes: more than its cells, multiplexers and carries in a row. -/
def depth : Nat := 2 ^ 40

/-- The level of input `k` of an element. -/
def inputOf (s : State) (e : Element) (k : Nat) : Bool := let m := Config.elemInput e k; level depth s (.mux m.1 m.2)

/-- `n` inputs of an element from `k` on, as a number. -/
def inputsOf (s : State) (e : Element) (k n : Nat) : Nat := gather n fun j => inputOf s e (k + j)

/-! Clocks (R333). -/

/-- PLL `i` is locked. -/
def pllLocked (s : State) (i : Nat) : Bool := getb s Reg.pll i

/-- Tree `t`'s source runs: a pin's while its bank is live, a PLL's output while the PLL is locked, CLK_REF250, INSTCLK. -/
def treeRuns (s : State) (t : Nat) : Bool :=
  let w := declNat s.cfg.declaration (0x10 + 4 * t) 4
  match fld w 7 0 with
  | 1 | 2 => getf s (0x204000 + 4 * fld w 15 8) 31 30 == 3
  | 3 => pllLocked s (fld w 9 8)
  | 4 | 5 => true
  | _ => false

/-- Tree `t` has a rising edge in this core cycle; CLK_REF250 has one in five. -/
def treeRises (s : State) (t : Nat) : Bool :=
  treeRuns s t && (if declNat s.cfg.declaration (0x10 + 4 * t) 1 = 4 then s.cycle % 5 == 0 else Config.treeEdge t s.cycle)

/-- A plot's clock gate of a tree is open (R333, R341, R345). -/
def gateOpen (s : State) (p : Nat) : Bool := !parked s p || (getPlot s p).releasing

/-- The elements of a region that tree `t` clocks see its edge. -/
def clocked (s : State) (f t : Nat) : Bool :=
  regionRuns s (f / 2 ^ 14) && (f / 2 ^ 14 == 63 || (sitePlot s (f / 2 ^ 14)).any (gateOpen s)) && treeRises s t

/-! One edge. -/

/-- A flip-flop's next value (R328). -/
def flopNext (s : State) (f i k : Nat) : Bool :=
  let c := (cellSet s f i).flop k
  let now := level depth s (.flop f i k)
  if !clocked s f c.tree then now
  else if c.setReset && inputOf s (.cell f i) (10 + k) then c.value
  else if c.enable && !inputOf s (.cell f i) (8 + k) then now
  else if c.bypass then inputOf s (.cell f i) (12 + k)
  else level depth s (.lut f i k)

/-- A number narrowed to the 56 bits of an accumulator. -/
def accOf (v : Int) : BitVec 56 := if -2 ^ 55 ≤ v ∧ v < 2 ^ 55 then BitVec.ofInt 56 v else Config.accOver v

/-- The factor that the multiplier takes from the pre-adder. -/
def factorOf (p : BitVec 25) : Int :=
  if -2 ^ 23 ≤ p.toInt ∧ p.toInt < 2 ^ 23 then p.toInt else (Config.wideFactor p).toInt

/-- A DSP block's next stages (R330). -/
def dspNext (s : State) (f i : Nat) : Dsp :=
  let c := dspSet s f i
  let x := getDsp s f i
  if !clocked s f c.tree then x
  else
    let num := fun k => sx 24 (inputsOf s (.dsp f i) k 24)
    let y := if c.wide then sx 56 (inputsOf s (.dsp f i) 72 56) else x.product.toInt
    let base := if c.cascade then match Config.dspBelow f i with
        | some b => (getDsp s b.1 b.2).acc.toInt
        | none => 0
      else x.acc.toInt
    { pre := BitVec.ofInt 25 (num 0 + if c.preAdd then num 24 else 0), b := BitVec.ofInt 24 (num 48)
      product := BitVec.ofInt 48 (factorOf x.pre * x.b.toInt)
      acc := accOf (base + if c.subtract then -y else y) }

/-- What port `p` of a block RAM does at an edge: the bit address of its word, its data, and whether it writes; none where
it sees no edge or is not enabled. -/
def ramUse (s : State) (f i p : Nat) : Option (Nat × Nat × Bool) :=
  let c := ramSet s f i p
  let e := Element.ram f i
  if clocked s f c.tree && inputOf s e (128 * p + 81) then
    some (inputsOf s e (128 * p) 15 * c.width % 32768, inputsOf s e (128 * p + 16) c.width, inputOf s e (128 * p + 80))
  else none

/-- A word of a block RAM, and the bits of it that an upset has flipped. -/
def ramWord (s : State) (f i w : Nat) : BitVec 64 × BitVec 72 :=
  (asGet 0 (f, i, w) s.fabric.rams, asGet 0 (f, i, w) s.fabric.flips)

/-- The number of bits set. -/
def ones (v : BitVec 72) : Nat := ((List.range 72).filter fun j => v.getLsbD j).length

/-- What a port reads (R331): the previous contents; with SECDED one flipped bit corrected and more than one signalled. -/
def ramRead (s : State) (f i w : Nat) : RamPort :=
  let x := ramWord s f i w
  let seen := x.1 ^^^ x.2.truncate 64
  if !ramSecded s f i then ⟨seen, false, false⟩
  else if ones x.2 ≤ 1 then ⟨x.1, ones x.2 == 1, false⟩
  else ⟨seen, false, true⟩

/-- A port's output after an edge. -/
def ramPortNext (s : State) (f i p : Nat) : RamPort :=
  match ramUse s f i p with
  | none => getRamPort s f i p
  | some (at_, _, writes) =>
    if writes then ⟨Config.ramWritten f i p s.cycle, false, false⟩
    else
      let x := ramRead s f i (at_ / 64)
      { x with data := (x.data >>> (at_ % 64)) &&& BitVec.ofNat 64 (2 ^ (ramSet s f i p).width - 1) }

/-- A port writes bit `b` of the block, and what. -/
def ramBit (s : State) (f i p b : Nat) : Option Bool :=
  match ramUse s f i p with
  | some (at_, v, true) => if at_ ≤ b ∧ b < at_ + (ramSet s f i p).width then some (bitOf v (b - at_)) else none
  | _ => none

/-- A bit of a block RAM after an edge (R331): port A's value stands over port B's on a common clock. -/
def ramBitNext (s : State) (f i b : Nat) (old : Bool) : Bool :=
  match ramBit s f i 0 b, ramBit s f i 1 b with
  | some x, some _ => if (ramSet s f i 0).tree = (ramSet s f i 1).tree then x else Config.ramRace f i b
  | some x, none => x
  | none, some y => y
  | none, none => old

/-- The words of a block that its ports write at this edge. -/
def ramTouched (s : State) (f i : Nat) : List Nat :=
  ([0, 1].filterMap fun p => match ramUse s f i p with
    | some (at_, _, true) => some (at_ / 64)
    | _ => none).eraseDups

/-- A word after an edge, with the flips that remain: a bit that is written is right again. -/
def ramWordNext (s : State) (f i w : Nat) : BitVec 64 × BitVec 72 :=
  let x := ramWord s f i w
  let put := fun j => (ramBit s f i 0 (64 * w + j)).isSome || (ramBit s f i 1 (64 * w + j)).isSome
  (BitVec.ofNat 64 (gather 64 fun j => ramBitNext s f i (64 * w + j) (x.1.getLsbD j)),
   if (List.range 64).all put then 0
   else BitVec.ofNat 72 (gather 72 fun j => x.2.getLsbD j && !(decide (j < 64) && put j)))

/-- A delay one tap nearer to its goal (R338). -/
def tapNext (now goal : Nat) : Nat := if now < goal then now + 1 else if goal < now then now - 1 else now

/-- An I/O cell's next registers and taps (R337, R338): in a bank that is not live they keep their state. -/
def ioNext (s : State) (i : Nat) : IoCell :=
  let x := getIo s i
  let owner := pinOwner s i
  let region := if owner = 0x3F then 63 else plotSite s owner
  if owner = 0xFF ∨ !bankLive s i ∨ !regionRuns s region ∨ !treeRises s (fld (pinSet s i) 3 0) then x
  else
    let e := Element.pin i
    { inRise := Config.pinLevel i s.cycle false, inFall := Config.pinLevel i s.cycle true
      outRise := inputOf s e 0, outFall := inputOf s e 1, triRise := inputOf s e 2, triFall := inputOf s e 3
      inTaps := tapNext x.inTaps (inputsOf s e 4 9), outTaps := tapNext x.outTaps (inputsOf s e 13 9) }

/-- The elements that lie in the frames that hold something. -/
def inFrames (s : State) (f : Nat → List Nat) : List (Nat × Nat) :=
  s.cfg.frames.flatMap fun e => (f (frameKind e.1)).map fun i => (e.1, i)

/-- The logic ring over one core cycle: every element from the levels before the edge. -/
def fabricCycle (s : State) : State :=
  if s.cfg.frames = [] ∨ !s.cfg.tilesReleased then s
  else
    let cells := inFrames s Config.frameCells
    let dsps := inFrames s Config.frameDsps
    let rams := inFrames s Config.frameRams
    let words := rams.flatMap fun e => (ramTouched s e.1 e.2).map fun w => (e.1, e.2, w)
    let s' := { s with fabric := { s.fabric with
      flops := cells.flatMap fun e => [0, 1].filterMap fun k => if flopNext s e.1 e.2 k then some (e.1, e.2, k) else none
      dsps := dsps.map fun e => (e, dspNext s e.1 e.2)
      rams := words.foldl (fun l w => asSet w (ramWordNext s w.1 w.2.1 w.2.2).1 l) s.fabric.rams
      flips := words.foldl (fun l w => asSet w (ramWordNext s w.1 w.2.1 w.2.2).2 l) s.fabric.flips
      ramPorts := rams.flatMap fun e => [0, 1].map fun p => ((e.1, e.2, p), ramPortNext s e.1 e.2 p)
      ios := (List.range 288).map fun i => (i, ioNext s i) } }
    (Config.ramUpsets s.cycle).foldl (fun s u => { s with fabric := { s.fabric with
      flips := asSet (u.1, u.2.1, u.2.2.1) (asGet 0 (u.1, u.2.1, u.2.2.1) s.fabric.flips ^^^ u.2.2.2) s.fabric.flips } }) s'

/-! Initial values and parking. -/

/-- A region's flip-flops at their initial values and its accumulators 0 (R328, R345, R346); with `rams`, its block RAMs
at their image contents too. -/
def initRegion (s : State) (r : Nat) (rams : Bool) : State :=
  let out := fun f : Nat => f / 2 ^ 14 != r
  let fs := s.cfg.frames.filter fun e => !out e.1
  let of_ := fun g : Nat → List Nat => fs.flatMap fun e => (g (frameKind e.1)).map fun i => (e.1, i)
  let fab := s.fabric
  let fab := { fab with
    flops := (fab.flops.filter fun x => out x.1) ++ (of_ Config.frameCells).flatMap fun e =>
      [0, 1].filterMap fun k => if ((cellSet s e.1 e.2).flop k).init then some (e.1, e.2, k) else none
    dsps := fab.dsps.filter fun x => out x.1.1
    ios := fab.ios.filter fun x => (if pinOwner s x.1 = 0x3F then 63 else plotSite s (pinOwner s x.1)) != r }
  let fab := if !rams then fab else { fab with
    rams := (fab.rams.filter fun x => out x.1.1) ++ (of_ Config.frameRams).flatMap fun e =>
      (List.range 512).map fun w => ((e.1, e.2, w), Config.ramInit (frameKind e.1) e.2 (frameAt s e.1) w)
    flips := fab.flips.filter fun x => out x.1.1
    ramPorts := fab.ramPorts.filter fun x => out x.1.1 }
  { s with fabric := fab }

/-- Every region at its initial values, as the full release finds it (R376, R379). -/
def initAll (s : State) : State :=
  (63 :: List.range 34).foldl (fun s r => initRegion s r true) { s with fabric := Fabric.reset }

/-- The border cells of a plot that is about to be parked take the values they will hold (R340). -/
def holdLeaving (s : State) (p : Nat) : State :=
  if parked s p then s
  else
    let ks := (parksOf s.cfg.declaration).filterMap fun w =>
      if fld w 7 0 = p ∧ fld w 25 24 = 2 ∧ inputOf s (.leave (plotSite s p) (fld w 23 8)) 0 then some (p, fld w 23 8) else none
    { s with fabric := { s.fabric with held := (s.fabric.held.filter fun e => e.1 != p) ++ ks } }

/-! What the pins show. -/

/-- User I/O is live (R376, R379): the full release has come. -/
def userIoLive (s : State) : Bool := s.power.pwrOk && s.cfg.tilesReleased

/-- What the module drives on a user I/O pin (R30, R337, R340, R341, R376): nothing while its bank is not live, while no
design owns it, or where a park value or the design leaves it. -/
def pinDrive (s : State) (i : Nat) (falling : Bool) : Option Bool :=
  let owner := pinOwner s i
  let x := getIo s i
  let own := if (if falling then x.triFall else x.triRise) then none else some (if falling then x.outFall else x.outRise)
  if !userIoLive s ∨ !bankLive s i then none
  else if owner = 0x3F then own
  else if owner < 32 then
    (if parked s owner then (if parkLevel s owner (2 * i + 1) = some true then parkLevel s owner (2 * i) else none) else own)
  else none

/-- The pull or keeper of a user I/O pin (R337, R369, R376): 0 none, 1 down, 2 up, 3 keeper. Before the release LOAD_PULL
pulls each bank whose VIO is present; after it a bank that is not live has none. -/
def pinPull (s : State) (i : Nat) : Nat :=
  if !s.power.pwrOk then 0
  else if !s.cfg.tilesReleased then
    (if getf s (0x204000 + 4 * (i / 24)) 15 0 < 300 then 0 else fld s.cfg.loadPull (2 * (i / 24) + 1) (2 * (i / 24)))
  else if !bankLive s i then 0
  else match smGet 0 i s.cfg.pins with
    | 0 => if s.cfg.declaration = [] then 0 else fld (dPinEntry s.cfg.declaration i) 21 20
    | w => fld w 29 28

end Sys2Proof.Machine
end

