-- ==== Sys2Proof/Machine/HostLink.lean ====
section
/-!
DEFINITION. The PCIe link and functions (R255 to R265), handle windows (R266 to R268) and the pool aperture.
-/
namespace Sys2Proof.Machine
open Sys2Proof

/-- CMN_POOL_STATUS.STATE: 0 unformed, 1 forming, 2 formed, 3 leaving, 4 left, 5 isolated. -/
def poolState (s : State) : Nat := getf s Reg.poolStatus 63 61

/-- The module at a POOL_ID is a member. -/
def isMember (s : State) (m : Nat) : Bool := (get64 s Reg.poolMembers).testBit m

/-! Configuration space (R255 to R257, R260, R261). -/

/-- The capabilities that R255 lists. -/
inductive Capability where
  | powerManagement | pciExpress | msix | aer | sriov | ari | doe | secondaryPciExpress | physicalLayer16
  | physicalLayer32 | physicalLayer64 | laneMargining | dataLinkFeature | deviceSerialNumber
  deriving DecidableEq, Repr

/-- The capabilities of a function: DOE on the physical function alone (R255); a virtual function has no SR-IOV of its own
(PRESUMED). Those of the features of R256 are not among them, so their fields read as not supported. -/
def capabilities (fn : Nat) : List Capability :=
  [.powerManagement, .pciExpress, .msix, .aer] ++ (if fn = 0 then [.sriov, .doe] else []) ++
    [.ari, .secondaryPciExpress, .physicalLayer16, .physicalLayer32, .physicalLayer64, .laneMargining,
     .dataLinkFeature, .deviceSerialNumber]

/-- A field that the host only reads: Device ID, class code, No_Soft_Reset, the largest Max Payload Size and Max Read
Request Size in bytes, 10-bit and 14-bit tags as requester and completer, TotalVFs, First VF Offset, VF Stride, and the
size of a BAR as a power of two (0: not implemented) with its prefetchable bit (R255, R257, R260, R261). -/
inductive CfgInfo where
  | deviceId | classCode | noSoftReset | payloadMax | readRequestMax | tagBits | totalVfs | firstVfOffset | vfStride
  | barLog2 (bar : Nat) | barPrefetchable (bar : Nat)
  deriving DecidableEq, Repr

/-- What configuration space answers for a read-only field of a function. -/
def configInfo (s : State) (fn : Nat) : CfgInfo → Nat
  | .deviceId => if fn = 0 then 0xB152 else 0xB153
  | .classCode => 0x120000
  | .noSoftReset => 1
  | .payloadMax => 512
  | .readRequestMax => 4096
  | .tagBits => 14
  | .totalVfs => 16
  | .firstVfOffset => if s.host.ari then 1 else 8
  | .vfStride => 1
  | .barLog2 b => if b = 0 then 26 else if b = 2 then (if fn = 0 then 37 else 32) else 0
  | .barPrefetchable b => b2n (b == 2)

/-- Place of a field that the host writes. -/
def cfgIndex : CfgField → Nat
  | .bar0 => 0
  | .bar2 => 1
  | .vfBar0 => 2
  | .vfBar2 => 3
  | .maxPayload => 4
  | .maxReadRequest => 5
  | .tags => 6
  | .aerCorrected => 7

/-- A field that the host writes, as it stands; the sizes' encodings reset to 0 and 2, 128 and 512 bytes (PRESUMED). -/
def configField (s : State) (fn : Nat) (f : CfgField) : Nat :=
  smGet (if f = .maxReadRequest then 2 else 0) (16 * fn + cfgIndex f) s.host.config

/-- The bits of a field that the host can write: an address above the BAR's size, a payload of at most 512 bytes, a read
request of at most 4,096. -/
def configKeeps (fn : Nat) (f : CfgField) (v : Nat) : Nat := match f with
  | .bar0 | .vfBar0 => v / 2 ^ 26 * 2 ^ 26
  | .bar2 => v / 2 ^ (if fn = 0 then 37 else 32) * 2 ^ (if fn = 0 then 37 else 32)
  | .vfBar2 => v / 2 ^ 32 * 2 ^ 32
  | .maxPayload => min 2 (v % 8)
  | .maxReadRequest => min 5 (v % 8)
  | .tags => v % 4
  | .aerCorrected => v

/-- A field set. -/
def setConfig (s : State) (fn : Nat) (f : CfgField) (v : Nat) : State :=
  { s with host := { s.host with
    config := smSet (if f = .maxReadRequest then 2 else 0) (16 * fn + cfgIndex f) v s.host.config } }

/-- One write into a function's configuration space; a bit of AER's corrected-error status is cleared by writing 1. -/
def configWrite (fn : Nat) (s : State) (w : CfgField × Nat) : State :=
  if w.1 = .aerCorrected then setConfig s fn w.1 (configField s fn w.1 &&& (2 ^ 16 - 1 - w.2 % 2 ^ 16))
  else setConfig s fn w.1 (configKeeps fn w.1 w.2)

/-- Bytes of the largest read that the module sends: as the host has programmed it (R255). -/
def ownReadMax (s : State) : Nat := 128 * 2 ^ configField s 0 .maxReadRequest

/-- The module's BAR2 base, bits [63:37] (R276). -/
def bar2Base (s : State) : Nat := configField s 0 .bar2 / 2 ^ 37 % 2 ^ 27

/-- LINK_SETTLED (R36, R258, R259): SPEED, WIDTH and FLIT, once ROM boot has ended; below 8 GT/s or ×8 only the recovery
personality is served, its virtual functions absent, and below 64 GT/s ×16 LINK_DEGRADED is recorded. With it come the
replays and the corrected errors that the link has met since it last settled. -/
def opLinkSettled (speed width : Nat) (flit : Bool) (replays corrected : Nat) (s : State) : State :=
  if !s.power.romBooted then s
  else
    let s := setb (setf (setf s Reg.hostLink 27 24 speed) Reg.hostLink 23 19 width) Reg.hostLink 28 flit
    let s := setf s Reg.hostLink 15 0 (min 0xFFFF (getf s Reg.hostLink 15 0 + replays))
    let s := setConfig s 0 .aerCorrected (configField s 0 .aerCorrected ||| corrected)
    let bad := speed < 3 ∨ width < 8
    let s := { s with host := { s.host with degraded := decide bad, vfActive := s.host.vfActive && !decide bad } }
    let s := if bad then setPersonality s false else s
    if bad ∨ speed < 6 ∨ width < 16 then logEntry s 0 0x080C (ownId s) 0 else s

/-- D_STATE_CHANGE (R257), with what the host writes beside it into the function's configuration space. -/
def opDStateChange (fn : Nat) (d3 : Bool) (writes : List (CfgField × Nat)) (s : State) : State :=
  let l := s.host.d3hot.filter (· != fn)
  let s := { s with host := { s.host with d3hot := if d3 then l ++ [fn] else l } }
  writes.foldl (configWrite fn) s

/-- ATOMICOP_REQUEST (R256). -/
def opAtomicopRequest (s : State) : State := emit s .unsupportedRequest

/-! Vectors. -/

/-- Vectors of a function (R263). -/
def vectorCount (fn : Nat) : Nat := if fn = 0 then 265 else 256

/-- The source of a vector still has its pending condition (R264). A change of the pool, the twin or PERSONALITY is an
event with no status to clear, so its condition stands until its message is sent (DEDUCED). -/
def vectorCond (fn vec : Nat) (s : State) : Bool :=
  if vec < 256 then almOwner s vec == fn && almCond vec s
  else if fn ≠ 0 then false
  else if vec = 256 then mgmtCond s || s.host.personalityMsg
  else if vec = 257 then logCond s
  else if vec = 258 then alertCond s
  else if vec = 259 then laneCond s
  else if vec = 260 then true
  else dieCond (vec - 261) s

/-- The Vector Control word of a vector written: its mask bit, and the held message of a vector that has become unmasked
(R264). -/
def writeMask (fn vec : Nat) (masked : Bool) (s : State) : State :=
  let s := { s with host := { s.host with
    msix := smSet 1 (msixKey fn (vec * 4 + 3)) (BitVec.ofNat 32 (b2n masked)) s.host.msix } }
  if masked ∨ !msixPending s fn vec then s
  else
    let go := vectorCond fn vec s
    let s := setMsixPending s fn vec false
    let s := if vec = 256 ∧ fn = 0 then { s with host := { s.host with personalityMsg := false } } else s
    if go then msix s fn vec else s

/-- VECTOR_UNMASK (R264). -/
def opVectorUnmask (fn vec : Nat) (s : State) : State :=
  if vectorCount fn ≤ vec ∨ s.host.d3hot.contains fn then s else writeMask fn vec false s

/-! Handle windows. -/

/-- Windows of a function (R266). -/
def windowCount (fn : Nat) : Nat := if fn = 0 then 256 else 16

/-- OFFSET of a window. -/
def winOffset (s : State) (fn w : Nat) : Nat := get64 s (winR fn w 8) % 2 ^ 48

/-- WINDOW_ENABLE: a write of CMN_WIN_CTRL (R267, R268). -/
def opWindowEnable (fn w : Nat) (val : Word) (s : State) : State :=
  let r := winR fn w 4
  if windowCount fn ≤ w then s
  else
    let on := getb s r 31
    let s := setb (plainWrite s r val) r 31 (on && val.getLsbD 31)
    if on ∨ !val.getLsbD 31 then s
    else match openHandle s fn (getf s (winR fn w 0) 31 0) with
      | none => setf s r 15 0 0x0303
      | some h => if h.size ≤ winOffset s fn w then setf s r 15 0 0x0302 else setb (setf s r 15 0 0) r 31 true

/-- What an access to bytes `off` onward of a bound handle does to the window's status: OVERRUN and LOST. -/
def windowMarks (s : State) (r : Nat) (h : Handle) (off n : Nat) : State :=
  let s := if h.size < off + n then setb s r 17 true else s
  if (List.range n).any fun i => decide (off + i < h.size) && byteLost h (off + i) then setb s r 18 true else s

/-- A read through a bound window: lost bytes and bytes past the end read 0xFF (R268). -/
def windowRead (s : State) (h : Handle) (off n : Nat) : List Byte × State :=
  ((List.range n).map fun i => if h.size ≤ off + i ∨ byteLost h (off + i) then 0xFF else handleByte s h (off + i),
    if isWindow h then { s with free := s.free + 1 } else s)

/-- A read of memory space answered: one that meets an uncorrectable granule is completed with Completer Abort (R401). -/
def hostRead (s : State) (h : Handle) (off n : Nat) : State :=
  match badGranule s h.id off (min n (h.size - off)) with
  | some g => emit (uncorrectable s h (64 * g)) .completerAbort
  | none => let a := windowRead s h off n; answer a.2 a.1

/-- A write through a bound window: bytes past the end and in lost pages are discarded, and so are those of an
uncorrectable granule that the write covers only in part (R402). -/
def windowWrite (s : State) (h : Handle) (off : Nat) (bs : List Byte) : State :=
  let bs := bs.take (h.size - off)
  let n := bs.length
  let bad := fun i => s.lpddr.badGranules.any fun g => g.1 == h.id && g.2 == i / 64 && !wholeGranule h off n g.2
  let s' := match badPart s h off n with
    | some g => uncorrectable s h (64 * g)
    | none => s
  if rangeLost h off (off + n - 1) ∨ (badPart s h off n).isSome then
    bs.zipIdx.foldl (fun s p =>
      if byteLost h (off + p.2) || bad (off + p.2) then s else handleWrite s h (off + p.2) [p.1]) s'
  else handleWrite s h off bs

/-- Some byte of a range lies in a page that is being copied (R197). -/
def pageHeld (s : State) (h : Handle) (off n : Nat) : Bool :=
  s.copies.any fun c => c.handle == h.id && decide (off / pageBytes ≤ c.page) && decide (c.page ≤ (off + n - 1) / pageBytes) &&
    decide (c.page < pagesOf h.size)

/-- WINDOW_ACCESS (R197, R257, R265, R268). -/
def opWindowAccess (fn w y : Nat) (acc : Access) (s : State) : State :=
  let n := accLength acc
  let r := winR fn w 4
  let ones := fun (s : State) => match acc with
    | .read n => answer s (List.replicate n 0xFF)
    | .write _ => s
  if n = 0 ∨ 4096 < n ∨ windowCount fn ≤ w ∨ s.host.d3hot.contains fn then s
  else if !isNormal s then ones s
  else
    let denied := match acc with
      | .write _ => getb s r 30
      | .read _ => false
    let s := if denied then setb s r 16 true else s
    match if getb s r 31 then findHandle s (getf s (winR fn w 0) 31 0) else none with
    | none => ones (setb s r 17 true)
    | some h =>
      let off := winOffset s fn w + y
      if pageHeld s h off n then
        { s with host := { s.host with waiting := s.host.waiting ++ [(fn, w, y, acc)] } }
      else
      let s := windowMarks s r h off n
      let inside := min n (h.size - off)
      if ownPlot s h then
        (if inside = 0 then ones s else match acc with
          | .read _ => hostPlotAccess s h.plot (h.winOffset + off) (.read inside) (n - inside)
          | .write l => if denied then s else hostPlotAccess s h.plot (h.winOffset + off) (.write (l.take inside)) 0)
      else match acc with
      | .read n => hostRead s h off n
      | .write l => if denied then s else windowWrite s h off l

/-- APERTURE_REQUEST (R265, R266): a member's request to a formed member is served; any other, and one that names no bytes
of a live handle, is completed with Unsupported Request. In the recovery personality BAR2 reads all ones. -/
def opApertureRequest (from_ : Option Nat) (id off : Nat) (acc : Access) (s : State) : State :=
  let mine := poolState s == 2 || poolState s == 3
  let known := match from_ with
    | some m => isMember s m && m != ownId s
    | none => false
  if !isNormal s then (match acc with
    | .read n => answer s (List.replicate n 0xFF)
    | .write _ => s)
  else match findHandle s id with
  | some h =>
    if !mine ∨ !known ∨ h.size < off + accLength acc then emit s .unsupportedRequest
    else if ownPlot s h then hostPlotAccess s h.plot (h.winOffset + off) acc 0
    else match acc with
      | .read n => hostRead s h off n
      | .write l => windowWrite s h off l
  | none => emit s .unsupportedRequest

/-- LINK_SETTLED. -/
def execLinkSettled (speed : BitVec 4) (width : BitVec 5) (flit : Bool) (replays : Nat) (corrected : BitVec 16)
    (s : State) : Host.Outcome State Fault Refusal :=
  .next (opLinkSettled speed.toNat width.toNat flit replays corrected.toNat s)
/-- D_STATE_CHANGE. -/
def execDStateChange (fn : Fn) (d3hot : Bool) (writes : List (CfgField × DWord)) (s : State) :
    Host.Outcome State Fault Refusal :=
  .next (opDStateChange fn.val d3hot (writes.map fun w => (w.1, w.2.toNat)) s)
/-- ATOMICOP_REQUEST: every function completes it alike. -/
def execAtomicopRequest (_ : Fn) (s : State) : Host.Outcome State Fault Refusal := .next (opAtomicopRequest s)
/-- VECTOR_UNMASK. -/
def execVectorUnmask (fn : Fn) (vec : BitVec 9) (s : State) : Host.Outcome State Fault Refusal :=
  .next (opVectorUnmask fn.val vec.toNat s)
/-- WINDOW_ENABLE. -/
def execWindowEnable (fn : Fn) (w : BitVec 8) (val : Word) (s : State) : Host.Outcome State Fault Refusal :=
  .next (opWindowEnable fn.val w.toNat val s)
/-- WINDOW_ACCESS. -/
def execWindowAccess (fn : Fn) (w : BitVec 8) (y : BitVec 28) (acc : Access) (s : State) :
    Host.Outcome State Fault Refusal :=
  .next (opWindowAccess fn.val w.toNat y.toNat acc s)
/-- APERTURE_REQUEST. -/
def execApertureRequest (requester : Option (BitVec 6)) (handle : Word) (offset : Nat) (acc : Access) (s : State) :
    Host.Outcome State Fault Refusal :=
  .next (opApertureRequest (requester.map (·.toNat)) handle.toNat offset acc s)

end Sys2Proof.Machine
end

