-- ==== Sys2Proof/Machine/Migration.lean ====
section
/-!
DEFINITION. Migration epochs and page remaps (R195 to R197).
-/
namespace Sys2Proof.Machine
open Sys2Proof

/-! Access counts (R195). -/

/-- An epoch's counts of a page: what the module has counted, and what the command adds for the reads that no command
shows. -/
def pageTotals (s : State) (counts : List PageCount) (id page : Nat) : List (Nat × Nat) × List (Nat × Nat) :=
  let k := pageKey id page
  let add := fun (l : List (Nat × Nat)) (p : Nat × Nat) =>
    if l.any fun q => q.1 == p.1 then l.map fun q => if q.1 = p.1 then (q.1, q.2 + p.2) else q else l ++ [p]
  let c := counts.find? fun c => c.handle.toNat == id && c.page == page
  (((c.map (·.byTile)).getD []).foldl add (smGet [] k s.engine.byTile),
   ((c.map (·.byModule)).getD []).foldl add (smGet [] k s.engine.byModule))

/-- The pages with some access in the epoch, in the order of their places. -/
def countedPages (s : State) (counts : List PageCount) : List (Nat × Nat) :=
  s.handles.flatMap fun h => ((livePages h).filter fun j =>
    let r := pageTotals s counts h.id j
    r.1 != [] || r.2 != []).map fun j => (h.id, j)

/-- PROMOTE × 64 accesses. -/
def promoteAt (s : State) : Nat := 64 * max 1 (getf s Reg.placePolicy 7 0)

/-- The entry of a list with the most accesses, the first listed of equals. -/
def hotTile (l : List (Nat × Nat)) : Option (Nat × Nat) :=
  match l with
  | [] => none
  | p :: t => some (t.foldl (fun b q => if b.2 < q.2 then q else b) p)

/-- Promotion of one page (R195): toward the tile with the most accesses, one tier up, where room is or can be made. -/
def promotePage (byTile : List (Nat × Nat)) (s : State) (p : Nat × Nat) : State :=
  if !getb s Reg.placePolicy 31 ∨ !mayMigrate s p.1 p.2 then s
  else match findHandle s p.1, hotTile byTile with
    | some h, some (t, n) =>
      let x := placeOf s h p.2
      if n < promoteAt s ∨ x.tier = 0 ∨ !inService s t then s
      else match makeRoom s (x.tier - 1) t with
        | some s => startCopy s none h.id p.2 ⟨ownId s, x.tier - 1, t⟩
        | none => s
    | _, _ => s

/-- The modules that met the cross-module condition on a page in this epoch (R195). -/
def remoteHot (s : State) (byModule : List (Nat × Nat)) : List Nat :=
  let own := ((byModule.find? fun p => p.1 == ownId s).map (·.2)).getD 0
  (byModule.filter fun p => p.1 != ownId s && decide (promoteAt s ≤ p.2) &&
    decide (max 2 (getf s Reg.placePolicy 15 8) * own ≤ p.2)).map (·.1)

/-- The consecutive epochs in which each module has met the condition on a page, this one included. -/
def remoteRuns (s : State) (old : List (Nat × List (Nat × Nat))) (k : Nat) (byModule : List (Nat × Nat)) : List (Nat × Nat) :=
  (remoteHot s byModule).map fun m => (m, 1 + ((((smGet [] k old).find? fun p => p.1 == m).map (·.2)).getD 0))

/-- Cross-module migration of one page, with its run of epochs (R195). -/
def remotePage (old : List (Nat × List (Nat × Nat))) (byModule : List (Nat × Nat)) (s : State) (p : Nat × Nat) : State :=
  let k := pageKey p.1 p.2
  let runs := remoteRuns s old k byModule
  let s := { s with engine := { s.engine with epochRuns := smSet [] k runs s.engine.epochRuns } }
  match runs.find? fun q => decide (max 1 (getf s Reg.placePolicy 23 16) ≤ q.2) with
  | some (m, _) => if getb s Reg.placePolicy 30 ∧ mayMigrate s p.1 p.2 then startCopy s none p.1 p.2 ⟨m, 2, 0⟩ else s
  | none => s

/-- The counts of a new epoch: what was counted becomes the last epoch's. -/
def newEpoch (s : State) (totals : List ((Nat × Nat) × List (Nat × Nat) × List (Nat × Nat))) : State :=
  let now := s.cycle
  let last := totals.foldl (fun l p => smSet 0 (pageKey p.1.1 p.1.2) (p.2.1.foldl (fun n q => n + q.2) 0) l) []
  { s with engine := { s.engine with epochStart := now, byTile := [], byModule := [], last := last, epochRuns := [] } }

/-- MIGRATION_EPOCH_END (R195), 1 ms after the epoch began: promotions, then cross-module moves, of the pages that were
used in it. -/
def opMigrationEpochEnd (counts : List PageCount) (s : State) : State :=
  if s.cycle < s.engine.epochStart + msCycles then s
  else
    let totals := (countedPages s counts).map fun p => (p, pageTotals s counts p.1 p.2)
    let old := s.engine.epochRuns
    let s := newEpoch s totals
    let s := totals.foldl (fun s p => promotePage p.2.1 s p.1) s
    totals.foldl (fun s p => remotePage old p.2.2 s p.1) s

/-! The remap (R196, R197). -/

/-- A window access that waited, made again at the new place. -/
def releaseWaiting (s : State) : State :=
  let l := s.host.waiting
  l.foldl (fun s a => opWindowAccess a.1 a.2.1 a.2.2.1 a.2.2.2 s) { s with host := { s.host with waiting := [] } }

/-- The page lies at its new place from now on, the move is counted, and the accesses that waited for it are made. -/
def remapPage (s : State) (c : PageCopy) : State :=
  let s := { s with copies := s.copies.filter fun x => !(x.handle == c.handle && x.page == c.page) }
  match findHandle s c.handle with
  | some _ => releaseWaiting (count64 (setPlace s c.handle c.page c.dest) Reg.migrated)
  | none => releaseWaiting s

/-- PAGE_REMAP (R196): once every granule of the page has been copied. -/
def opPageRemap (id page : Nat) (s : State) : State :=
  match s.copies.find? fun c => c.handle == id && c.page == page, findHandle s id with
  | some c, some h => if pageGranules h page ≤ c.issued ∧ c.outstanding = [] then remapPage s c else s
  | _, _ => s

/-- Every page move completes within 100 µs of its copy's start (R197): a copy that has come to that age ends. -/
def endOldCopies (s : State) : State :=
  (s.copies.filter fun c => decide (c.start + 125000 ≤ s.cycle)).foldl remapPage s

/-- MIGRATION_EPOCH_END. -/
def execMigrationEpochEnd (counts : List PageCount) (s : State) : Host.Outcome State Fault Refusal :=
  .next (opMigrationEpochEnd counts s)
/-- PAGE_REMAP. -/
def execPageRemap (handle : Word) (page : Nat) (s : State) : Host.Outcome State Fault Refusal :=
  .next (opPageRemap handle.toNat page s)

end Sys2Proof.Machine
end

