-- ==== Sys2Proof/Machine/Pool.lean ====
section
/-!
DEFINITION. Forming a pool, joining and leaving it, and the loss of its members (R275 to R286).
-/
namespace Sys2Proof.Machine
open Sys2Proof

/-! Status. -/

/-- A field of CMN_POOL_STATUS. -/
def setPool (s : State) (hi lo v : Nat) : State := setf s Reg.poolStatus hi lo v

/-- CMN_POOL_STATUS.CODE. -/
def poolCode (s : State) (code : Nat) : State := poolChange s fun s => setPool s 15 0 code

/-- POOL_IDs of the members, lowest first. -/
def memberList (s : State) : List Nat := (List.range 64).filter (isMember s)

/-- A set of POOL_IDs as CMN_POOL_MEMBERS shows it. -/
def maskOf (l : List Nat) : Nat := l.foldl (fun m i => putFld m i i 1) 0

/-- The members with the roles of R280, as this module shows them. -/
def setMembers (s : State) (l : List Nat) (steward deputy : Nat) : State :=
  let s := set64 s Reg.poolMembers (maskOf l)
  let s := setPool (setPool s 46 40 l.length) 58 53 steward
  let s := setPool (setPool s 52 47 deputy) 60 60 (b2n (steward == ownId s))
  setPool s 59 59 (b2n (deputy == ownId s))

/-- This module is a member of no pool. -/
def noMembers (s : State) : State :=
  setPool (setPool (setPool (set64 s Reg.poolMembers 0) 46 40 0) 60 59 0) 58 47 0

/-- POOL_ID of the steward. -/
def stewardId (s : State) : Nat := getf s Reg.poolStatus 58 53
/-- POOL_ID of the deputy. -/
def deputyId (s : State) : Nat := getf s Reg.poolStatus 52 47

/-! The peer table. -/

/-- CMN_POOL_PEERi.VALID. -/
def peerValid (s : State) (i : Nat) : Bool := getb s (peerR i) 0

/-- The other modules with a VALID entry. -/
def otherPeers (s : State) : List Nat := (List.range 64).filter fun i => i != ownId s && peerValid s i

/-- The digest of this module's VALID entries and their bases (R277). -/
def ownDigest (s : State) : Nat :=
  (Config.peerDigest (((List.range 64).filter (peerValid s)).map fun i => (i, get64 s (peerR i) / 2 ^ 37))).toNat

/-- The module's own entry names another base than its own (R276). -/
def duplicateId (s : State) : Bool := get64 s (peerR (ownId s)) / 2 ^ 37 != bar2Base s

/-- Greetings to every other VALID entry. -/
def greetAll (s : State) : State := (otherPeers s).foldl (fun s i => emit s (.greeting i (ownId s) (ownDigest s))) s

/-- CFG_STATUS.DONE_PIN: the level of DONE. -/
def donePin (s : State) : Bool := getb s Reg.cfgStatus 25

/-- Formation begins, DONE being high (R276, R277). -/
def beginForming (s : State) : State :=
  let now := s.cycle
  let s := { s with pool := { s.pool with formWait := false, formAt := now, answered := [], excluded := [] } }
  if duplicateId s then poolChange s fun s => setPool (setPool s 63 61 5) 15 0 0x0806 else greetAll s

/-- FORM (R276, R277, R397). -/
def opForm (s : State) : State :=
  if poolState s ≠ 0 ∨ !isNormal s then s
  else if memState s = 3 then poolCode s 0x0C02
  else if !peerValid s (ownId s) then poolCode s 0x0807
  else
    let s := poolChange s fun s => setPool s 63 61 1
    if donePin s then beginForming s else { s with pool := { s.pool with formWait := true } }

/-- DONE has changed: a formation that waits for it begins (R277). -/
def doneChanged (s : State) : State :=
  if s.pool.formWait ∧ donePin s ∧ poolState s = 1 then beginForming s else s

/-- A new member shown, the roles as they stand (R280, R283). -/
def addMember (s : State) (m : Nat) : State :=
  let l := (List.range 64).filter fun i => isMember s i || i == m
  poolChange s fun s => setMembers s l (stewardId s) (deputyId s)

/-- The module takes part in pools: in its normal personality, on a link that is not degraded (R258). -/
def takesPart (s : State) : Bool := isNormal s && !s.host.degraded

/-- POOL_GREETING (R258, R276, R277, R283): while forming, an answer is taken or its module excluded; in a formed pool the
steward admits a module whose digest matches, and every member shows it once the steward has admitted it. -/
def opPoolGreeting (source id digest : Nat) (admitted : Bool) (s : State) : State :=
  if !takesPart s ∨ !peerValid s source ∨ source = ownId s ∨ memState s = 3 then s
  else
    let good := id = source ∧ digest = ownDigest s
    let miss := fun (s : State) => logEntry (poolCode s 0x0807) 0 0x0807 source 0
    if poolState s = 1 ∧ !s.pool.formWait then
      if s.pool.answered.contains source ∨ s.pool.excluded.contains source then s
      else if good then { s with pool := { s.pool with answered := s.pool.answered ++ [source] } }
      else miss { s with pool := { s.pool with excluded := s.pool.excluded ++ [source] } }
    else if (poolState s = 2 ∨ poolState s = 3) ∧ !isMember s source then
      let s := emit s (.greeting source (ownId s) (ownDigest s))
      let admits := !s.pool.stewardLost && (if stewardId s = ownId s then decide good else admitted)
      if admits then addMember s source else if good then s else miss s
    else s

/-- Modules that each reached, and were reached by, every other, once the highest POOL_IDs have been removed one by one
(R277). -/
def mutualReach (reach : Nat → Nat → Bool) : List Nat → List Nat
  | [] => []
  | m :: t =>
    if (m :: t).all fun i => (m :: t).all fun j => i == j || reach i j then m :: t else mutualReach reach t

/-- Core cycles of FORM_TIMEOUT. -/
def formTimeout (s : State) : Nat := max 1 (getf s 0x600000 15 8) * 100 * msCycles

/-- FORMATION_END (R277, R278): `lists` gives, for each module that answered, the modules that it reached. -/
def opFormationEnd (lists : List (Nat × Nat)) (timedOut : Bool) (s : State) : State :=
  let others := otherPeers s
  let all := others.all fun i => s.pool.answered.contains i || s.pool.excluded.contains i
  if poolState s ≠ 1 ∨ s.pool.formWait ∨ !(all || (timedOut && decide (s.pool.formAt + formTimeout s ≤ s.cycle))) then s
  else
    let own := ownId s
    if others = [] then poolChange s fun s => setPool (setMembers s [own] own own) 63 61 2
    else
      let reach := fun (i j : Nat) =>
        if i = own then s.pool.answered.contains j
        else match lists.find? fun p => p.1 == i with
          | some p => p.2.testBit j
          | none => false
      let ids := ((List.range 64).filter fun i => i == own || s.pool.answered.contains i).reverse
      let ms := (mutualReach reach ids).reverse
      if ms.length < 16 then poolChange s fun s => setPool (setPool s 63 61 0) 15 0 0x0805
      else if ms.contains own then
        poolChange s fun s => setPool (setMembers s ms (ms.headD 0) ((ms[1]?).getD 0)) 63 61 2
      else poolChange s fun s => setPool s 63 61 5

/-- JOIN (R276, R283, R397): `replies` are the members' answers, the steward's first and the deputy's second. -/
def opJoin (replies : List (Nat × Nat)) (s : State) : State :=
  if !(poolState s == 0 || poolState s == 5) ∨ !isNormal s then s
  else if memState s = 3 then poolCode s 0x0C02
  else if !peerValid s (ownId s) then poolCode s 0x0807
  else if duplicateId s then poolChange s fun s => setPool (setPool s 63 61 5) 15 0 0x0806
  else
    let s := greetAll s
    match replies with
    | [] => s
    | (st, d) :: rest =>
      if d ≠ ownDigest s then logEntry (poolCode s 0x0807) 0 0x0807 st 0
      else
        let own := ownId s
        let ids := replies.map (·.1)
        let l := (List.range 64).filter fun i => i == own || ids.contains i
        poolChange s fun s => setPool (setMembers s l st (((rest.head?).map (·.1)).getD st)) 63 61 2

/-! Leaving. -/

/-- A window handle is held here, or a window is bound (R285). -/
def leaveBusy (s : State) : Bool :=
  (s.handles.any fun h => isWindow h && h.home == ownId s) ||
    (List.range 17).any fun fn => (List.range (windowCount fn)).any fun w => getb s (winR fn w 4) 31

/-- LEAVE (R285). -/
def opLeave (s : State) : State :=
  if poolState s ≠ 2 then s
  else if leaveBusy s then poolCode s 0x0804
  else poolChange s fun s => setPool s 63 61 3

/-- Every page of a handle held here moved to the LPDDR6 of some other member, the engine's own choice. -/
def moveOut (others : List Nat) (s : State) (h : Handle) : State :=
  if isWindow h then s
  else (livePages h).foldl (fun s j =>
    if (placeOf s h j).module = ownId s then
      let f := takeFree s
      match others[f.1 % others.length]? with
      | some m => setPlace f.2 h.id j ⟨m, 2, 0⟩
      | none => s
    else s) s

/-- Some page lies on this module. -/
def holdsPages (s : State) : Bool :=
  s.handles.any fun h => !isWindow h && (livePages h).any fun j => (placeOf s h j).module == ownId s

/-- LEAVE_PAGES_MOVED (R285): work already taken has ended and every page has moved. -/
def opLeavePagesMoved (s : State) : State :=
  let others := (memberList s).filter (· != ownId s)
  let busy := s.alms.any fun p => p.2.subs.any fun sb => !sb.finished
  if poolState s ≠ 3 ∨ busy ∨ (others = [] ∧ holdsPages s) then s
  else
    let s := s.handles.foldl (moveOut others) s
    poolChange s fun s => setPool (noMembers s) 63 61 4

/-! Loss of members. -/

/-- PEER_REQUEST_RETRY (R282): a request that fails is sent again; one that succeeds ends the member's outage. -/
def opPeerRequestRetry (m : Nat) (ok : Bool) (s : State) : State :=
  if !isMember s m ∨ m = ownId s then s
  else
    let out := s.pool.unreachable
    if ok then { s with pool := { s.pool with unreachable := out.filter fun p => p.1 != m } }
    else
      let now := s.cycle
      let s := if out.any fun p => p.1 == m then s
        else { s with pool := { s.pool with unreachable := out ++ [(m, now)] } }
      emit s (.retry m)

/-- The pages that lay on a module are lost (R282). -/
def losePages (s : State) (m : Nat) : State :=
  { s with handles := s.handles.map fun h =>
      if isWindow h then h
      else { h with lost := h.lost ++ (livePages h).filter fun j => (placeOf s h j).module == m } }

/-- Descriptors whose run waits for a FENCE read of a module. -/
def fencesOn (s : State) (m : Nat) : List DescRef :=
  s.alms.flatMap fun p => p.2.subs.flatMap fun sb => (sb.runs.mapIdx fun i r => (i, r)).filterMap fun q =>
    if q.2.phase = .running ∧ q.2.fencePending.contains m then some (refOf p.1 sb.pos q.1) else none

/-- The rules of R214 and R222 for a member that has gone: its FENCE reads end in error, and waiters with a phase pending
at a home there fail. -/
def lossRules (s : State) (m : Nat) : State :=
  let s := (fencesOn s m).foldl (fun s d => opFenceReadReturn d m false s) s
  (List.range 256).foldl (fun s b =>
    let x := getBar s b
    if getb s (barCfgR b) 31 ∧ barHome s b = m ∧ x.released < x.phase then barHomeLost s b else s) s

/-- This module must have met the loss itself before it removes a member: it is the steward, or the deputy of a lost
steward (R282). -/
def removalDue (s : State) (m : Nat) : Bool :=
  let judge := !s.pool.stewardLost && stewardId s == ownId s || (m == stewardId s && deputyId s == ownId s)
  let lim := max 1 (getf s 0x600000 23 16) * msCycles
  !judge || s.pool.unreachable.any fun p => p.1 == m && decide (p.2 + lim ≤ s.cycle)

/-- The roles after a loss (R280): a lost steward is followed by the deputy, and the next lowest member becomes deputy. -/
def passRoles (s : State) (m : Nat) (l : List Nat) : Nat × Nat :=
  let st := stewardId s
  let de := deputyId s
  if m = st then (de, ((l.find? fun i => i != de).getD de))
  else if m = de then (st, ((l.find? fun i => i != st).getD st))
  else (st, de)

/-- Every page of a handle that lay on a member that has left lies in the LPDDR6 of one of the others (R285). -/
def leftPages (m : Nat) (others : List Nat) (s : State) (h : Handle) : State :=
  if isWindow h then s
  else (livePages h).foldl (fun s j =>
    if (placeOf s h j).module = m then
      let f := takeFree s
      match others[f.1 % others.length]? with
      | some o => setPlace f.2 h.id j ⟨o, 2, 0⟩
      | none => s
    else s) s

/-- A member has left in order (R279, R280, R285): its pages have moved, its role passes, and nothing is lost. -/
def memberLeft (m : Nat) (s : State) : State :=
  let wasSteward := m = stewardId s
  let l := (memberList s).filter (· != m)
  let rs := passRoles s m l
  let s := s.handles.foldl (leftPages m l) s
  let s := { s with pool := { s.pool with unreachable := s.pool.unreachable.filter fun p => p.1 != m } }
  let s := poolChange s fun s => setMembers s l rs.1 rs.2
  if wasSteward ∧ !s.pool.stewardLost then logEntry (poolCode s 0x0809) 0 0x0809 rs.1 0 else s

/-- MODULE_REMOVAL (R279, R280, R282, R285): a member is removed after its loss, or has left in order. A pool that has lost
its steward and its deputy removes nobody, and shows neither. -/
def opModuleRemoval (m : Nat) (withinReplication left : Bool) (s : State) : State :=
  if !(poolState s == 2 || poolState s == 3) ∨ m = ownId s ∨ !isMember s m then s
  else if left then memberLeft m s
  else if s.pool.stewardLost ∨ !removalDue s m then s
  else
    let role := m = stewardId s ∨ m = deputyId s
    let wasSteward := m = stewardId s
    let l := (memberList s).filter (· != m)
    let rs := passRoles s m l
    let s := { s with pool := { s.pool with unreachable := s.pool.unreachable.filter fun p => p.1 != m } }
    let s := lossRules (losePages s m) m
    let s := logEntry s 0 0x0808 m 0
    let s := poolChange s fun s => setPool (setMembers s l rs.1 rs.2) 15 0 0x0808
    if role ∧ withinReplication then
      let s := { s with pool := { s.pool with stewardLost := true } }
      logEntry (poolChange s fun s => setPool (setPool s 60 59 0) 15 0 0x080A) 3 0x080A m 0
    else if wasSteward then logEntry (poolCode s 0x0809) 0 0x0809 rs.1 0
    else s

/-- REMOVAL_NOTICE (R282): this module has been removed. -/
def opRemovalNotice (source : Nat) (s : State) : State :=
  if !(poolState s == 2 || poolState s == 3) ∨ !isMember s source ∨ source = ownId s then s
  else
    let s := losePages s (ownId s)
    poolChange s fun s => setPool (setPool (noMembers s) 63 61 5) 15 0 0x0808

/-- FORM. -/
def execForm (s : State) : Host.Outcome State Fault Refusal := .next (opForm s)
/-- POOL_GREETING. -/
def execPoolGreeting (source id : BitVec 6) (digest : DWord) (admitted : Bool) (s : State) :
    Host.Outcome State Fault Refusal :=
  .next (opPoolGreeting source.toNat id.toNat digest.toNat admitted s)
/-- FORMATION_END. -/
def execFormationEnd (lists : List (Nat × BitVec 64)) (timedOut : Bool) (s : State) : Host.Outcome State Fault Refusal :=
  .next (opFormationEnd (lists.map fun p => (p.1, p.2.toNat)) timedOut s)
/-- JOIN. -/
def execJoin (replies : List (Nat × DWord)) (s : State) : Host.Outcome State Fault Refusal :=
  .next (opJoin (replies.map fun p => (p.1, p.2.toNat)) s)
/-- LEAVE. -/
def execLeave (s : State) : Host.Outcome State Fault Refusal := .next (opLeave s)
/-- LEAVE_PAGES_MOVED. -/
def execLeavePagesMoved (s : State) : Host.Outcome State Fault Refusal := .next (opLeavePagesMoved s)
/-- PEER_REQUEST_RETRY. -/
def execPeerRequestRetry (module : BitVec 6) (ok : Bool) (s : State) : Host.Outcome State Fault Refusal :=
  .next (opPeerRequestRetry module.toNat ok s)
/-- MODULE_REMOVAL. -/
def execModuleRemoval (module : BitVec 6) (withinReplication left : Bool) (s : State) :
    Host.Outcome State Fault Refusal :=
  .next (opModuleRemoval module.toNat withinReplication left s)
/-- REMOVAL_NOTICE. -/
def execRemovalNotice (source : BitVec 6) (s : State) : Host.Outcome State Fault Refusal :=
  .next (opRemovalNotice source.toNat s)

end Sys2Proof.Machine
end

