-- ==== Sys2Proof/Machine/Plots.lean ====
section
/-!
DEFINITION. Logical plots: their states and commands (R342 to R346), clocks and I/O banks (R333, R337), and the group a
field tile is attached to (R355).
-/
namespace Sys2Proof.Machine
open Sys2Proof

/-! The loaded full image's declaration (R368). -/

/-- The image uses PLL `i`: its reference names a clock (R370). -/
def pllUsed (s : State) (i : Nat) : Bool := declNat s.cfg.declaration (0x50 + 16 * i) 1 != 0

/-! Ending a plot's traffic. -/

/-- An arming has a handle of the plot's window. -/
def armOnPlot (s : State) (p : Nat) (a : Arming) : Bool :=
  [a.src, a.dst].any fun id => match findHandle s id with
    | some h => ownPlot s h && h.plot == p
    | none => false

/-- Direct armings with a transfer under way at the plot end with PLOT_OFFLINE (R347). -/
def stopPlotArmings (s : State) (p : Nat) : State :=
  s.tiles.foldl (fun s q => q.2.stm.foldl (fun s c => match c.2.active with
    | some a => match a.outstanding with
      | id :: _ => if armOnPlot s p a then failArming s q.1 c.1 id 0x0A02 0 else s
      | [] => s
    | none => s) s) s

/-- Every waiting access is completed as for a plot that is not online, accepted ones with them (R344, R346). -/
def closePort (s : State) (p : Nat) : State :=
  let s := denyWaiting s p
  let l := (getPlot s p).accepted
  let s := l.foldl (fun s q => denyRequest s p q) (modPlot s p fun x => { x with accepted := [] })
  stopPlotArmings s p

/-- Every unit on the field tile is discarded and its descriptor fails (R344, R346). -/
def discardUnits (s : State) (p : Nat) : State :=
  let l := (getPlot s p).units
  l.foldl (fun s u => markFail s u.1 0x0A02 0 0) (modPlot s p fun x => { x with units := [] })

/-! Commands (R344). -/

/-- A command that the plot's state does not admit. -/
def plotRefuse (s : State) (p : Nat) : State := plotCode s p 0x0A01

/-- The plot drains; the requests that wait to be accepted are denied (R343). -/
def drainPlot (s : State) (p : Nat) : State :=
  denyWaiting (modPlot (setPlotState s p 2) p fun x => { x with releasing := false, resetRequest := false }) p

/-- The plot is parked: offline, or loading at once where LOAD_PARTIAL waits for it (R343, R386). -/
def parkPlot (s : State) (p : Nat) : State :=
  let s := modPlot (holdLeaving s p) p fun x => { x with releasing := false, resetRequest := false }
  let waits := match s.cfg.run with
    | some r => r.command == 3 && r.plot == p
    | none => false
  setPlotState s p (if waits then 4 else 3)

/-- OFFLINE (R343): the plot drains and the requests that wait to be accepted are denied. -/
def opOffline (p : Nat) (s : State) : State :=
  if plotState s p ≠ 1 then plotRefuse s p
  else plotCode (drainPlot s p) p 0

/-- OFFLINE with FORCE (R344). -/
def opOfflineForce (p : Nat) (s : State) : State :=
  if plotState s p ≠ 1 ∧ plotState s p ≠ 2 then plotRefuse s p
  else
    plotCode (parkPlot (discardUnits (closePort s p) p) p) p 0

/-- PLOT_DRAIN_END (R343). -/
def opPlotDrainEnd (p : Nat) (s : State) : State :=
  let x := getPlot s p
  if plotState s p = 2 ∧ x.units = [] ∧ x.accepted = [] then parkPlot s p else s

/-- RELEASE (R345): the design at its initial values, the clock gates open. -/
def opRelease (p : Nat) (s : State) : State :=
  if plotState s p ≠ 5 then plotRefuse s p
  else plotCode (modPlot (initRegion s (plotSite s p) true) p fun x => { x with releasing := true }) p 0

/-- The capability and user words of a plot's image latched, 0 without a field tile (R351). -/
def latchWords (s : State) (p : Nat) : State :=
  let w := (getPlot s p).words
  setReg (setReg (set64 s (pltR p 8) w.1) (pltR p 0x10) (BitVec.ofNat 32 w.2.1)) (pltR p 0x14) (BitVec.ofNat 32 w.2.2)

/-- PLOT_ONLINE (R345, R346): `edges` are the rising edges that each of the plot's trees has counted. -/
def opPlotOnline (p : Nat) (edges : List Nat) (s : State) : State :=
  if !(getPlot s p).releasing ∨ !(edges.all fun e => decide (16 ≤ e)) then s
  else
    let s := modPlot s p fun x => { x with releasing := false, resetRequest := false }
    latchWords (setPlotState s p 1) p

/-- PLOT_RESET (R346): flip-flops and accumulators at their initial values, block RAM kept; the plot is released again
from the second row of R345's table. -/
def opPlotReset (p : Nat) (s : State) : State :=
  if plotState s p ≠ 1 then plotRefuse s p
  else
    let s := discardUnits (closePort (holdLeaving s p) p) p
    plotCode (modPlot (initRegion s (plotSite s p) false) p fun x =>
      { x with releasing := true, resetRequest := true }) p 0

/-- A write of PLT_CTRL (R344): one command, FORCE only with OFFLINE. -/
def pltCtrl (p : Nat) (val : Word) (s : State) : State :=
  match val.getLsbD 31, val.getLsbD 30, val.getLsbD 29, val.getLsbD 28 with
  | true, false, false, false => opOffline p s
  | true, true, false, false => opOfflineForce p s
  | false, false, true, false => opRelease p s
  | false, false, false, true => opPlotReset p s
  | false, false, false, false => s
  | _, _, _, _ => plotRefuse s p

/-! Clocks and banks. -/

/-- PLL_LOCK_CHANGE (R333): LOCKED of a PLL that the image uses. -/
def opPllLockChange (i : Nat) (locked : Bool) (s : State) : State := setb s Reg.pll i (locked && pllUsed s i)

/-- PLT_BANKb. -/
def bankR (b : Nat) : Nat := 0x204000 + 4 * b

/-- Nominal VIO in mV, by BANK_VIO's code. -/
def nominalMv (n : Nat) : Nat := if n = 1 then 1200 else if n = 2 then 1500 else 1800

/-- VIO lies within 5 % of its nominal level. -/
def vioFits (nom mv : Nat) : Bool := decide (95 * nom ≤ 100 * mv) && decide (100 * mv ≤ 105 * nom)

/-- Core cycles of 10 ms. -/
def settleCycles : Nat := 12500000

/-- Some declared, powered bank's VIO is outside its tolerance now. -/
def vioBad (s : State) : Bool :=
  (List.range 12).any fun b =>
    let n := getf s (bankR b) 29 28
    let mv := getf s (bankR b) 15 0
    n != 0 && decide (300 ≤ mv) && !vioFits (nominalMv n) mv

/-- BANK_VIO_MEASUREMENT (R337): 1 unpowered, 2 held, 3 live. A bank within tolerance for less than 10 ms that was live
stays live, and otherwise stays held or unpowered as it was (DEDUCED). -/
def opBankVio (b mv : Nat) (s : State) : State :=
  let r := bankR b
  let n := getf s r 29 28
  let s := setf s r 15 0 mv
  if n = 0 then s
  else
    let now := s.cycle
    let old := getf s r 31 30
    let fits := vioFits (nominalMv n) mv
    let since := smGet 0 b s.banks
    let since := if fits then (if since = 0 then now + 1 else since) else 0
    let s := { s with banks := smSet 0 b since s.banks }
    if mv < 300 then alertLevel (setf s r 31 30 1) 5 (vioBad s)
    else if !fits then
      let s := alertLevel (setf s r 31 30 2) 5 true
      if old = 2 then s else logEntry s 0 0x0A07 0 b
    else
      let s := alertLevel s 5 (vioBad s)
      if since + settleCycles ≤ now + 1 then setf s r 31 30 3 else if old = 3 then s else setf s r 31 30 (max 1 old)

/-! Field tiles and groups. -/

/-- An unfinished submission names the group that a field tile is attached to, or that a write names (R355, R190). -/
def attachNamed (s : State) (p v : Nat) : Bool :=
  let r := pltR p 0x18
  (getb s r 31 && groupNamed s (getf s r 7 0)) || (bitOf v 31 && groupNamed s (fld v 7 0))

/-- An attachment that R355 does not allow. -/
def attachBad (s : State) (v : Nat) : Bool := bitOf v 31 && !groupOn s (fld v 7 0)

/-- A write of PLT_FT_GROUP takes effect. -/
def attachEffect (s : State) (p v : Nat) : State :=
  let s := modPlot s p fun x => { x with ftHeld := none }
  if attachBad s v then plotCode (setb s (pltR p 0x18) 30 false) p 0x0A08
  else setReg s (pltR p 0x18) (BitVec.ofNat 32 v &&& 0x800000FF)

/-- PLT_FT_GROUP_WRITE (R355): ignored, held with PENDING, or taken. -/
def opPltFtGroupWrite (p : Nat) (val : Word) (s : State) : State :=
  let v := val.toNat
  if attachBad s v then plotCode s p 0x0A08
  else if attachNamed s p v then setb (modPlot s p fun x => { x with ftHeld := some v }) (pltR p 0x18) 30 true
  else attachEffect s p v

/-- FT_GROUP_WRITE_EFFECT (R355, R190). -/
def opFtGroupWriteEffect (p : Nat) (s : State) : State :=
  match (getPlot s p).ftHeld with
  | some v => if attachNamed s p v then s else attachEffect s p v
  | none => s

/-- OFFLINE. -/
def execOffline (p : PlotIx) (s : State) : Host.Outcome State Fault Refusal := .next (opOffline p.toNat s)
/-- OFFLINE_FORCE. -/
def execOfflineForce (p : PlotIx) (s : State) : Host.Outcome State Fault Refusal := .next (opOfflineForce p.toNat s)
/-- PLOT_DRAIN_END. -/
def execPlotDrainEnd (p : PlotIx) (s : State) : Host.Outcome State Fault Refusal := .next (opPlotDrainEnd p.toNat s)
/-- RELEASE. -/
def execRelease (p : PlotIx) (s : State) : Host.Outcome State Fault Refusal := .next (opRelease p.toNat s)
/-- PLOT_ONLINE. -/
def execPlotOnline (p : PlotIx) (edges : List Nat) (s : State) : Host.Outcome State Fault Refusal :=
  .next (opPlotOnline p.toNat edges s)
/-- PLOT_RESET. -/
def execPlotReset (p : PlotIx) (s : State) : Host.Outcome State Fault Refusal := .next (opPlotReset p.toNat s)
/-- PLL_LOCK_CHANGE. -/
def execPllLockChange (i : BitVec 2) (locked : Bool) (s : State) : Host.Outcome State Fault Refusal :=
  .next (opPllLockChange i.toNat locked s)
/-- BANK_VIO_MEASUREMENT. -/
def execBankVioMeasurement (b : Fin 12) (mv : BitVec 16) (s : State) : Host.Outcome State Fault Refusal :=
  .next (opBankVio b.val mv.toNat s)
/-- PLT_FT_GROUP_WRITE. -/
def execPltFtGroupWrite (p : PlotIx) (val : Word) (s : State) : Host.Outcome State Fault Refusal :=
  .next (opPltFtGroupWrite p.toNat val s)
/-- FT_GROUP_WRITE_EFFECT. -/
def execFtGroupWriteEffect (p : PlotIx) (s : State) : Host.Outcome State Fault Refusal :=
  .next (opFtGroupWriteEffect p.toNat s)

end Sys2Proof.Machine
end

