-- ==== Sys2Proof/Machine/Mgmt.lean ====
section
/-!
DEFINITION. Management packets (R416 to R421): a request from the mailbox or over MCTP, the checks of R418 in their order,
the reply, the memory of the last request, and the background jobs.
-/
namespace Sys2Proof.Machine
open Sys2Proof

/-! Jobs (R420). -/

/-- An area with no command since POR or PIN. -/
def Job.none : Job := ⟨0, 0, 0, 0⟩

/-- An area's last background command. -/
def getJob (s : State) (area : Nat) : Job := smGet Job.none area s.mgmt.jobs

/-- An area's entry set. -/
def setJob (s : State) (area : Nat) (j : Job) : State :=
  { s with mgmt := { s.mgmt with jobs := smSet Job.none area j s.mgmt.jobs } }

/-- STATE of an area: 1 running, 2 ended, 3 waiting for physical presence. -/
def setJobState (s : State) (area st : Nat) : State := setJob s area { getJob s area with state := st }

/-- A background command is running or waiting in the area. -/
def jobRuns (s : State) (area : Nat) : Bool := (getJob s area).state == 1 || (getJob s area).state == 3

/-- The end of an area's background command. -/
def endJob (s : State) (area code : Nat) : State :=
  if jobRuns s area then mgmtEvent (setJob s area { getJob s area with state := 2, code := code }) 29 else s

/-- A JOB_STATUS entry. -/
def Job.word (j : Job) : Nat := j.code * 2 ^ 32 + j.sequence * 2 ^ 16 + j.state * 2 ^ 8 + j.opcode

/-! Requests and replies. -/

/-- CFG_CMD_STATUS.BUSY. -/
def cfgBusy (s : State) : Bool := getb s Reg.cfgCmdStatus 31

/-- Which opcode a row serves, the LENGTH it takes, whether it needs the normal personality, whether MCTP carries it, and
the area of a background command (R422, R425). -/
structure OpSpec where
  op : Nat
  len : Nat → Bool
  normal : Bool
  mailboxOnly : Bool
  area : Option Nat

/-- An immediate opcode with a payload of fixed size. -/
def OpSpec.imm (op n : Nat) (normal : Bool) : OpSpec := ⟨op, (· == n), normal, false, none⟩

/-- A background opcode with a payload of fixed size. -/
def OpSpec.bg (op n : Nat) (normal : Bool) (area : Nat) : OpSpec := ⟨op, (· == n), normal, false, some area⟩

/-- OPCODE of a request. -/
def qOp (q : List Byte) : Nat := declNat q 0 1
/-- SEQUENCE of a request. -/
def qSeq (q : List Byte) : Nat := declNat q 2 2
/-- LENGTH of a request. -/
def qLen (q : List Byte) : Nat := declNat q 4 2 % 2 ^ 13
/-- A 32-bit payload field. -/
def qWord (q : List Byte) (off : Nat) : Nat := declNat q (16 + off) 4

/-- Check 1 of R418: reserved header fields. -/
def qReserved (q : List Byte) : Bool := declNat q 1 1 != 0 || declNat q 4 4 != qLen q || declNat q 8 8 != 0

/-- A reply (R417). -/
def replyBytes (q : List Byte) (running : Bool) (status detail : Nat) (payload : List Byte) : List Byte :=
  let p := if status = 0 then payload else []
  leBytes 4 (qSeq q * 2 ^ 16 + b2n running * 2 ^ 9 + 2 ^ 8 + qOp q) ++ leBytes 4 (status * 2 ^ 16 + p.length) ++
    leBytes 4 detail ++ leBytes 4 0 ++ p

/-- Bytes written over register words from an offset. -/
def putWords : Nat → State → Nat → List Byte → State
  | 0, s, _, _ => s
  | n + 1, s, off, l => if l = [] then s else putWords n (setReg s off (BitVec.ofNat 32 (leNat (l.take 4)))) (off + 4) (l.drop 4)

/-- The mailbox's reply (R421): header, payload, SEQUENCE, and REPLY once they stand. -/
def mailboxReply (s : State) (r : List Byte) : State :=
  let s := { s with mgmt := { s.mgmt with mbxRequest := none } }
  let s := putWords 1024 (putWords 4 s 0x1010 (r.take 16)) 0x3000 (r.drop 16)
  mgmtEvent (setb (setf s Reg.mbxStatus 15 0 (declNat r 2 2)) Reg.mbxStatus 31 false) 30

/-- A reply sent, and remembered with its request (R419). -/
def sendReply (s : State) (src : MgmtSrc) (q r : List Byte) : State :=
  match src with
  | .mailbox => mailboxReply { s with mgmt := { s.mgmt with lastMbx := some (q, r) } } r
  | .mctp _ => emit (emit { s with mgmt := { s.mgmt with lastMctp := some (q, r) } } .i3cInterrupt) (.mctp r)
  | .peer m _ => emit s (.poolReply m r)
  | .replica _ _ _ => s

/-- The request that a row is to serve: what SUBMIT copied, or a message's body (R421, R426); none before the end of ROM
boot. -/
def requestOf (s : State) (src : MgmtSrc) : Option (List Byte) :=
  if !s.power.romBooted then none
  else match src with
    | .mailbox => s.mgmt.mbxRequest
    | .mctp l => if 16 ≤ l.length then some l else none
    | .peer _ _ | .replica _ _ _ => none

/-- The reply given to an identical last request on the same transport (R419). -/
def remembered (s : State) (src : MgmtSrc) (q : List Byte) : Option (List Byte) :=
  let last := match src with
    | .mailbox => s.mgmt.lastMbx
    | .mctp _ => s.mgmt.lastMctp
    | .peer _ _ | .replica _ _ _ => none
  match last with
  | some (l, r) => if l = q then some r else none
  | none => none

/-- The source is MCTP. -/
def overMctp : MgmtSrc → Bool
  | .mctp _ => true
  | _ => false

/-- The area of a background command is occupied (R418 check 7). -/
def areaBusy (s : State) (area : Option Nat) : Option Nat :=
  match area with
  | some 0 => if cfgBusy s then some 0x0B0C else none
  | some a => if jobRuns s a then some 0x0D03 else none
  | none => none

/-- The first failure of R418's checks; `fields` are those of the payload: code and payload byte. -/
def requestBad (o : OpSpec) (fields : List Byte → State → Bad) (src : MgmtSrc) (q : List Byte) (s : State) : Bad :=
  firstBadOf
    [ badIf (qReserved q) 0x0001 0
    , badIf (overMctp src && o.mailboxOnly) 0x0D04 0
    , badIf (o.normal && !isNormal s) 0x0D02 0
    , badIf (!o.len (qLen q) || q.length < 16 + qLen q) 0x0D01 0
    , fields q s
    , (areaBusy s o.area).map fun c => (c, 0) ]

/-- One request served: a remembered reply, a refusal, or the action. An immediate action answers its status and payload; a
background one is replied to first and then runs on. -/
def serve (o : OpSpec) (fields : List Byte → State → Bad) (act : List Byte → State → State × Nat × List Byte)
    (src : MgmtSrc) (s : State) : State :=
  match requestOf s src with
  | none => s
  | some q =>
    if qOp q ≠ o.op then s
    else match remembered s src q with
      | some r => sendReply s src q r
      | none => match requestBad o fields src q s with
        | some (c, d) => sendReply s src q (replyBytes q false c d [])
        | none => match o.area with
          | some a =>
            let s := setJob s a ⟨0, qSeq q, 1, o.op⟩
            (act q (sendReply s src q (replyBytes q true 0 0 []))).1
          | none =>
            let r := act q s
            sendReply r.1 src q (replyBytes q false r.2.1 0 r.2.2)

/-- No field to check. -/
def noFields : List Byte → State → Bad := fun _ _ => none

/-- An action that answers OK with a payload. -/
def answers (f : List Byte → State → State × List Byte) : List Byte → State → State × Nat × List Byte :=
  fun q s => let r := f q s; (r.1, 0, r.2)

/-- An action without a payload. -/
def acts (f : List Byte → State → State) : List Byte → State → State × Nat × List Byte := fun q s => (f q s, 0, [])

/-! Physical presence (R452 to R454). -/

/-- A presence-gated command opens its window. -/
def openWindow (s : State) (op : Nat) (byReg : Bool) : State :=
  let now := s.cycle
  { s with mgmt := { s.mgmt with presence := some (op, now, byReg) } }

/-- Another presence-gated command waits (R454). -/
def presenceBusy (s : State) : Bool := s.mgmt.presence.isSome

end Sys2Proof.Machine
end

