-- ==== Sys2Proof/Machine/Loading.lean ====
section
/-!
DEFINITION. Loading and storing configuration images (R358 to R387), the gleaner (R388, R389) and the verification keys
(R390, R391).
-/
namespace Sys2Proof.Machine
open Sys2Proof

/-! Status. -/

/-- CFG_STATUS.STATE: 0 booting, 1 staging, 2 verifying, 3 writing, 4 waiting for DONE, 5 released, 6 failed, 7 waiting for
host. -/
def cfgState (s : State) : Nat := getf s Reg.cfgStatus 31 28
/-- STATE set. -/
def setCfgState (s : State) (v : Nat) : State := setf s Reg.cfgStatus 31 28 v
/-- CFG_DETAIL set. -/
def setDetail (s : State) (d : Nat) : State := set64 s Reg.cfgDetail d
/-- DONE_DRIVE set; the module's own drive holds DONE low. -/
def driveDone (s : State) (b : Bool) : State :=
  let s := setb s Reg.cfgStatus 24 b
  if b then setb s Reg.cfgStatus 25 false else s

/-- A change of the configuration machinery. -/
def modCfg (s : State) (f : Cfg → Cfg) : State := { s with cfg := f s.cfg }

/-- A command accepted (R387). -/
def beginCfg (s : State) (cmd plot slot : Nat) (after packet : Bool) : State :=
  let s := modCfg s fun c => { c with run := some ⟨cmd, plot, slot, after, false, packet⟩ }
  setf (setf (setb s Reg.cfgCmdStatus 31 true) Reg.cfgCmdStatus 27 24 cmd) Reg.cfgCmdStatus 15 0 0

/-- The running command ends with a code; a packet's end is recorded in JOB_STATUS too (R420). -/
def endCfg (s : State) (code : Nat) : State :=
  match s.cfg.run with
  | none => s
  | some r =>
    let s := modCfg s fun c => { c with run := none }
    let s := setf (setf s Reg.cfgCmdStatus 27 24 r.command) Reg.cfgCmdStatus 15 0 code
    let s := setb (setf s Reg.cfgCmdStatus 31 30 0) Reg.cfgCmdStatus 28 true
    if r.packet then endJob s 0 code else s

/-- A register command refused (R387). -/
def refuseCfg (s : State) (cmd code : Nat) : State :=
  setf (setf s Reg.cfgCmdStatus 27 24 cmd) Reg.cfgCmdStatus 15 0 code

/-! Sites and frames. -/

/-- The physical address of a frame of an image (R366): a plot's frames go to the site that holds it. -/
def physFrame (s : State) (a : Nat) : Nat :=
  if a / 2 ^ 14 = 63 then a else plotSite s (a / 2 ^ 14) * 2 ^ 14 + a % 2 ^ 14

/-- Frames laid over others. -/
def putFrames (l : List (Nat × Nat)) (base : List (Nat × Nat)) : List (Nat × Nat) :=
  l.foldl (fun m f => smSet 0 f.1 f.2 m) base

/-- Masks laid over others; an unlisted frame's bits all matter (R367). -/
def allMatter : Nat := 2 ^ 2048 - 1

/-- Masks laid over others. -/
def putMasks (l : List (Nat × Nat)) (base : List (Nat × Nat)) : List (Nat × Nat) :=
  l.foldl (fun m f => smSet allMatter f.1 f.2 m) base

/-- The entries of a site taken out. -/
def dropSite (site : Nat) (l : List (Nat × Nat)) : List (Nat × Nat) := l.filter fun f => f.1 / 2 ^ 14 != site

/-- The image's frames at their physical addresses. -/
def physFrames (s : State) (l : List (Nat × Nat)) : List (Nat × Nat) := l.map fun f => (physFrame s f.1, f.2)

/-! Failure (R380). -/

/-- A plot is empty (R342). -/
def emptyPlot (s : State) (p : Nat) : State :=
  let s := modPlot s p fun x => { x with design := false, words := (0, 0, 0), tag := 0, releasing := false, resetRequest := false }
  latchWords (setb (setPlotState s p 0) (pltR p 4) 28 false) p

/-- A full load has failed: the code, CFG_ERR_N, DONE held low, and configuration memory all zero (R376, R380). -/
def failLoad (s : State) (code detail : Nat) : State :=
  let s := modCfg s fun c => { c with frames := [], golden := [], masks := [], loadPull := 0, framesWritten := false, reread := false }
  let s := setf (setb (setCfgState s 6) Reg.cfgStatus 23 true) Reg.cfgStatus 15 0 code
  endCfg (setDetail (driveDone s true) detail) code

/-- A hard fault of a plot's site: the plot is forced offline, and its relocation follows the mode (R466, R469). -/
def siteFault (s : State) (p : Nat) : State :=
  let s := if plotState s p = 1 then { s with fallow := { s.fallow with forced := s.fallow.forced ++ [p] } } else s
  let s := if plotState s p = 1 ∨ plotState s p = 2 then parkPlot (discardUnits (closePort s p) p) p else s
  trigger s 4 p 3

/-- IMAGE_WRITE recorded, with the fault of the site it lies in (R377, R466). -/
def imageWrite (s : State) (addr : Nat) : State :=
  let s := logEntry (setDetail s addr) 3 0x0B09 addr 0
  match sitePlot s (addr / 2 ^ 14) with
  | some p => siteFault s p
  | none => s

/-! The full load. -/

/-- Bytes put into the staging area from offset 0. -/
def stageAll (s : State) (l : List Byte) : State :=
  let l := l.take (2 ^ 28)
  modCfg s fun c => { c with staging := wrBytes c.staging 0 l, staged := max c.staged l.length }

/-- The read mode that SFDP gives: MODE and MHZ of CFG_FLASH (R362). -/
def norMode (n : NorDevice) : Nat × Nat :=
  if n.octal then (4, 200) else if n.quad144 then (3, 133) else if n.quad114 then (2, 133) else (1, 133)

/-- The serial NOR brought up and read (R362). -/
def norStart (n : NorDevice) (s : State) : State :=
  let s := { s with power := { s.power with flashRstN := true } }
  let s := modCfg s fun c => { c with nor := some n }
  if !n.signature ∨ !n.bfpt ∨ !n.addr4 then failLoad s 0x0B0A 0
  else
    let m := norMode n
    let s := setf (setf (setf s Reg.cfgFlash 31 29 m.1) Reg.cfgFlash 23 16 m.2) Reg.cfgFlash 15 8 n.densityLog2
    stageAll (setCfgState s 1) (n.data.take maxImage)

/-- FULL_LOAD_START (R27, R360, R380): the source that CFG_SRC selects. -/
def opFullLoadStart (nor : NorDevice) (s : State) : State :=
  let src := getf s Reg.straps 9 8
  if cfgState s ≠ 0 ∨ !s.power.romBooted then s
  else
    let s := driveDone (setf s Reg.cfgStatus 27 26 (if src = 3 then 2 else src)) true
    if src = 0 then
      (if s.cfg.journalBegin.isNone then failLoad s 0x0B01 0
       else if !s.cfg.journalEnd then failLoad s 0x0B08 0
       else stageAll (setCfgState s 1) (rdBytes s.cfg.store 0 s.cfg.storeBytes))
    else if src = 1 then norStart nor s
    else if src = 2 then setCfgState s 7
    else setf (setb (setCfgState s 7) Reg.cfgStatus 23 true) Reg.cfgStatus 15 0 0x0002

/-- The NOR device is too small for the image (R362). -/
def norSmall (s : State) : Bool := match s.cfg.nor with
  | some n => decide (2 ^ n.densityLog2 < iBytes s.cfg.staging)
  | none => false

/-- IMAGE_HEADER_STAGED (R375, R376): checks 1 to 3, then the pulls of LOAD_PULL. -/
def opImageHeaderStaged (s : State) : State :=
  if cfgState s ≠ 1 then s
  else match checkHeader s s.cfg.staging s.cfg.staged [1] with
    | some b => failLoad s b.1 b.2
    | none => if norSmall s then failLoad s 0x0B0A 0 else modCfg s fun c => { c with loadPull := iPull c.staging }

/-- A verified full image is about to be written (R377). -/
def beginWriting (s : State) : State :=
  setDetail (setf (setCfgState (modCfg s fun c => { c with loadPull := iPull c.staging }) 3) Reg.cfgStatus 15 0 0) 0

/-- IMAGE_STAGING_END (R375, R363): the whole image is verified; one from NOR that fails check 5 or 6 in a fast mode waits
for its second reading. -/
def opImageStagingEnd (s : State) : State :=
  if cfgState s ≠ 1 then s
  else match verifyImage s s.cfg.staging s.cfg.staged [1] none with
    | none => if norSmall s then failLoad s 0x0B0A 0 else beginWriting s
    | some b =>
      let again := s.cfg.nor.isSome && !s.cfg.reread && (b.1 == 0x0B07 || b.1 == 0x0B03) && getf s Reg.cfgStatus 27 26 == 1
      if again then setCfgState (modCfg s fun c => { c with reread := true }) 2 else failLoad s b.1 b.2

/-- FLASH_DOWNSHIFT (R363). -/
def opFlashDownshift (bytes : List Byte) (s : State) : State :=
  if cfgState s ≠ 2 ∨ !s.cfg.reread then s
  else
    let s := logEntry s 0 0x0B0B 0 0
    let s := setb (setf (setf s Reg.cfgFlash 31 29 1) Reg.cfgFlash 23 16 50) Reg.cfgFlash 28 true
    let s := stageAll s (bytes.take maxImage)
    match verifyImage s s.cfg.staging s.cfg.staged [1] none with
    | none => beginWriting s
    | some b => failLoad s b.1 b.2

/-- One port's front-end program and X words (R373): a port without an entry has a single END and zeros. -/
def loadFec (entries : List FecEntry) (s : State) (p : Nat) : State :=
  let e := ((entries.find? fun x => x.port == p).map fun x => (x.program, x.x)).getD ([2 ^ 42], [])
  let s := modPort s p fun x => { x with core := { Core.reset with program := e.1, xInit := e.2 } }
  let s := clearRegs s fun o => decide (lnkR p 0x8000 ≤ o ∧ o < lnkR p 0x10000)
  (e.2.mapIdx fun i w => (i, w)).foldl (fun s w => setReg s (lnkR p 0x8000 + 4 * w.1) (BitVec.signExtend 32 (BitVec.ofNat 24 w.2))) s

/-- A plot's entry of a full declaration taken (R371). -/
def loadPlotEntry (l : List Byte) (s : State) (p : Nat) : State :=
  let o := 0x510 + 32 * p
  let f := declNat l o 4
  let s := modPlot s p fun x => { x with
    design := bitOf f 0, words := (declNat l (o + 8) 8, declNat l (o + 4) 4, declNat l (o + 16) 4), tag := 0 }
  setb s (pltR p 4) 28 (bitOf f 0 && bitOf f 1)

/-- FRAME_WRITE_END (R377): every frame and program written and read back, or IMAGE_WRITE. -/
def opFrameWriteEnd (bad : Option Nat) (s : State) : State :=
  if cfgState s ≠ 3 then s
  else match bad with
    | some a => failLoad (imageWrite s a) 0x0B09 a
    | none =>
      let g := s.cfg.staging
      let l := (declOf g).1
      let fr := putFrames (physFrames s (carried g)) []
      let ms := putMasks (physFrames s (carriedMasks g)) []
      let s := modCfg s fun c => { c with
        frames := fr, golden := fr, masks := ms, declaration := l, tag := iTag g, pins := [],
        loadedHash := sha512 (rdBytes g 0 (iBytes g - 512)), framesWritten := true }
      let s := (List.range 8).foldl (loadFec (fecOf g).1) s
      let s := (List.range 32).foldl (loadPlotEntry l) s
      let s := (List.range 12).foldl (fun s b =>
        let n := declNat l b 1
        setf (setf s (bankR b) 29 28 n) (bankR b) 31 30 (if n = 0 then 0 else max 1 (getf s (bankR b) 31 30))) s
      setCfgState s 4

/-- DONE_DRIVE_RELEASE (R378, R381). -/
def opDoneDriveRelease (s : State) : State :=
  if cfgState s = 4 ∧ s.cfg.framesWritten ∧ s.cfg.trainingEnded ∧ getb s Reg.cfgStatus 24 then
    driveDone (setb s Reg.cfgStatus 23 false) false
  else s

/-! Storing the image (R382). -/

/-- Steps 1 and 2 of a commit: verification, then the BEGIN record; the image region is erased. -/
def startCommit (s : State) : State :=
  match verifyImage s s.cfg.staging s.cfg.staged [1] none with
  | some b => endCfg (setDetail s b.2) b.1
  | none =>
    let s := modCfg s fun c => { c with
      journalBegin := some (iBytes c.staging, sha512 (rdBytes c.staging 0 (iBytes c.staging))), journalEnd := false,
      store := [], storeBytes := 0, run := c.run.map fun r => { r with committing := true } }
    setf s Reg.cfgNv 31 30 2

/-- COMMIT_END (R382): the END record, or COMMIT_FAILED. -/
def opCommitEnd (ok : Bool) (s : State) : State :=
  let going := match s.cfg.run with
    | some r => r.committing
    | none => false
  if !going then s
  else if !ok then endCfg s 0x0B0D
  else
    let n := iBytes s.cfg.staging
    let s := modCfg s fun c => { c with store := wrBytes [] 0 (rdBytes c.staging 0 n), storeBytes := n, journalEnd := true }
    endCfg (setf (countUp s Reg.cfgNv 23 0) Reg.cfgNv 31 30 1) 0

/-- Release begins: a LOAD_FULL ends, or goes on to its commit (R381). -/
def loadFullEnds (s : State) : State :=
  match s.cfg.run with
  | some r => if r.command ≠ 2 then s else if r.commitAfter then startCommit s else endCfg s 0
  | none => s

/-- DONE_HIGH_TIMER (R378): `us` µs for which DONE has read its present level without a change. -/
def opDoneHighTimer (high : Bool) (us : Nat) (s : State) : State :=
  let s := doneChanged (setb s Reg.cfgStatus 25 (high && !getb s Reg.cfgStatus 24))
  if cfgState s = 4 ∧ getb s Reg.cfgStatus 25 ∧ 10 ≤ us ∧ s.cfg.framesWritten ∧ !s.cfg.releaseBegun then
    loadFullEnds (modCfg s fun c => { c with releaseBegun := true })
  else s

/-- A plot goes live with the full image, or stays empty (R379). -/
def releasePlot (s : State) (p : Nat) : State :=
  if (getPlot s p).design then latchWords (setPlotState s p 1) p else setPlotState s p 0

/-- FULL_RELEASE (R379): tiles, cores, gates, and at the sixteenth edge borders, user I/O and plots. -/
def opFullRelease (s : State) : State :=
  if cfgState s ≠ 4 ∨ !s.cfg.releaseBegun then s
  else
    let s := initAll (modCfg s fun c => { c with tilesReleased := true, loadPull := 0 })
    let s := (List.range 32).foldl releasePlot s
    let s := set64 (setCfgState s 5) Reg.imageTag s.cfg.tag
    if (getJob s 3).opcode = 0x60 then endJob s 3 0 else s

/-- NORMAL_PERSONALITY (R265, R379): the gleaner starts its first scan, and held virtual functions appear. -/
def opNormalPersonality (s : State) : State :=
  if cfgState s ≠ 5 ∨ s.host.degraded ∨ isNormal s then s
  else
    let s := setPersonality s true
    let s := { s with host := { s.host with vfActive := s.host.vfEnable } }
    setb (modCfg s fun c => { c with scanAt := 0 }) Reg.gleanStatus 31 (getb s Reg.gleanCtrl 31)

/-! The stage window (R387, R393). -/

/-- Bytes staged at an offset. -/
def stageBytes (s : State) (off : Nat) (l : List Byte) : State :=
  modCfg s fun c => { c with staging := wrBytes c.staging off l, staged := max c.staged (off + l.length) }

/-- STAGE_WINDOW_WRITE (R4, R387, R393). -/
def opStageWindowWrite (off size val : Nat) (s : State) : State :=
  if !(size == 4 || size == 8) ∨ off % size ≠ 0 then s
  else if cfgBusy s then setb s Reg.cfgCmdStatus 29 true
  else stageBytes s (getf s Reg.stageBase 8 0 * 2 ^ 19 + off) (leBytes size val)

/-! Commands (R392). -/

/-- COMMAND, PLOT, COMMIT_AFTER and SLOT of a CFG_CMD word. -/
def cmdOf (w : Nat) : Nat := fld w 3 0
/-- PLOT. -/
def cmdPlot (w : Nat) : Nat := fld w 12 8
/-- SLOT. -/
def cmdSlot (w : Nat) : Nat := fld w 17 16

/-- A plot's relocation is under way (R387, R475). -/
def relocates (s : State) (p : Nat) : Bool := match s.fallow.relocating with
  | some r => r.1 == p
  | none => false

/-- The state admits the command (R381, R386, R392). -/
def cmdAdmitted (s : State) (cmd plot : Nat) : Bool :=
  let st := cfgState s
  if cmd = 2 then st == 6 || st == 7
  else if cmd = 3 then st == 5 && plotState s plot != 4 && !relocates s plot
  else if cmd = 5 then st == 5
  else decide (2 ≤ st)

/-- A command that needs physical presence. -/
def cmdGated (cmd : Nat) : Bool := cmd == 6 || cmd == 7 || cmd == 8

/-- The key record at staging offset 0 (R390); none where it is refused. -/
def keyRecord (s : State) : Option Nat :=
  let g := s.cfg.staging
  let m := beNat (rdBytes g 0 512)
  if rdNat g 0x200 4 ≠ 65537 ∨ m < 2 ^ 4095 ∨ m % 2 = 0 ∨ rdNat g 0x204 28 ≠ 0 then none else some m

/-- Why a command is refused, if it is: its code. -/
def cmdRefusal (s : State) (cmd plot : Nat) : Option Nat :=
  if cmdGated cmd ∧ presenceBusy s then some 0x0E02
  else if cfgBusy s ∨ !cmdAdmitted s cmd plot then some 0x0B0C
  else if cmd = 6 ∧ (keyRecord s).isNone then some 0x0B10
  else none

/-- The fields of a configuration packet (R422): a CFG_CMD word with the opcode's COMMAND, whose other encodings are reserved
(R10, R392). -/
def cmdFields (cmd : Nat) (q : List Byte) (s : State) : Bad :=
  let w := qWord q 0
  firstBadOf
    [ badIf (decide (2 ^ 18 ≤ w) || fld w 15 13 != 0 || fld w 7 5 != 0) 0x0001 0
    , badIf (cmdOf w == 0 || decide (9 ≤ cmdOf w)) 0x0002 0
    , badIf (cmdOf w != cmd) 0x0305 0
    , (cmdRefusal s cmd (cmdPlot w)).map fun c => (c, 0) ]

/-- A command by register or by packet: `pre` before it starts, `go` once it has. -/
def cfgCommand (cmd len : Nat) (normal : Bool) (pre : List Byte → State → State) (go : Nat → State → State) (src : CfgSrc)
    (s : State) : State :=
  match src with
  | .reg word =>
    let w := word.toNat
    if cmdOf w ≠ cmd then s
    else match cmdRefusal s cmd (cmdPlot w) with
      | some c => refuseCfg s cmd c
      | none => go w (beginCfg s cmd (cmdPlot w) (cmdSlot w) (bitOf w 4) false)
  | .mgmt m =>
    serve (.bg (0x10 + cmd) len normal 0) (cmdFields cmd) (acts fun q s =>
      let w := qWord q 0
      go w (beginCfg (pre q s) cmd (cmdPlot w) (cmdSlot w) (bitOf w 4) true)) m s

/-- A packet that gives no more than its word. -/
def noPre : List Byte → State → State := fun _ s => s

/-- A verification that ends its command. -/
def endVerify (s : State) (b : Bad) : State := match b with
  | some b => endCfg (setDetail s b.2) b.1
  | none => endCfg s 0

/-- VERIFY. -/
def opVerify : CfgSrc → State → State := cfgCommand 1 4 false noPre fun _ s =>
  endVerify s (verifyImage s s.cfg.staging s.cfg.staged [1, 2] none)

/-- LOAD_FULL (R381). -/
def opLoadFull : CfgSrc → State → State := cfgCommand 2 4 false noPre fun _ s =>
  let s := setf s Reg.cfgStatus 27 26 2
  match verifyImage s s.cfg.staging s.cfg.staged [1] none with
  | some b => failLoad s b.1 b.2
  | none => beginWriting (modCfg s fun c => { c with nor := none })

/-- A plot enters loading at once, or drains first (R386). -/
def beginPartial (s : State) (p : Nat) : State :=
  if plotState s p = 1 then drainPlot s p
  else if plotState s p = 2 then s
  else setPlotState (modPlot s p fun x => { x with releasing := false, resetRequest := false }) p 4

/-- LOAD_PARTIAL (R386 steps 1 to 3). -/
def opLoadPartial : CfgSrc → State → State := cfgCommand 3 4 false noPre fun w s =>
  let p := cmdPlot w
  match verifyImage s s.cfg.staging s.cfg.staged [2] (some p) with
  | some b => endCfg (plotCode (setDetail s b.2) p b.1) b.1
  | none => beginPartial s p

/-- Pin settings of a partial image (R372). -/
def partialPins (l : List Byte) : List (Nat × Nat) :=
  (List.range (declNat l 0x20 2)).map fun i => (declNat l (0x28 + 4 * i) 2, declNat l (0x28 + 4 * i) 4)

/-- The design of a partial image in its plot: frames, golden copy, masks, pins and words (R386 steps 3 to 5). -/
def partialLoaded (s : State) (p : Nat) : State :=
  let g := s.cfg.staging
  let l := (declOf g).1
  let site := plotSite s p
  let fr := physFrames s (carried g)
  let ms := physFrames s (carriedMasks g)
  let s := modCfg s fun c => { c with
    frames := putFrames fr (dropSite site c.frames), golden := putFrames fr (dropSite site c.golden),
    masks := putMasks ms (dropSite site c.masks),
    pins := (partialPins l).foldl (fun m e => smSet 0 e.1 e.2 m) c.pins }
  let s := modPlot s p fun x => { x with
    design := true, words := (declNat l 8 8, declNat l 4 4, declNat l 16 4), tag := iTag g }
  plotCode (setPlotState (setb s (pltR p 4) 28 (bitOf (declNat l 0 1) 1)) p 5) p 0

/-- PARTIAL_LOAD_END (R386, R342). -/
def opPartialLoadEnd (bad : Option Nat) (s : State) : State :=
  match s.cfg.run with
  | none => s
  | some r =>
    let p := r.plot
    if r.command ≠ 3 ∨ plotState s p ≠ 4 then s
    else match bad with
      | none => endCfg (partialLoaded s p) 0
      | some a =>
        let site := plotSite s p
        let s := modCfg s fun c => { c with
          frames := dropSite site c.frames, golden := dropSite site c.golden, masks := dropSite site c.masks }
        endCfg (imageWrite (plotCode (emptyPlot s p) p 0x0B09) a) 0x0B09

/-- COMMIT. -/
def opCommit : CfgSrc → State → State := cfgCommand 4 4 false noPre fun _ s => startCommit s

/-- HANDLE and BYTES of a STAGE_COPY packet, written to their registers (R422). -/
def copyFields (q : List Byte) (s : State) : State :=
  setReg (setReg s Reg.stageSrc (BitVec.ofNat 32 (qWord q 4))) Reg.stageLen (BitVec.ofNat 32 (qWord q 8))

/-- Why a STAGE_COPY ends before it copies, if it does (R385). -/
def copyRefusal (s : State) : Option Nat :=
  let n := getf s Reg.stageLen 31 0
  match openHandle s 0 (getf s Reg.stageSrc 31 0) with
  | none => some 0x0303
  | some h => if h.size < n then some 0x0302 else if maxImage < n then some 0x0305 else none

/-- STAGE_COPY (R385): a failing one, and one of length 0, end at once. -/
def opStageCopy : CfgSrc → State → State := cfgCommand 5 12 true copyFields fun _ s =>
  match copyRefusal s with
  | some c => endCfg s c
  | none => if getf s Reg.stageLen 31 0 = 0 then endCfg s 0 else s

/-- STAGE_COPY_END (R385): the copied bytes stand in the staging area; a lost page or a plot that is not online ends it
with the code that a descriptor would meet. -/
def opStageCopyEnd (s : State) : State :=
  let going := match s.cfg.run with
    | some r => r.command == 5
    | none => false
  let n := getf s Reg.stageLen 31 0
  if !going then s
  else match findHandle s (getf s Reg.stageSrc 31 0) with
    | none => endCfg s 0x0303
    | some h =>
      if h.size < n then endCfg s 0x0302
      else if rangeLost h 0 (n - 1) then endCfg s 0x080B
      else if !plotOpen s h then endCfg s 0x0A02
      else
        let s := stageBytes s 0 (handleBytes s h 0 n)
        endCfg (if isWindow h then { s with free := s.free + 1 } else s) 0

/-- A presence-gated command waits (R391). -/
def waitPresence (cmd : Nat) (s : State) : State :=
  let packet := (s.cfg.run.map (·.packet)).getD false
  let s := setb (openWindow s (0x10 + cmd) (!packet)) Reg.cfgCmdStatus 30 true
  if packet then setJobState s 0 3 else s

/-- INSTALL_KEY. -/
def opInstallKey : CfgSrc → State → State := cfgCommand 6 4 false noPre fun _ s => waitPresence 6 s
/-- REVOKE_KEY. -/
def opRevokeKey : CfgSrc → State → State := cfgCommand 7 4 false noPre fun _ s => waitPresence 7 s
/-- ERASE_STORE. -/
def opEraseStore : CfgSrc → State → State := cfgCommand 8 4 false noPre fun _ s => waitPresence 8 s

/-- SLOT of the running command. -/
def runSlot (s : State) : Nat := (s.cfg.run.map (·.slot)).getD 0

/-- A key slot's contents set (R390). -/
def setKey (s : State) (k : Nat) (m : Option Nat) : State :=
  modCfg s fun c => { c with keys := (c.keys.filter fun e => e.1 != k) ++ (match m with | some m => [(k, m)] | none => []) }

/-- What presence lets a configuration command do (R384, R390). -/
def gatedCfg (cmd : Nat) (s : State) : State :=
  if cmd = 6 then endCfg (setKey s (runSlot s) (keyRecord s)) 0
  else if cmd = 7 then endCfg (setKey s (runSlot s) none) 0
  else
    let s := modCfg s fun c => { c with store := [], storeBytes := 0, journalBegin := none, journalEnd := false }
    endCfg (setf s Reg.cfgNv 31 30 0) 0

/-- RESERVED_CFG_COMMAND (R392). -/
def opReservedCfgCommand (w : Nat) (s : State) : State :=
  if cmdOf w = 0 ∨ 9 ≤ cmdOf w then refuseCfg s (cmdOf w) 0x0002 else s

/-- PRESENCE_WINDOW_EXPIRY (R453). -/
def opPresenceWindowExpiry (s : State) : State :=
  match s.mgmt.presence with
  | none => s
  | some (op, at_, _) =>
    if s.cycle < at_ + 30000 * msCycles then s
    else
      let s := { s with mgmt := { s.mgmt with presence := none } }
      if 0x16 ≤ op ∧ op ≤ 0x18 then endCfg s 0x0E01 else endJob s 2 0x0E01

/-! The gleaner (R388, R389). -/

/-- The frame at a place of the scan: the static region first, then sites 0 to 33. -/
def scanFrame (i : Nat) : Nat :=
  if i < 16384 then 63 * 2 ^ 14 + i else (i - 16384) / 14336 * 2 ^ 14 + (i - 16384) % 14336

/-- The gleaner moves past `n` frames; a completed scan is counted. -/
def advanceScan (s : State) (n : Nat) : State :=
  let i := s.cfg.scanAt + n
  if i < 16384 + 34 * 14336 then modCfg s fun c => { c with scanAt := i }
  else countUp (modCfg s fun c => { c with scanAt := 0 }) Reg.gleanStatus 23 0

/-- ACTION of a plot applied, where it is online (R389). -/
def gleanAction (s : State) (site : Nat) : State :=
  match sitePlot s site with
  | none => s
  | some p =>
    let a := getf s Reg.gleanAction (2 * p + 1) (2 * p)
    if plotState s p ≠ 1 then s else if a = 1 then opPlotReset p s else if a = 2 then opOfflineForce p s else s

/-- A frame that differs from its golden copy, repaired: counted, a critical one recorded, latched and acted on; one that
reads back different is its site's hard fault (R389, R466). -/
def gleanRepair (s : State) (a golden diff : Nat) (rewriteOk : Bool) : State :=
  let critical := diff &&& smGet allMatter a s.cfg.masks != 0
  let s := if rewriteOk then modCfg s fun c => { c with frames := smSet 0 a golden c.frames } else s
  let s :=
    if critical then
      let s := logEntry (countUp s Reg.gleanCounts 31 0) 0 0x0B0E a 0
      let s := if getb s Reg.gleanLast 31 then s else setf (setb s Reg.gleanLast 31 true) Reg.gleanLast 19 0 a
      gleanAction s (a / 2 ^ 14)
    else countUp s Reg.gleanCounts 63 32
  if rewriteOk then s else match sitePlot s (a / 2 ^ 14) with
    | some p => siteFault s p
    | none => s

/-- GLEANER_FRAME_READ (R388, R389): `upset` are the bits of the frame that have changed since it was last written. -/
def opGleanerFrameRead (upset : List Nat) (goldenReadable rewriteOk : Bool) (s : State) : State :=
  if !isNormal s then s
  else if !getb s Reg.gleanCtrl 31 then setb s Reg.gleanStatus 31 false
  else
    let s := setb s Reg.gleanStatus 31 true
    let a := scanFrame s.cfg.scanAt
    let loading := a / 2 ^ 14 != 63 && match sitePlot s (a / 2 ^ 14) with
      | some p => plotState s p == 4
      | none => false
    if loading then advanceScan s (14336 - a % 2 ^ 14)
    else
      let f := upset.foldl (fun x i => x ^^^ 2 ^ i) (smGet 0 a s.cfg.frames)
      let g := smGet 0 a s.cfg.golden
      let s := modCfg s fun c => { c with frames := smSet 0 a f c.frames }
      let s :=
        if !goldenReadable then logEntry s 3 0x0B0F a 0
        else if f = g then s
        else gleanRepair s a g (f ^^^ g) rewriteOk
      advanceScan s 1

/-- FULL_LOAD_START. -/
def execFullLoadStart (nor : NorDevice) (s : State) : Host.Outcome State Fault Refusal := .next (opFullLoadStart nor s)
/-- IMAGE_HEADER_STAGED. -/
def execImageHeaderStaged (s : State) : Host.Outcome State Fault Refusal := .next (opImageHeaderStaged s)
/-- IMAGE_STAGING_END. -/
def execImageStagingEnd (s : State) : Host.Outcome State Fault Refusal := .next (opImageStagingEnd s)
/-- FLASH_DOWNSHIFT. -/
def execFlashDownshift (reread : List Byte) (s : State) : Host.Outcome State Fault Refusal := .next (opFlashDownshift reread s)
/-- FRAME_WRITE_END. -/
def execFrameWriteEnd (bad : Option Nat) (s : State) : Host.Outcome State Fault Refusal := .next (opFrameWriteEnd bad s)
/-- DONE_DRIVE_RELEASE. -/
def execDoneDriveRelease (s : State) : Host.Outcome State Fault Refusal := .next (opDoneDriveRelease s)
/-- DONE_HIGH_TIMER. -/
def execDoneHighTimer (doneHigh : Bool) (us : Nat) (s : State) : Host.Outcome State Fault Refusal :=
  .next (opDoneHighTimer doneHigh us s)
/-- FULL_RELEASE. -/
def execFullRelease (s : State) : Host.Outcome State Fault Refusal := .next (opFullRelease s)
/-- NORMAL_PERSONALITY. -/
def execNormalPersonality (s : State) : Host.Outcome State Fault Refusal := .next (opNormalPersonality s)
/-- STAGE_WINDOW_WRITE. -/
def execStageWindowWrite (off : BitVec 19) (size : Nat) (val : DWord) (s : State) : Host.Outcome State Fault Refusal :=
  .next (opStageWindowWrite off.toNat size val.toNat s)
/-- VERIFY. -/
def execVerify (src : CfgSrc) (s : State) : Host.Outcome State Fault Refusal := .next (opVerify src s)
/-- LOAD_FULL. -/
def execLoadFull (src : CfgSrc) (s : State) : Host.Outcome State Fault Refusal := .next (opLoadFull src s)
/-- LOAD_PARTIAL. -/
def execLoadPartial (src : CfgSrc) (s : State) : Host.Outcome State Fault Refusal := .next (opLoadPartial src s)
/-- PARTIAL_LOAD_END. -/
def execPartialLoadEnd (bad : Option Nat) (s : State) : Host.Outcome State Fault Refusal := .next (opPartialLoadEnd bad s)
/-- COMMIT. -/
def execCommit (src : CfgSrc) (s : State) : Host.Outcome State Fault Refusal := .next (opCommit src s)
/-- COMMIT_END. -/
def execCommitEnd (ok : Bool) (s : State) : Host.Outcome State Fault Refusal := .next (opCommitEnd ok s)
/-- STAGE_COPY. -/
def execStageCopy (src : CfgSrc) (s : State) : Host.Outcome State Fault Refusal := .next (opStageCopy src s)
/-- STAGE_COPY_END. -/
def execStageCopyEnd (s : State) : Host.Outcome State Fault Refusal := .next (opStageCopyEnd s)
/-- INSTALL_KEY. -/
def execInstallKey (src : CfgSrc) (s : State) : Host.Outcome State Fault Refusal := .next (opInstallKey src s)
/-- REVOKE_KEY. -/
def execRevokeKey (src : CfgSrc) (s : State) : Host.Outcome State Fault Refusal := .next (opRevokeKey src s)
/-- ERASE_STORE. -/
def execEraseStore (src : CfgSrc) (s : State) : Host.Outcome State Fault Refusal := .next (opEraseStore src s)
/-- RESERVED_CFG_COMMAND. -/
def execReservedCfgCommand (word : Word) (s : State) : Host.Outcome State Fault Refusal :=
  .next (opReservedCfgCommand word.toNat s)
/-- GLEANER_FRAME_READ. -/
def execGleanerFrameRead (upset : List (BitVec 11)) (goldenReadable rewriteOk : Bool) (s : State) :
    Host.Outcome State Fault Refusal :=
  .next (opGleanerFrameRead (upset.map (·.toNat)) goldenReadable rewriteOk s)
/-- PRESENCE_WINDOW_EXPIRY. -/
def execPresenceWindowExpiry (s : State) : Host.Outcome State Fault Refusal := .next (opPresenceWindowExpiry s)

end Sys2Proof.Machine
end

