-- ==== Sys2Proof/Machine/Lpddr.lean ====
section
/-!
DEFINITION. Service commands by register, packet or policy (R467, R468), and LPDDR6 (R394 to R415): training, the checks on
a read, refresh, neighbour refresh and package sparing.
-/
namespace Sys2Proof.Machine
open Sys2Proof

/-! Service commands. -/

/-- The cause that a command on the host's initiative has (FLT_PROPOSAL.CAUSE). -/
def causeHost : Nat := 4

/-- A mechanism that the policy has set off. -/
def autoDue (s : State) (kind target cause : Nat) : Bool := s.fallow.auto.contains (kind, target, cause)

/-- It has begun, or can no longer. -/
def dropAuto (s : State) (kind target : Nat) : State :=
  { s with fallow := { s.fallow with auto := s.fallow.auto.filter fun a => !(a.1 == kind && a.2.1 == target) } }

/-- A mechanism ends; the background command that set it off ends with it. -/
def endMech (s : State) (kind target code : Nat) : State :=
  if s.fallow.job = some (kind, target) then
    endJob { s with fallow := { s.fallow with job := none } } 1 code
  else s

/-- Area 1's background command sets a mechanism off. -/
def jobFor (s : State) (kind target : Nat) : State := { s with fallow := { s.fallow with job := some (kind, target) } }

/-- A mechanism's command: `fields` a packet's own refusal, `target` what a packet names, `start` the mechanism. -/
def svcPacket (op kind : Nat) (fields : List Byte → State → Bad) (target : List Byte → Nat)
    (start : Nat → Nat → State → State) (m : MgmtSrc) (s : State) : State :=
  serve (.bg op 4 true 1) fields (acts fun q s => start (target q) causeHost (jobFor s kind (target q))) m s

/-! Training (R396 to R398, R404). -/

/-- MEM_PKG_INFOp.STATE set. -/
def setPkgState (s : State) (p v : Nat) : State := setf s (pkgInfoR p) 31 30 v

/-- MEM_PKG_MAP.FALLOW. -/
def fallowPackage (s : State) : Nat := getf s Reg.pkgMap 51 48

/-- A logical package served by the fallow one; its old package is retired. -/
def substitutePackage (s : State) (l : Nat) : State :=
  let old := physPackage s l
  let new := fallowPackage s
  let s := setf (setf s Reg.pkgMap (4 * l + 3) (4 * l) new) Reg.pkgMap 51 48 0xF
  setf (setPkgState (setPkgState s old 2) new 1) Reg.fltFallow 11 8 0

/-- A package in MEM_ERR_LAST's layout. -/
def pkgDetail (p : Nat) : Nat := p * 2 ^ 59

/-- LPDDR6_TRAINING_END (R396, R397, R404): `passed` gives, by physical package, the channels that passed. -/
def opTrainingEnd (passed : List Nat) (s : State) : State :=
  if s.cfg.trainingEnded ∨ !s.power.romBooted ∨ passed.length ≠ 13 then s
  else
    let now := s.cycle
    let pass := fun p => (passed[p]?).getD 0
    let s := (List.range 13).foldl (fun s p => setf s (pkgInfoR p) 3 0 (pass p)) s
    let s := setf s Reg.memStatus 28 27 (getf s Reg.memMap 1 0)
    let s := { s with cfg := { s.cfg with trainingEnded := true },
                      lpddr := { s.lpddr with origin := now, refreshes := [], tables := [] } }
    let f := fallowPackage s
    let s := if f < 13 then setPkgState s f (if pass f = 15 then 0 else 3) else s
    let bad := (List.range 12).filter fun l => pass (physPackage s l) != 15
    let s := (List.range 12).foldl (fun s l => setPkgState s (physPackage s l) (if bad.contains l then 3 else 1)) s
    match bad with
    | [] => setf s Reg.memStatus 31 29 1
    | [l] =>
      if f < 13 ∧ pass f = 15 then
        let old := physPackage s l
        setf (memLog (substitutePackage s l) 4 0x0C01 0 (pkgDetail old)) Reg.memStatus 31 29 1
      else setf (memLog s 4 0x0C02 0 (pkgDetail (physPackage s l))) Reg.memStatus 31 29 3
    | l :: _ => setf (memLog s 4 0x0C02 0 (pkgDetail (physPackage s l))) Reg.memStatus 31 29 3

/-- LPDDR6_ZERO_INIT_END (R398). -/
def opZeroInitEnd (s : State) : State := if memState s = 1 then setf s Reg.memStatus 31 29 2 else s

/-! Activates and neighbour refresh (R408 to R410). -/

/-- NRT (R409). -/
def nrt (s : State) : Nat := 1024 * 2 ^ getf s Reg.memNrt 1 0

/-- The entry of the lowest count, of equals the lowest row. -/
def lowestEntry : List (Nat × Nat) → Option (Nat × Nat)
  | [] => none
  | e :: t => match lowestEntry t with
    | none => some e
    | some f => if e.2 < f.2 ∨ (e.2 = f.2 ∧ e.1 < f.1) then some e else some f

/-- A bank's table after an activate of a row (R408). -/
def activateRow (r : Nat) (l : List (Nat × Nat)) : List (Nat × Nat) :=
  if l.any fun e => e.1 == r then l.map fun e => if e.1 = r then (r, e.2 + 1) else e
  else if l.length < 64 then l ++ [(r, 1)]
  else match lowestEntry l with
    | some e => l.map fun f => if f = e then (r, e.2 + 1) else f
    | none => l

/-- An activate of a granule's row. -/
def activateAt (s : State) (g : GranulePlace) : State :=
  let k := 16 * g.sub + g.bank
  { s with lpddr := { s.lpddr with tables := smSet [] k (activateRow g.row (smGet [] k s.lpddr.tables)) s.lpddr.tables } }

/-- NEIGHBOUR_REFRESH (R408). -/
def opNeighbourRefresh (sub bank row : Nat) (s : State) : State :=
  let k := 16 * sub + bank
  let l := smGet [] k s.lpddr.tables
  if l.any fun e => e.1 == row && decide (nrt s ≤ e.2) then
    let l := l.map fun e => if e.1 = row then (row, 0) else e
    let s := { s with lpddr := { s.lpddr with tables := smSet [] k l s.lpddr.tables } }
    set64 s Reg.memNeighbour ((get64 s Reg.memNeighbour + 1) % 2 ^ 64)
  else s

/-! Reads (R400, R401). -/

/-- The outstanding transfer of an arming that reads a granule. -/
def armReading (a : Arming) (id g : Nat) : Option Nat :=
  if a.src ≠ id then none else a.outstanding.find? fun i => armSrc a i / 64 == g

/-- What an uncorrectable granule does to its reader (R401). -/
def failReader (s : State) (h : Handle) (g : Nat) : Reader → State
  | .descriptor d => markFail s d 0x0C03 h.id (64 * g)
  | .runAhead d => modRun s d fun r => if r.phase = .waiting then { r with runAhead := [] } else r
  | .hostWindow => emit s .completerAbort
  | .cacheFill => s
  | .copy => s
  | .arming t x => match (ctxOf s t.val x.toNat).active with
    | some a => match armReading a h.id g with
      | some i => failArming s t.val x.toNat i 0x0C03 (64 * g)
      | none => s
    | none => s

/-- LPDDR6_READ_CHECK (R400, R401): `badBytes` of the granule and its check bytes are in error; four or more may go
undetected, which is a free value. -/
def opReadCheck (id g badBytes : Nat) (r : Reader) (s : State) : State :=
  match findHandle s id with
  | none => s
  | some h =>
    if h.size ≤ 64 * g ∨ !inLpddr s h (64 * g) ∨ memState s = 0 ∨ memState s = 3 then s
    else
      let s := activateAt s (placeOfByte s h (64 * g))
      let stored := s.lpddr.badGranules.contains (id, g)
      let hit := fun (s : State) =>
        let l := if stored then s.lpddr.badGranules else s.lpddr.badGranules ++ [(id, g)]
        failReader (uncorrectable { s with lpddr := { s.lpddr with badGranules := l } } h (64 * g)) h g r
      if stored ∨ badBytes = 2 ∨ badBytes = 3 then hit s
      else if badBytes = 0 then s
      else if badBytes = 1 then corrected s h (64 * g)
      else
        let f := takeFree s
        if f.1 % 2 = 0 then hit f.2 else f.2

/-! Refresh (R405 to R407). -/

/-- The logical package that a physical one serves. -/
def logicalPackage (s : State) (p : Nat) : Option Nat := (List.range 12).find? fun l => physPackage s l == p

/-- A logical package is on the short refresh interval. -/
def packageHot (s : State) (l : Nat) : Bool := s.lpddr.hot.any fun e => e.1 == physPackage s l

/-- When a subchannel's next refresh falls due, counted from the origin (R405, R407). -/
def refreshDue (s : State) (sub from_ : Nat) : Nat :=
  let short := packageHot s (sub / 8)
  let step := if short then 2440 else 4880
  let off := (if short then 25 else 50) * sub
  off + step * ceilDiv (from_ - off) step

/-- ALL_BANK_REFRESH (R405, R408): every 8,192nd refresh clears the tables of the subchannel's banks. -/
def opAllBankRefresh (sub : Nat) (s : State) : State :=
  let x := smGet (0, 0) sub s.lpddr.refreshes
  let due := refreshDue s sub x.2
  if !s.cfg.trainingEnded ∨ s.cycle < s.lpddr.origin + due then s
  else
    let n := x.1 + 1
    let clear := n % 8192 == 0
    { s with lpddr := { s.lpddr with
        refreshes := smSet (0, 0) sub (n, due + 1) s.lpddr.refreshes,
        tables := if clear then s.lpddr.tables.filter fun e => e.1 / 16 != sub else s.lpddr.tables } }

/-- Core cycles in a second. -/
def secondCycles : Nat := 1000 * msCycles

/-- One package's temperature (R407): hot above 85 °C, and no longer once it has read 80 °C or below for 1 s. -/
def readTemp (s : State) (p t : Nat) : State :=
  let now := s.cycle
  let s := setf s (pkgInfoR p) 15 8 t
  let others := s.lpddr.hot.filter fun e => e.1 != p
  match s.lpddr.hot.find? fun e => e.1 == p with
  | none =>
    if 85 < t then memLog { s with lpddr := { s.lpddr with hot := others ++ [(p, none)] } } 0 0x0C07 0 (pkgDetail p) else s
  | some (_, since) =>
    if 80 < t then { s with lpddr := { s.lpddr with hot := others ++ [(p, none)] } }
    else
      let from_ := since.getD now
      { s with lpddr := { s.lpddr with
          hot := if from_ + secondCycles ≤ now then others else others ++ [(p, some from_)] } }

/-- MEM_TEMPERATURE_READ (R407): the hottest die of each physical package. -/
def opTemperatureRead (temps : List Nat) (s : State) : State :=
  let s := (temps.take 13).mapIdx (fun p t => (p, min t 255)) |>.foldl (fun s e => readTemp s e.1 e.2) s
  setb s Reg.memStatus 26 (!s.lpddr.hot.isEmpty)

/-! Sparing (R411 to R414). -/

/-- Why a START is refused, if it is. -/
def spareRefusal (s : State) (l : Nat) : Option Nat :=
  if s.lpddr.spare.isSome then some 0x0C05
  else if fallowPackage s = 0xF then some 0x0C06
  else if memState s ≠ 2 then some 0x0C02
  else if 11 < l then some 0x0305
  else none

/-- Sparing begins. -/
def startSpare (l _cause : Nat) (s : State) : State :=
  let now := s.cycle
  let s := { s with lpddr := { s.lpddr with spare := some (l, now) } }
  let s := setb (setf (setf s Reg.spareStatus 26 16 0) Reg.spareStatus 15 0 0) Reg.spareStatus 31 true
  setb s Reg.memStatus 25 true

/-- A START by register or by the policy (R411); a background command that the policy's start belongs to ends with the
refusal. -/
def startOrRefuse (l cause : Nat) (s : State) : State :=
  match spareRefusal s l with
  | some c => endMech (setf s Reg.spareStatus 15 0 c) 2 l c
  | none => startSpare l cause s

/-- PACKAGE_SPARE (R411, R473). -/
def opPackageSpare (src : SvcSrc) (s : State) : State :=
  match src with
  | .reg w => if w.getLsbD 31 then startOrRefuse (fld w.toNat 3 0) causeHost s else s
  | .mgmt m =>
    svcPacket 0x33 2 (fun q s => firstBadOf
      [badIf (decide (16 ≤ qWord q 0)) 0x0001 0, (spareRefusal s (fld (qWord q 0) 3 0)).map fun c => (c, 0)])
      (fun q => fld (qWord q 0) 3 0) startSpare m s
  | .policy l cause => if autoDue s 2 l cause then startOrRefuse l cause (dropAuto s 2 l) else s

/-- SPARE_COPY_END (R413). -/
def opSpareCopyEnd (s : State) : State :=
  match s.lpddr.spare with
  | none => s
  | some (l, _) =>
    let new := fallowPackage s
    let s := substitutePackage { s with lpddr := { s.lpddr with spare := none } } l
    let s := setf (setf (setb s Reg.spareStatus 31 false) Reg.spareStatus 26 16 1000) Reg.spareStatus 15 0 0x0C04
    let s := memLog (setb s Reg.memStatus 25 false) 4 0x0C04 0 (pkgDetail new)
    let s := dropProposals s fun p => p.kind == 2
    endMech s 2 l 0

/-- LPDDR6_TRAINING_END. -/
def execLpddr6TrainingEnd (passed : List (BitVec 4)) (s : State) : Host.Outcome State Fault Refusal :=
  .next (opTrainingEnd (passed.map (·.toNat)) s)
/-- LPDDR6_ZERO_INIT_END. -/
def execLpddr6ZeroInitEnd (s : State) : Host.Outcome State Fault Refusal := .next (opZeroInitEnd s)
/-- LPDDR6_READ_CHECK. -/
def execLpddr6ReadCheck (handle : Word) (granule badBytes : Nat) (reader : Reader) (s : State) :
    Host.Outcome State Fault Refusal :=
  .next (opReadCheck handle.toNat granule badBytes reader s)
/-- ALL_BANK_REFRESH. -/
def execAllBankRefresh (sub : Fin 96) (s : State) : Host.Outcome State Fault Refusal := .next (opAllBankRefresh sub.val s)
/-- MEM_TEMPERATURE_READ. -/
def execMemTemperatureRead (temps : List Nat) (s : State) : Host.Outcome State Fault Refusal :=
  .next (opTemperatureRead temps s)
/-- NEIGHBOUR_REFRESH. -/
def execNeighbourRefresh (sub : Fin 96) (bank : BitVec 4) (row : BitVec 19) (s : State) :
    Host.Outcome State Fault Refusal :=
  .next (opNeighbourRefresh sub.val bank.toNat row.toNat s)
/-- PACKAGE_SPARE. -/
def execPackageSpare (src : SvcSrc) (s : State) : Host.Outcome State Fault Refusal := .next (opPackageSpare src s)
/-- SPARE_COPY_END. -/
def execSpareCopyEnd (s : State) : Host.Outcome State Fault Refusal := .next (opSpareCopyEnd s)

end Sys2Proof.Machine
end

