-- ==== Sys2Proof/Machine/Clear.lean ====
section
/-!
DEFINITION. What POR, PIN and SOFT resets keep and clear over the whole module (R431), and the loss of power (R32).
-/
namespace Sys2Proof.Machine
open Sys2Proof

/-- The three resets that reach the whole module (R429). -/
inductive BigReset where
  | por | pin | soft
  deriving DecidableEq, Repr

/-- The reset keeps a class of registers (R431). -/
def BigReset.keeps (b : BigReset) : RegClass → Bool
  | .kept => true
  | .porPin | .mailbox | .tilePP => b == .soft
  | .soft | .tile | .alm | .win | .flag => false

/-- The register word at an offset keeps its value. -/
def BigReset.keepsReg (b : BigReset) (off : Nat) : Bool := match findRow regRows off with
  | some (r, _) => b.keeps r.cls
  | none => false

/-- Fields [hi:lo] of a register are all that it keeps. -/
def keepField (s : State) (off hi lo : Nat) : State :=
  setReg s off (BitVec.ofNat 32 (putFld 0 hi lo (fld (getReg s off).toNat hi lo)))

/-- Registers of which a reset keeps only some fields: PLT_STATUS.SITE,
MEM_PKG_INFOp.STATE, and at SOFT LNK_MISS.COUNT, LNK_SYSREF.SEEN, FLT_THROTTLE.MS and all but STATE of MTR_STATUS. -/
def keptFields (b : BigReset) (s : State) : State :=
  let s := (List.range 32).foldl (fun s p => keepField s (pltR p 4) 25 20) s
  let s := (List.range 13).foldl (fun s p => keepField s (pkgInfoR p) 31 30) s
  if b = .soft then
    let s := (List.range 8).foldl (fun s p => setReg (keepField s (lnkR p 0x600) 15 0) (lnkR p 0x604) 0) s
    let s := keepField (keepField s Reg.sysref 29 29) Reg.throttle 24 0
    keepField s Reg.mtrStatus 28 0
  else s

/-- A tile after the reset: what belongs to its wear, faults and retirement stays. -/
def keptTile (x : Tile) : Tile :=
  { Tile.reset with faults := x.faults, spareUsed := x.spareUsed, rowMap := x.rowMap, retiring := x.retiring }

/-- The meridian after a SOFT reset: stopped, its value kept (R319). -/
def stoppedMeridian (s : State) : Meridian :=
  { s.meridian with phase := mtrPhase s, running := false, prevZero := none, d := none }

/-- The management side after a SOFT reset: the mailbox, the retry memory, JOB_STATUS and the endpoint ID stay (R431); a
command that waits for presence ends (R454), debug access ends (R424). -/
def softMgmt (m : Mgmt) : Mgmt :=
  { m with debug := false, presence := none, softDue := none, tileResetJob := none, spdmNegotiated := false }

/-- The PCIe side after a SOFT reset: link and configuration space kept, every latch and write buffer empty (R5), virtual
functions held until release (R433). -/
def softHost (h : HostIf) : HostIf := { h with latches := [], wbuf := [], vfActive := false }

/-- The background commands that a reset cuts short end: one that waited for presence with PRESENCE_REQUIRED, any other
with a code that the manual does not give. The reset area's own DEVICE_RESET runs on to release (R433). -/
def cutJobs (s : State) : State :=
  let s := if (getJob s 2).state = 3 then endJob s 2 0x0E01 else s
  let s := if (getJob s 0).state = 3 then endJob s 0 0x0E01 else s
  [0, 1, 2, 3].foldl (fun s a =>
    if jobRuns s a ∧ (getJob s a).opcode ≠ 0x60 then
      let f := takeFree s
      endJob f.2 a (anyCode f.1)
    else s) s

/-- The alert conditions that a reset does not end: the input voltage, the die and the coolant as last measured, and a
Vernier that is not recording; at POR only the last is known. -/
def BigReset.holds (b : BigReset) (s : State) : Nat :=
  let n := s.power.alertHold
  if b = .por then putFld 0 7 7 (b2n (bitOf n 7)) else n &&& 0x99

/-- Everything that R431 clears at POR, PIN or SOFT. -/
def clearAll (b : BigReset) (s : State) : State :=
  let old := s
  let soft := b == .soft
  let s := if soft then cutJobs s else s
  let hold := b.holds s
  let regs := s.regs.filter fun e => b.keepsReg e.1
  let n : State := { State.reset with
    pending := s.pending, cycle := s.cycle, free := s.free, sent := s.sent, regs := regs,
    power := { s.power with alertHold := hold, alertStamp := none },
    host := if soft then softHost s.host else HostIf.reset,
    mgmt := if soft then softMgmt s.mgmt else Mgmt.reset,
    vrn := s.vrn,
    tiles := s.tiles.filterMap fun e => if keptTile e.2 = Tile.reset then none else some (e.1, keptTile e.2),
    ports := if soft then s.ports.filterMap fun e =>
      if e.2.lmfcAligned then some (e.1, { Port.reset with lmfcAligned := true, lmfcZero := e.2.lmfcZero, synci := e.2.synci }) else none else [],
    meridian := if soft then stoppedMeridian s else Meridian.reset,
    cfg := { Cfg.reset with
      store := s.cfg.store, storeBytes := s.cfg.storeBytes, journalBegin := s.cfg.journalBegin,
      journalEnd := s.cfg.journalEnd, keys := s.cfg.keys },
    fallow := { Fallow.reset with
      nextId := s.fallow.nextId, cores := s.fallow.cores, sites := s.fallow.sites, lastThermal := s.fallow.lastThermal,
      logged := if soft then s.fallow.logged else [] } }
  let n := keptFields b n
  let n := setReg n Reg.alertCause (BitVec.ofNat 32 hold)
  if soft ∧ isNormal old then setPersonality n false else n

/-- The module loses its power (R32): PWR_OK falls, every output floats and all work is lost. -/
def losePower (s : State) : State :=
  let s := clearAll .por s
  { s with power := { s.power with converters := false, pwrOk := false, romBooted := false, strapsPending := true,
                                    flashRstN := false, porDue := true } }

end Sys2Proof.Machine
end

