-- ==== Sys2Proof/Machine/Dome.lean ====
section
/-!
DEFINITION. The dome controller's monitors: alert causes (R37, R38), die and coolant temperatures (R40), the protective
throttle (R464) and the input voltage (R31, R38).
-/
namespace Sys2Proof.Machine
open Sys2Proof

/-! Alerts. -/

/-- DOME_ALERT_CAUSE_WRITE (R38): bits written as 1 are cleared; one whose condition still holds, and one that the hardware
sets in this cycle, stands as 1. -/
def opAlertCauseWrite (val : Word) (s : State) : State :=
  let stay := BitVec.ofNat 32 (s.power.alertHold ||| alertNow s) &&& 0xFF
  rewritten 0 258 alertCond (fun s => setReg (plainWrite s Reg.alertCause val) Reg.alertCause
    (getReg (plainWrite s Reg.alertCause val) Reg.alertCause ||| (getReg s Reg.alertCause &&& stay))) s

/-- A write of DOME_ALERT_ENABLE (R37, R264). -/
def opAlertEnableWrite (val : Word) (s : State) : State :=
  risen 0 258 alertCond (fun s => plainWrite s Reg.alertEnable val) s

/-! Loss of power. -/

/-- A die at 115 °C (R40, R464): the module shuts down and stays off. -/
def thermalShutdown (hot : Nat) (s : State) : State :=
  losePower { s with power := { s.power with thermalLatch := true }, fallow := { s.fallow with lastThermal := hot } }

/-- SUPPLY_SHUTDOWN (R31): P54V at `mv` for `us` µs. -/
def supplyBad (mv us : Nat) : Bool :=
  decide (mv < 30000) || decide (65000 < mv) || ((decide (mv < 38000) || decide (62000 < mv)) && decide (1000 ≤ us))

/-- SUPPLY_SHUTDOWN (R31, R32). -/
def opSupplyShutdown (mv us : Nat) (s : State) : State :=
  if supplyBad mv us ∧ s.power.converters then losePower s else s

/-- P54V_RISE (R31, R40): the converters start; after a thermal shutdown only once P54V has been away for 1 s. -/
def opP54vRise (removedMs : Nat) (s : State) : State :=
  if s.power.converters ∨ (s.power.thermalLatch ∧ removedMs < 1000) then s
  else { s with power := { s.power with converters := true } }

/-- The dome controller is powered and out of reset. -/
def domeRuns (s : State) : Bool := s.power.pwrOk && !s.power.strapsPending

/-! Monitors. -/

/-- HOTSPOT. -/
def hotspot (s : State) : Nat := getf s Reg.thermal 31 24

/-- DIE_SENSOR_UPDATE (R40, R42). -/
def opDieSensor (hot inlet outlet : Nat) (s : State) : State :=
  if !s.power.pwrOk then s
  else
    let s := setf (setf (setf s Reg.thermal 31 24 hot) Reg.thermal 23 16 inlet) Reg.thermal 15 8 outlet
    let s := setf s Reg.fltLife 15 8 (max hot (getf s Reg.fltLife 15 8))
    let s := alertLevel s 3 (decide (100 ≤ hot))
    let s := alertLevel s 4 (decide (inlet < 20) || decide (45 < inlet) || decide (inlet + 20 < outlet))
    if 115 ≤ hot then thermalShutdown hot s else s

/-- FLT_THROTTLE.LEVEL. -/
def throttleLevel (s : State) : Nat := getf s Reg.throttle 31 28

/-- THROTTLE_UPDATE (R464), at the end of each millisecond: mean input power in W and the hottest package die in °C. -/
def opThrottleUpdate (powerW packageC : Nat) (s : State) : State :=
  if !domeRuns s then s
  else
    let power := decide (2200 ≤ powerW)
    let die := decide (105 ≤ hotspot s)
    let mem := decide (105 < packageC)
    let calm := decide (powerW ≤ 2100) && decide (hotspot s ≤ 102) && decide (packageC ≤ 102)
    let old := throttleLevel s
    let rise := power || die || mem
    let ms := if rise || !calm then 0 else s.fallow.marginMs + 1
    let level := if rise then min 15 (old + 2) else if ms = 10 then old - 1 else old
    let s := { s with fallow := { s.fallow with marginMs := if ms = 10 then 0 else ms } }
    let s := if old = 0 then s else countUp s Reg.throttle 24 0
    let on := level != 0
    let s := setf s Reg.throttle 31 28 level
    let s := setb (setb (setb s Reg.throttle 27 (on && power)) Reg.throttle 26 (on && die)) Reg.throttle 25 (on && mem)
    let s := if old = 0 ∧ level ≠ 0 then logEntry s 0 0x0F0E 0 (getReg s Reg.throttle).toNat else s
    alertLevel (alertLevel s 1 (on && power)) 2 (on && (die || mem))

/-- INPUT_V (R38): P54V in mV; 40 V and 60 V lie inside the range that R31 asks for (DEDUCED). -/
def opInputV (mv : Nat) (s : State) : State :=
  if !s.power.pwrOk then s
  else alertLevel s 0 ((decide (38000 ≤ mv) && decide (mv < 40000)) || (decide (60000 < mv) && decide (mv ≤ 62000)))

/-- SUPPLY_SHUTDOWN. -/
def execSupplyShutdown (mv heldUs : Nat) (s : State) : Host.Outcome State Fault Refusal := .next (opSupplyShutdown mv heldUs s)
/-- P54V_RISE. -/
def execP54vRise (removedMs : Nat) (s : State) : Host.Outcome State Fault Refusal := .next (opP54vRise removedMs s)
/-- DIE_SENSOR_UPDATE. -/
def execDieSensorUpdate (hot inlet outlet : Byte) (s : State) : Host.Outcome State Fault Refusal :=
  .next (opDieSensor hot.toNat inlet.toNat outlet.toNat s)
/-- DOME_ALERT_CAUSE_WRITE. -/
def execDomeAlertCauseWrite (val : Word) (s : State) : Host.Outcome State Fault Refusal := .next (opAlertCauseWrite val s)
/-- THROTTLE_UPDATE. -/
def execThrottleUpdate (powerW packageC : Nat) (s : State) : Host.Outcome State Fault Refusal :=
  .next (opThrottleUpdate powerW packageC s)
/-- INPUT_V. -/
def execInputV (mv : Nat) (s : State) : Host.Outcome State Fault Refusal := .next (opInputV mv s)

end Sys2Proof.Machine
end

