-- ==== Sys2Proof/Machine/Fallow.lean ====
section
/-!
DEFINITION. Tile faults and wear (R462, R465, R466), and the mechanisms that bring fallow capacity into service: tile
retirement (R470, R471), near-store rows (R472), front-end cores (R474) and plot relocation (R475); with the TILE reset
(R434), which moves pages in the same way.
-/
namespace Sys2Proof.Machine
open Sys2Proof

/-! Choosing a substitute (R471). -/

/-- DRIFT of a tile has reached WEAR_RETIRE. -/
def worn (s : State) (t : Nat) : Bool := decide (getf s Reg.fltThresh 19 8 ≤ getf s (wearR t) 31 16)

/-- `u` is chosen before `v` as the substitute of `t`. -/
def nearer (t u v : Nat) : Bool :=
  if Config.stagingTile u = Config.stagingTile v then decide (tileHops t u < tileHops t v) else !Config.stagingTile u

/-- The substitute of a tile: a fallow tile that is not worn and not in self-test. -/
def chooseSub (s : State) (t : Nat) : Option Nat :=
  (allTiles.filter fun u => tileState s u == 2 && !worn s u && !(getTile s u).selfTest).foldl (fun b u => match b with
    | none => some u
    | some v => if nearer t u v then some u else some v) none

/-- One unit fewer of a kind in FLT_FALLOW, whose field is [hi:lo]. -/
def fallowLess (s : State) (hi lo : Nat) : State := setf s Reg.fltFallow hi lo (getf s Reg.fltFallow hi lo - 1)

/-- The substitute enters service in the place of a tile (R470 step 1). -/
def enterService (s : State) (t u : Nat) (loop : Bool) (logical : Nat) : State :=
  let s := setTileState s u (if loop then 1 else 0)
  let s := setf (setb s (tileR u 0) 15 true) (tileR u 0) 9 0 logical
  let s := fallowLess s 31 24
  let s := if Config.stagingTile u then setb s Reg.fltFallow 7 true else s
  ((List.range 256).filter fun g => (groupTilesOf s g).contains t).foldl (fun s g => replaceMember s g t (some u)) s

/-- No substitute remains (R471). -/
def noSubstitute (s : State) : State := logEntry s 0 0x0F0B 1 0

/-! Leaving service. -/

/-- A descriptor carries LOOP. -/
def isLoopDesc (s : State) (d : DescRef) : Bool := match findDesc s d with
  | some (_, x, _) => dLoop x
  | none => false

/-- Units leave a tile at their pass boundaries; loop units resume on the substitute, where there is one (R470). -/
def leaveTile (s : State) (t : Nat) (sub : Option Nat) : State :=
  let s := leaveWaiting s t
  let loops := (getTile s t).threads.filter fun p => isLoopDesc s p.1
  let s := emptyTile s t
  match sub with
  | some u =>
    let s := mapRuns (fun _ _ _ x r =>
      if dLoop x && r.tiles.contains t then
        { r.leaves t with tiles := r.tiles.map fun v => if v = t then u else v } else r) s
    if loops = [] then s else modTile s u fun y => { y with threads := y.threads ++ loops }
  | none => mapRuns (fun _ _ _ x r =>
      if dLoop x && r.tiles.contains t then
        let r := r.leaves t
        { r with preempted := r.preempted || r.tiles.isEmpty }
      else r) s

/-- A tile enters draining (R470 step 2). -/
def drainTile (s : State) (t : Nat) (sub : Option Nat) (cause : Nat) (loop : Bool) (logical : Nat) : State :=
  let s := setf (setb (setTileState s t 3) (tileR t 0) 15 false) (tileR t 0) 9 0 0
  let s := leaveTile s t sub
  let s := modTile s t fun y => { y with retiring := some ⟨sub, cause, loop, logical⟩ }
  dropProposals s fun p => p.kind == 1 && p.target == t

/-- LOGICAL of a tile. -/
def logicalOf (s : State) (t : Nat) : Nat := getf s (tileR t 0) 9 0

/-- Retirement of a tile in service begins (R470 steps 1 and 2). -/
def retireTile (t cause : Nat) (s : State) : State :=
  let loop := tileState s t == 1
  let l := logicalOf s t
  match chooseSub s t with
  | some u => drainTile (enterService s t u loop l) t (some u) cause loop l
  | none =>
    let s := drainTile (noSubstitute s) t none cause loop l
    ((List.range 256).filter fun g => (groupTilesOf s g).contains t).foldl (fun s g => replaceMember s g t none) s

/-- A hard fault quarantines a tile at once (R469): it drains with no substitute, and its substitution follows the mode. -/
def quarantine (s : State) (t : Nat) : State :=
  let st := tileState s t
  if st ≤ 1 then trigger (drainTile s t none 3 (st == 1) (logicalOf s t)) 1 t 3
  else if st = 2 then fallowLess (drainTile s t none 3 false 0) 31 24
  else s

/-- The substitution of a quarantined tile, which may have been retired already. -/
def lateSub (t : Nat) (r : Retire) (s : State) : State :=
  match chooseSub s t with
  | some u =>
    let s := enterService s t u r.loop r.logical
    let s := modTile s t fun y => { y with retiring := some { r with sub := some u } }
    if tileState s t = 4 then endMech s 1 t 0 else s
  | none => endMech (noSubstitute s) 1 t 0

/-! Moving a tile's pages (R196). -/

/-- Pages of a handle that lie on a tile of this module. -/
def pagesOn (s : State) (h : Handle) (t : Nat) : List Nat :=
  if isWindow h then []
  else (livePages h).filter fun j =>
    let p := placeOf s h j
    p.module == ownId s && p.tile == t && decide (p.tier ≤ 1)

/-- CMN_MIGRATED raised by the pages of a buffer whose place has changed since `old` (R207). -/
def countMoves (old : State) (h : Handle) (s : State) : State :=
  let n := ((livePages h).filter fun j => placeOf old h j != placeOf s h j).length
  set64 s Reg.migrated ((get64 s Reg.migrated + n) % 2 ^ 64)

/-- The state of the sequence contexts that a tile holds moved as pages do (R205): to the substitute, else to a tile with
room of the engine's choice. -/
def moveSeqs (s : State) (t : Nat) (sub : Option Nat) : State :=
  let r := pickOne (roomyTiles s (allTiles.filter fun u => u != t && inService s u && !tileOut s u) 1 0) s
  { r.2 with seqs := s.seqs.map fun q => if q.2.tile = t then (q.1, { q.2 with tile := (sub.orElse fun _ => r.1).getD t }) else q }

/-- Tiles in service other than one, open to pages. -/
def otherTiles (s : State) (t : Nat) : List Nat := allTiles.filter fun u => u != t && inService s u && !tileOut s u

/-- A page moved to the LPDDR6 tier, or to another tile in its own tier, as the placement engine chooses. -/
def placeAway (s : State) (h : Handle) (t tier page : Nat) : State :=
  let f := takeFree s
  let ts := roomyTiles s (otherTiles s t) tier 0
  if lpddrRoom s ∧ !heldNear s h.id ∧ (f.1 % 2 = 0 ∨ ts = []) then setPlace f.2 h.id page ⟨ownId s, 2, 0⟩ else placeOn f.2 h ts tier page

/-- A pinned page moved to another of the tiles that its pin allows; none where no such tile has room. -/
def placePinned (s : State) (h : Handle) (p : Pin) (t tier page : Nat) : Option State :=
  let ts := roomyTiles s ((if p.group then groupTilesOf s p.affinity else otherTiles s t).filter fun u =>
    u != t && inService s u && !tileOut s u) tier h.id
  if ts = [] then none else some (placeOn s h ts tier page)

/-- Every page of a tile moved to other tiles; none where a pinned page finds no room. -/
def movePages (s : State) (t : Nat) : Option State :=
  s.handles.foldl (fun o h => match o with
    | none => none
    | some s => ((pagesOn s h t).foldl (fun o j => match o with
        | none => none
        | some s =>
          let tier := (placeOf s h j).tier
          match h.pin with
          | some p => placePinned s h p t tier j
          | none => some (placeAway s h t tier j)) (some s)).map (countMoves s h)) (some s)

/-- Every page of a retiring tile moved: pinned pages to the substitute, others as the engine chooses. -/
def retirePages (s : State) (t : Nat) (sub : Option Nat) : State :=
  s.handles.foldl (fun s h => countMoves s h ((pagesOn s h t).foldl (fun s j =>
    let x := placeOf s h j
    match h.pin, sub with
    | some _, some u => setPlace s h.id j { x with tile := u }
    | some p, none => (placePinned s h p t x.tier j).getD (placeAway s h t x.tier j)
    | none, _ => placeAway s h t x.tier j) s)) s

/-- No unit, pass or invocation remains on a tile. -/
def tileIdle (s : State) (t : Nat) : Bool :=
  let y := getTile s t
  y.threads.isEmpty && y.passes.isEmpty && y.ve.running.isNone &&
    !(s.alms.any fun p => p.2.subs.any fun sb => sb.runs.any fun r => r.going && r.tiles.contains t)

/-- TILE_RETIRED (R470 steps 3 and 4). -/
def opTileRetired (t : Nat) (s : State) : State :=
  match (getTile s t).retiring with
  | none => s
  | some r =>
    if tileState s t ≠ 3 ∨ !tileIdle s t then s
    else
      let s := moveSeqs (retirePages s t r.sub) t r.sub
      let s := { s with copies := s.copies.filter fun c => c.tile != t }
      let s := setTileState s t 4
      let s := logEntry s 4 0x0F05 t (r.cause * 2 ^ 32 + r.sub.getD 0x7FF)
      if r.cause = 3 ∧ r.sub.isNone then s else endMech s 1 t 0

/-! Commands. -/

/-- FALLOW_REFUSED. -/
def fallowRefused : Nat := 0x0F0C

/-- A tile that a packet names by COLUMN and ROW. -/
def qTile (q : List Byte) : Nat := 32 * fld (qWord q 0) 15 8 + fld (qWord q 0) 7 0

/-- The fields that name a tile. -/
def tileFields (q : List Byte) : List Bad :=
  [badIf (decide (2 ^ 16 ≤ qWord q 0)) 0x0001 0,
   badIf (decide (36 ≤ fld (qWord q 0) 15 8) || decide (32 ≤ fld (qWord q 0) 7 0)) 0x0305 0]

/-- TILE_RETIRE (R470, R476). -/
def opTileRetire (src : SvcSrc) (s : State) : State :=
  match src with
  | .reg _ => s
  | .mgmt m => svcPacket 0x32 1
      (fun q s => firstBadOf (tileFields q ++ [badIf (decide (2 ≤ tileState s (qTile q))) fallowRefused 0]))
      qTile retireTile m s
  | .policy t cause =>
    if !autoDue s 1 t cause then s
    else
      let s := dropAuto s 1 t
      if tileState s t ≤ 1 then retireTile t cause s
      else match (getTile s t).retiring with
        | some r => if r.sub.isNone then lateSub t r s else endMech s 1 t fallowRefused
        | none => endMech s 1 t fallowRefused

/-- Physical core of a port (LNK_CORE_MAP). -/
def portCore (s : State) (p : Nat) : Nat := getf s Reg.coreMap (4 * p + 3) (4 * p)

/-- State of a physical front-end core: 0 fallow, 1 in service, 2 retired. -/
def coreState (s : State) (c : Nat) : Nat := if (List.range 8).any fun p => portCore s p == c then 1 else smGet 0 c s.fallow.cores

/-- The fallow core. -/
def fallowCore (s : State) : Option Nat := (List.range 9).find? fun c => coreState s c == 0

/-- No core can be brought in. -/
def noCore (s : State) : Bool := (fallowCore s).isNone || s.fallow.coreSparing.isSome

/-- Sparing of a port's core begins (R474 step 1). -/
def startCoreSpare (p _cause : Nat) (s : State) : State :=
  let rx := linkOn s p false
  let tx := linkOn s p true
  let s := modCore (setb s (fecR p) 31 false) p fun c => { c with running := false, batch := none, waiting := none, repLeft := 0 }
  let s := if rx then linkOff s p false else s
  let s := if tx then linkOff s p true else s
  dropProposals { s with fallow := { s.fallow with coreSparing := some ⟨p, rx, tx⟩ } } fun x => x.kind == 3 && x.target == p

/-- CORE_SPARE (R474, R476). -/
def opCoreSpare (src : SvcSrc) (s : State) : State :=
  match src with
  | .reg _ => s
  | .mgmt m => svcPacket 0x34 3
      (fun q s => firstBadOf [badIf (decide (8 ≤ qWord q 0)) 0x0001 0, badIf (noCore s) fallowRefused 0])
      (fun q => qWord q 0 % 8) startCoreSpare m s
  | .policy p cause =>
    if !autoDue s 3 p cause ∨ s.fallow.coreSparing.isSome then s
    else
      let s := dropAuto s 3 p
      if noCore s then endMech (logEntry s 0 0x0F0B 3 0) 3 p fallowRefused else startCoreSpare p cause s

/-- CORE_SPARED (R474 steps 2 and 3): `parityFree`: the old core's X memory reads without parity error. -/
def opCoreSpared (parityFree : Bool) (s : State) : State :=
  match s.fallow.coreSparing, fallowCore s with
  | some x, some new =>
    let p := x.port
    let old := portCore s p
    let s := { s with fallow := { s.fallow with coreSparing := none, cores := smSet 0 old 2 s.fallow.cores } }
    let s := modCore s p fun c => { Core.reset with program := c.program, xInit := c.xInit }
    let s := if parityFree then s else
      ((getPort s p).core.xInit.mapIdx fun i w => (i, w)).foldl
        (fun s w => setReg s (lnkR p 0x8000 + 4 * w.1) (BitVec.signExtend 32 (BitVec.ofNat 24 w.2)))
        (clearRegs s fun o => decide (lnkR p 0x8000 ≤ o ∧ o < lnkR p 0x10000))
    let s := fallowLess (setf s Reg.coreMap (4 * p + 3) (4 * p) new) 15 12
    let s := logEntry s 4 0x0F09 p new
    let s := if x.rx then linkOn1 s p false else s
    let s := if x.tx then linkOn1 s p true else s
    let s := if (fallowCore s).isNone then dropProposals s fun y => y.kind == 3 else s
    endMech s 3 p 0
  | _, _ => s

/-- State of a plot site: 0 fallow, 1 in service, 2 retired. -/
def siteState (s : State) (x : Nat) : Nat := if (sitePlot s x).isSome then 1 else smGet 0 x s.fallow.sites

/-- The fallow site with the lower number. -/
def fallowSite (s : State) : Option Nat := (List.range 34).find? fun x => siteState s x == 0

/-- Another load of a plot runs (R387). -/
def plotLoads (s : State) (p : Nat) : Bool := match s.cfg.run with
  | some r => r.command == 3 && r.plot == p
  | none => false

/-- Why a relocation is refused, if it is. -/
def relocRefusal (s : State) (p : Nat) : Option Nat :=
  if (fallowSite s).isNone then some fallowRefused
  else if plotLoads s p ∨ s.fallow.relocating.isSome then some 0x0B0C
  else none

/-- A relocation begins (R475 step 1). -/
def startRelocate (p _cause : Nat) (s : State) : State :=
  let was := plotState s p = 1 ∨ (plotState s p = 3 ∧ s.fallow.forced.contains p)
  let s := { s with fallow := { s.fallow with relocating := some (p, decide was), forced := s.fallow.forced.filter (· != p) } }
  let s := if plotState s p = 1 then drainPlot s p else s
  dropProposals s fun x => x.kind == 4 && x.target == p

/-- PLOT_RELOCATE (R475). -/
def opPlotRelocate (src : SvcSrc) (s : State) : State :=
  match src with
  | .reg _ => s
  | .mgmt m => svcPacket 0x35 4
      (fun q s => firstBadOf [badIf (decide (32 ≤ qWord q 0)) 0x0001 0, (relocRefusal s (qWord q 0 % 32)).map fun c => (c, 0)])
      (fun q => qWord q 0 % 32) startRelocate m s
  | .policy p cause =>
    if !autoDue s 4 p cause ∨ plotLoads s p ∨ s.fallow.relocating.isSome then s
    else
      let s := dropAuto s 4 p
      match relocRefusal s p with
      | some c => endMech (logEntry s 0 0x0F0B 4 0) 4 p c
      | none => startRelocate p cause s

/-- Frames of one site as another's. -/
def siteMoved (old new : Nat) (l : List (Nat × Nat)) : List (Nat × Nat) :=
  (l.filter fun f => f.1 / 2 ^ 14 == old).map fun f => (new * 2 ^ 14 + f.1 % 2 ^ 14, f.2)

/-- One fallow site fewer; with none left no plot can be relocated any more. -/
def siteUsed (s : State) (x : Nat) : State :=
  let s := fallowLess { s with fallow := { s.fallow with sites := smSet 0 x 2 s.fallow.sites } } 17 16
  if (fallowSite s).isNone then dropProposals s fun y => y.kind == 4 else s

/-- PLOT_RELOCATED (R475 steps 2 to 4): a frame that reads back different ends the relocation with IMAGE_WRITE, the
plot staying where it was and the fallow site taken out. -/
def opPlotRelocated (bad : Option Nat) (s : State) : State :=
  match s.fallow.relocating, fallowSite s with
  | some (p, was), some new =>
    if plotState s p = 1 ∨ plotState s p = 2 then s
    else
      let s := { s with fallow := { s.fallow with relocating := none } }
      match bad with
      | some a => endMech (siteUsed (logEntry (setDetail s a) 3 0x0B09 a 0) new) 4 p 0x0B09
      | none =>
        let old := plotSite s p
        let s := modCfg s fun c => { c with
          frames := putFrames (siteMoved old new c.golden) (dropSite new (dropSite old c.frames)),
          golden := putFrames (siteMoved old new c.golden) (dropSite new (dropSite old c.golden)),
          masks := putMasks (siteMoved old new c.masks) (dropSite new (dropSite old c.masks)) }
        let s := siteUsed (setf s (pltR p 4) 25 20 new) old
        let s := logEntry s 4 0x0F0A p new
        let s := if (getPlot s p).design then setPlotState s p 5 else s
        let s := initRegion s new true
        let s := if was then modPlot s p fun x => { x with releasing := true } else s
        endMech s 4 p 0
  | _, _ => s

/-- FALLOW_APPROVE (R468): the mechanism runs as if it were automatic. -/
def opFallowApprove (m : MgmtSrc) (s : State) : State :=
  let find := fun (q : List Byte) (s : State) => s.fallow.proposals.find? fun p => p.id == qWord q 0
  serve (.bg 0x31 4 true 1) (fun q s => badIf (find q s).isNone 0x0F0D 0) (acts fun q s =>
    match find q s with
    | some p => setOff (jobFor (dropProposals s fun x => x.id == p.id) p.kind p.target) p.kind p.target p.cause
    | none => s) m s

/-! Faults and wear. -/

/-- Descriptors with an attempt on a tile. -/
def attemptsOn (s : State) (t : Nat) : List DescRef :=
  s.alms.flatMap fun p => p.2.subs.flatMap fun sb => (sb.runs.mapIdx fun i r => (i, r)).filterMap fun q =>
    if q.2.going && q.2.tiles.contains t then some (refOf p.1 sb.pos q.1) else none

/-- TILE_FAULT (R462): every attempt on the tile ends and restarts elsewhere; the tile leaves placement for its
self-test. -/
def opTileFault (t : Nat) (s : State) : State :=
  if (getTile s t).selfTest ∨ tileState s t = 4 then s
  else
    let l := attemptsOn s t
    let det := match l with
      | d :: _ => d.alm.toNat * 2 ^ 40 + d.idx.toNat
      | [] => 2 ^ 64 - 1
    let s := logEntry s 3 0x0F01 t det
    let s := l.foldl (fun s d => opDescriptorRestart d 0x0F01 s) s
    let now := s.cycle
    let s := modTile (leaveWaiting s t) t fun y => { y.cleared with
      selfTest := true, faults := recentEvents now dayCycles y.faults, passes := [],
      ve := { Ve.reset with resident := y.ve.resident } }
    countUp s (wearR t) 15 8

/-- SELF_TEST_END (R462): the third fault in 24 hours, and a failed test, are hard faults. -/
def opSelfTestEnd (t : Nat) (passed : Bool) (s : State) : State :=
  if !(getTile s t).selfTest then s
  else
    let s := modTile s t fun y => { y with selfTest := false }
    if passed ∧ (getTile s t).faults.length < 3 then s else quarantine s t

/-- WEAR_MEASUREMENT (R465, R466). -/
def opWear (t drift : Nat) (s : State) : State :=
  let warn := getf s Reg.fltThresh 31 20
  let old := getf s (wearR t) 31 16
  let s := setf s (wearR t) 31 16 drift
  let s := if old < warn ∧ warn ≤ drift then logEntry s 0 0x0F04 t drift else s
  if getf s Reg.fltThresh 19 8 ≤ drift ∧ tileState s t ≤ 1 then trigger s 1 t 1 else s

/-- ROW_SPARE (R466, R467, R472): a triggered row of a tile's near store. FLT_PROPOSAL has no kind for rows, so the
mechanism runs in automatic mode only (DEDUCED). -/
def opRowSpare (t bank row : Nat) (s : State) : State :=
  let used := smGet 0 bank (getTile s t).spareUsed
  let lack := fun (s : State) => if tileState s t ≤ 1 then trigger s 1 t 2 else s
  if policyMode s 5 ≠ 2 then s
  else if 41 ≤ used then lack s
  else
    let s := modTile s t fun y => { y with
      spareUsed := smSet 0 bank (used + 1) y.spareUsed, rowMap := smSet 0 (bank * 2048 + row) (used + 1) y.rowMap }
    let s := setf s (wearR t) 7 0 (min (getf s (wearR t) 7 0) (40 - used))
    let s := logEntry s 4 0x0F06 t (bank * 2 ^ 16 + row)
    if used = 40 then lack s else s

/-! TILE reset (R434). -/

/-- A tile reset as R431 gives: its registers, stores, threads and armings; what its wear and its placement hold stays. -/
def resetTile (s : State) (t : Nat) : State :=
  let s := stopArmings s t true
  let s := { s with regs := s.regs.filter fun e => !(decide (tileR t 0 ≤ e.1) && decide (e.1 < tileR (t + 1) 0) &&
    match findRow regRows e.1 with
    | some (r, _) => r.cls == .tile || r.cls == .tilePP
    | none => false) }
  modTile s t fun y => { Tile.reset with
    stm := y.stm, faults := y.faults, spareUsed := y.spareUsed, rowMap := y.rowMap, retiring := y.retiring,
    selfTest := y.selfTest, routes := y.routes }

/-- Steps 2 to 5 of a TILE reset, once the tile's units have ended. -/
def settleTileReset (s : State) : State :=
  match s.mgmt.tileResetJob with
  | none => s
  | some t =>
    if !tileIdle s t then s
    else
      let done := fun (s : State) (code : Nat) =>
        endJob { modTile s t fun y => { y with resetting := false } with mgmt := { s.mgmt with tileResetJob := none } } 3 code
      match movePages s t with
      | none => done s 0x0D06
      | some s => done (resetTile (moveSeqs s t none) t) 0

/-- A TILE reset begins. -/
def startTileReset (t : Nat) (s : State) : State :=
  if tileState s t = 2 then endJob (resetTile s t) 3 0
  else
    let s := leaveWaiting s t
    settleTileReset { modTile s t fun y => { y with resetting := true } with mgmt := { s.mgmt with tileResetJob := some t } }

/-- TILE_RESET (R434): refused for a loop tile, a draining tile and a retired one. -/
def opTileReset (m : MgmtSrc) (s : State) : State :=
  serve (.bg 0x61 4 true 3)
    (fun q s => firstBadOf (tileFields q ++ [badIf ([1, 3, 4].contains (tileState s (qTile q))) 0x0D06 0]))
    (acts fun q s => startTileReset (qTile q) s) m s

/-- TILE_RETIRE. -/
def execTileRetire (src : SvcSrc) (s : State) : Host.Outcome State Fault Refusal := .next (opTileRetire src s)
/-- TILE_RETIRED. -/
def execTileRetired (t : TileIx) (s : State) : Host.Outcome State Fault Refusal := .next (opTileRetired t.val s)
/-- CORE_SPARE. -/
def execCoreSpare (src : SvcSrc) (s : State) : Host.Outcome State Fault Refusal := .next (opCoreSpare src s)
/-- CORE_SPARED. -/
def execCoreSpared (parityFree : Bool) (s : State) : Host.Outcome State Fault Refusal := .next (opCoreSpared parityFree s)
/-- PLOT_RELOCATE. -/
def execPlotRelocate (src : SvcSrc) (s : State) : Host.Outcome State Fault Refusal := .next (opPlotRelocate src s)
/-- PLOT_RELOCATED. -/
def execPlotRelocated (bad : Option Nat) (s : State) : Host.Outcome State Fault Refusal := .next (opPlotRelocated bad s)
/-- FALLOW_APPROVE. -/
def execFallowApprove (src : MgmtSrc) (s : State) : Host.Outcome State Fault Refusal := .next (opFallowApprove src s)
/-- TILE_FAULT. -/
def execTileFault (t : TileIx) (s : State) : Host.Outcome State Fault Refusal := .next (opTileFault t.val s)
/-- SELF_TEST_END. -/
def execSelfTestEnd (t : TileIx) (passed : Bool) (s : State) : Host.Outcome State Fault Refusal :=
  .next (opSelfTestEnd t.val passed s)
/-- WEAR_MEASUREMENT. -/
def execWearMeasurement (t : TileIx) (drift : BitVec 16) (s : State) : Host.Outcome State Fault Refusal :=
  .next (opWear t.val drift.toNat s)
/-- ROW_SPARE. -/
def execRowSpare (t : TileIx) (bank : BitVec 4) (row : BitVec 11) (s : State) : Host.Outcome State Fault Refusal :=
  .next (opRowSpare t.val bank.toNat row.toNat s)
/-- TILE_RESET. -/
def execTileReset (src : MgmtSrc) (s : State) : Host.Outcome State Fault Refusal := .next (opTileReset src s)

end Sys2Proof.Machine
end

