-- ==== Sys2Proof/Machine/Vernier.lean ====
section
/-!
DEFINITION. The Vernier (R435 to R450): energy, metering intervals and signed records, its firmware and its seal, and the
packets that reach it (R444, R445, R449, R478).
-/
namespace Sys2Proof.Machine
open Sys2Proof

/-- The Vernier's state changed. -/
def modVrn (s : State) (f : Vrn → Vrn) : State := { s with vrn := f s.vrn }

/-- VRN_STATUS.STATE set: 0 loading, 1 recording, 2 replacing. -/
def setVrnState (s : State) (v : Nat) : State := setf s Reg.vrnStatus 31 30 v

/-- VRN_BOOTS, VRN_SEAL_EVENTS and VRN_FW_VERSION. -/
def Reg.vrnBoots : Nat := 0x700028
/-- VRN_SEAL_EVENTS -/
def Reg.vrnSealEvents : Nat := 0x70002C
/-- VRN_FW_VERSION -/
def Reg.vrnFwVersion : Nat := 0x700030

/-- Units of `Vrn.joules` in a millijoule: it counts 10^-18 J. -/
def milliJoule : Nat := 10 ^ 15

/-! Records (R438 to R441). -/

/-- One marker as a record holds it. -/
def Mark.bytes (m : Mark) : List Byte := leBytes 8 m.job ++ leBytes 8 m.energy ++ leBytes 4 m.offsetUs ++ leBytes 4 0

/-- FLAGS of the open interval; `more`: SHORT and RECOVERED. -/
def recordFlags (v : Vrn) (more : Nat) : Nat :=
  b2n v.first + more + v.flags + 64 * b2n (v.sealTouched || v.sealIsOpen) + 128 * b2n (v.fwVersion != v.lastRecordFw)

/-- The body of the open interval's record (R439). -/
def recordBody (s : State) (more : Nat) : List Byte :=
  let v := s.vrn
  let e := vrnEnergy s
  leBytes 4 0x314E5256 ++ leBytes 2 1 ++ leBytes 2 (recordFlags v more) ++ leBytes 8 Config.vernierSerial.toNat ++
    leBytes 8 Config.serial.toNat ++ leBytes 8 v.nextInterval ++ leBytes 8 e ++
    leBytes 8 ((e + 2 ^ 64 - v.lastEnergyMj) % 2 ^ 64) ++ leBytes 8 v.sampleUs ++
    leBytes 4 (getf s Reg.vrnBoots 31 0) ++ leBytes 4 v.fwVersion ++
    leBytes 4 v.pMax ++ leBytes 4 (min v.pMin v.pMax) ++ leBytes 2 v.vMax ++ leBytes 2 (min v.vMin v.vMax) ++
    leBytes 1 v.marks.length ++ leBytes 3 0 ++
    ((v.marks.flatMap Mark.bytes) ++ List.replicate (96 - 24 * v.marks.length) 0) ++ v.lastHash ++ leBytes 16 0

/-- SIGNATURE of record `n` (R441): made under a key that is never disclosed, over a random salt. -/
def recordSignature (n : Nat) : List Byte := (List.range 512).map (Config.vernierSignature n)

/-- The interval that follows a closed one: nothing metered yet. -/
def newInterval (v : Vrn) : Vrn :=
  { v with sampleUs := 0, first := false, sealTouched := v.sealIsOpen, marks := [], pMax := 0, pMin := 2 ^ 32 - 1,
           vMax := 0, vMin := 2 ^ 16 - 1, flags := 0, lastRecordFw := v.fwVersion }

/-- A body signed and stored (R438, R443). -/
def storeRecord (s : State) (body : List Byte) : State :=
  modVrn s fun v =>
    let r := body ++ recordSignature v.nextInterval
    { v with records := (r :: v.records).take 2097152, nextInterval := v.nextInterval + 1, lastHash := sha512 r,
             lastEnergyMj := leNat ((body.drop 0x20).take 8) }

/-- The open interval closed by a record. -/
def closeInterval (s : State) (more : Nat) : State :=
  let b := recordBody s more
  modVrn (storeRecord s b) newInterval

/-- A boundary of the Vernier's own timebase: whole seconds from its power-up (R438). -/
def atBoundary (v : Vrn) : Bool := v.upUs % 1000000 == 0 && v.sampleUs != 0

/-- INTERVAL_END (R438, R440): one record, unless the firmware is not running or the interval has just been closed. -/
def opIntervalEnd (s : State) : State :=
  if s.vrn.powered ∧ s.vrn.fwRunning ∧ atBoundary s.vrn then closeInterval s 0 else s

/-! Measurement (R435). -/

/-- One more millisecond has been averaged (R440, R455). -/
def msMean (s : State) : State :=
  let v := s.vrn
  let mw := v.msEnergy / 10 ^ 12
  let cv := v.msVolts / 1000 / 10 ^ 4
  let above := 8 * b2n (decide (2640 * 10 ^ 15 < v.msEnergy))
  let below := 16 * b2n (decide (v.msEnergy < 110 * 10 ^ 15))
  let volts := 32 * b2n (decide (v.msVolts < 40 * 10 ^ 9) || decide (60 * 10 ^ 9 < v.msVolts))
  let s := modVrn s fun v => { v with
    msEnergy := 0, msVolts := 0, msSamples := 0, pMax := max v.pMax mw, pMin := min v.pMin mw,
    vMax := max v.vMax cv, vMin := min v.vMin cv, flags := v.flags ||| above ||| below ||| volts }
  setf (setf s 0x700020 31 0 (mw % 2 ^ 32)) 0x700024 15 0 (cv % 2 ^ 16)

/-- ENERGY_SAMPLE (R435): one sample pair, of 1 µs. -/
def opEnergySample (uv ua : Nat) (s : State) : State :=
  if !s.vrn.powered then s
  else
    let e := uv * ua
    let s := modVrn s fun v => { v with
      joules := v.joules + e, sampleUs := v.sampleUs + 1, upUs := v.upUs + 1, msEnergy := v.msEnergy + e,
      msVolts := v.msVolts + uv, msSamples := v.msSamples + 1 }
    if 1000 ≤ s.vrn.msSamples then msMean s else s

/-! Power and firmware (R437, R447). -/

/-- The firmware stops: nothing is recorded until it runs again. -/
def stopFirmware (s : State) : State :=
  let s := modVrn s fun v => { v with fwRunning := false }
  alertLevel (setReg (setVrnState s 0) Reg.vrnFwVersion 0) 7 true

/-- VERNIER_POWER_UP (R435, R437, R447). -/
def opVernierPowerUp (s : State) : State :=
  if s.vrn.powered then s
  else
    let s := modVrn s fun v => { v with powered := true, upUs := 0, first := true, msEnergy := 0, msVolts := 0, msSamples := 0 }
    let s := setReg s Reg.vrnBoots (getReg s Reg.vrnBoots + 1)
    stopFirmware (setf s Reg.vrnStatus 15 0 0)

/-- VERNIER_POWER_LOSS (R437, R440): the register is stored as whole millijoules, and the open interval's body with it
where firmware is there to make one. -/
def opVernierPowerLoss (s : State) : State :=
  if !s.vrn.powered then s
  else
    let s := if s.vrn.fwRunning then
        let b := recordBody s 6
        modVrn s fun v => { newInterval v with stored := some b }
      else s
    modVrn s fun v => { v with
      powered := false, fwRunning := false, joules := v.joules / milliJoule * milliJoule, replacing := none }

/-- The firmware runs: a body that a loss of power left is signed first (R440). -/
def startFirmware (s : State) : State :=
  let s := modVrn s fun v => { v with fwRunning := true }
  let s := setReg (setVrnState s 1) Reg.vrnFwVersion (BitVec.ofNat 32 s.vrn.fwVersion)
  let s := alertLevel s 7 false
  match s.vrn.stored with
  | some b => modVrn (storeRecord s b) fun v => { v with stored := none }
  | none => s

/-- Steps 3 and 4 of R449: the slot written reads back right and becomes active, or the replacement fails. -/
def settleReplace (ok : Bool) (s : State) : State :=
  match s.vrn.replacing with
  | none => s
  | some (ver, dig) =>
    let s := setVrnState (modVrn s fun v => { v with replacing := none }) 0
    if ok then endJob (modVrn s fun v => { v with fwVersion := ver, fwDigestNew := some dig }) 2 0 else endJob s 2 0x0E05

/-- FW_LOAD_ATTEMPT (R447): the boot ROM verifies the active slot. While a replacement is being written, `verified` is
first the read-back of the slot written (R449). -/
def opFwLoadAttempt (verified : Bool) (s : State) : State :=
  if !s.vrn.powered ∨ s.vrn.fwRunning then s
  else
    let fresh := s.vrn.replacing.isSome
    let s := countUp (settleReplace verified s) Reg.vrnStatus 15 0
    if verified ∨ fresh then startFirmware s else s

/-! The seal (R448). -/

/-- SEAL_CHECK (R448, R449). -/
def opSealCheck (isOpen : Bool) (s : State) : State :=
  if !s.vrn.powered then s
  else
    let was := s.vrn.sealIsOpen
    let s := modVrn s fun v => { v with sealIsOpen := isOpen, sealTouched := v.sealTouched || isOpen }
    let s := setb s Reg.vrnStatus 29 isOpen
    if isOpen ∧ !was then
      let s := setReg s Reg.vrnSealEvents (getReg s Reg.vrnSealEvents + 1)
      logEntry s 0 0x0E0A 0 (getReg s Reg.vrnSealEvents).toNat
    else if !isOpen then settleReplace false s
    else s

/-! Firmware replacement (R449, R450). -/

/-- The image at staging offset 0: its VERSION and digest, where it verifies. -/
def vernierImage (s : State) : Option (Nat × List Byte) :=
  let g := s.cfg.staging
  let n := rdNat g 0x0C 4
  let ver := rdNat g 8 4
  if rdNat g 0 8 ≠ 0x314E52564C4F5543 ∨ n < 576 ∨ 4194304 < n ∨ ver < s.vrn.fwVersion then none
  else if rsaVerify Config.vernierFwModulus (rdBytes g 0 (n - 512)) (rdBytes g (n - 512) 512) then
    some (ver, sha512 (rdBytes g 0 n))
  else none

/-- The replacement goes ahead, presence having been given (R449 steps 1 and 2). -/
def beginReplace (s : State) : State :=
  if !s.vrn.sealIsOpen then endJob s 2 0x0E05
  else match vernierImage s with
    | none => endJob s 2 0x0E04
    | some x =>
      let s := if s.vrn.fwRunning then closeInterval s 2 else s
      let s := stopFirmware (modVrn s fun v => { v with first := true, replacing := some x })
      setVrnState s 2

/-! Packets. -/

/-- VERNIER_LATEST (R444). -/
def opVernierLatest (m : MgmtSrc) (s : State) : State :=
  serve (.imm 0x40 0 false) (fun _ s => badIf s.vrn.records.isEmpty 0x0E06 0)
    (answers fun _ s => (s, s.vrn.records.headD [])) m s

/-- Record `n`, where it is stored. -/
def recordAt (s : State) (n : Nat) : List Byte :=
  if n < s.vrn.nextInterval then (s.vrn.records[s.vrn.nextInterval - 1 - n]?).getD [] else []

/-- VERNIER_RECORDS (R444). -/
def opVernierRecords (m : MgmtSrc) (s : State) : State :=
  let first := fun (q : List Byte) => declNat q 16 8
  serve (.imm 0x41 12 false)
    (fun q s => firstBadOf
      [badIf s.vrn.records.isEmpty 0x0E06 0,
       badIf (decide (first q < vrnOldest s) || decide (s.vrn.nextInterval ≤ first q)) 0x0E07 0])
    (answers fun q s => (s, (List.range (min 5 (qWord q 8))).flatMap fun i => recordAt s (first q + i))) m s

/-- VERNIER_MARK (R445). -/
def opVernierMark (m : MgmtSrc) (s : State) : State :=
  serve (.imm 0x42 8 false)
    (fun _ s => firstBadOf [badIf (!s.vrn.fwRunning) 0x0E06 0, badIf (decide (4 ≤ s.vrn.marks.length)) 0x0E08 0])
    (acts fun q s =>
      let e := vrnEnergy s
      modVrn s fun v => { v with marks := v.marks ++ [⟨declNat q 16 8, e, v.sampleUs⟩] }) m s

/-- A presence-gated command of area 2 (R452 to R454): it waits for its window. -/
def gatedPacket (op : Nat) (fields : List Byte → State → Bad) (m : MgmtSrc) (s : State) : State :=
  serve (.bg op 0 false 2) (fun q s => firstBadOf [fields q s, badIf (presenceBusy s) 0x0E02 0])
    (acts fun _ s => setJobState (openWindow s op false) 2 3) m s

/-- VERNIER_FW_REPLACE (R449). -/
def opVernierFwReplace : MgmtSrc → State → State := gatedPacket 0x43 fun _ s => badIf (!s.vrn.sealIsOpen) 0x0E03 0

/-- LIFETIME_RESET (R478). -/
def opLifetimeReset : MgmtSrc → State → State := gatedPacket 0x44 noFields

/-- DEBUG_ENABLE (R424). -/
def opDebugEnable : MgmtSrc → State → State := gatedPacket 0x62 noFields

/-- The lifetime counters set to 0 (R478): FLT_LIFE and the FAULTS fields. -/
def clearLifetime (s : State) : State :=
  (List.range 1152).foldl (fun s t => setf s (wearR t) 15 8 0) (set64 s Reg.fltLife 0)

/-- VERNIER_POWER_UP. -/
def execVernierPowerUp (s : State) : Host.Outcome State Fault Refusal := .next (opVernierPowerUp s)
/-- ENERGY_SAMPLE. -/
def execEnergySample (microvolts microamps : Nat) (s : State) : Host.Outcome State Fault Refusal :=
  .next (opEnergySample microvolts microamps s)
/-- FW_LOAD_ATTEMPT. -/
def execFwLoadAttempt (verified : Bool) (s : State) : Host.Outcome State Fault Refusal := .next (opFwLoadAttempt verified s)
/-- INTERVAL_END. -/
def execIntervalEnd (s : State) : Host.Outcome State Fault Refusal := .next (opIntervalEnd s)
/-- VERNIER_POWER_LOSS. -/
def execVernierPowerLoss (s : State) : Host.Outcome State Fault Refusal := .next (opVernierPowerLoss s)
/-- SEAL_CHECK. -/
def execSealCheck (isOpen : Bool) (s : State) : Host.Outcome State Fault Refusal := .next (opSealCheck isOpen s)
/-- VERNIER_LATEST. -/
def execVernierLatest (src : MgmtSrc) (s : State) : Host.Outcome State Fault Refusal := .next (opVernierLatest src s)
/-- VERNIER_RECORDS. -/
def execVernierRecords (src : MgmtSrc) (s : State) : Host.Outcome State Fault Refusal := .next (opVernierRecords src s)
/-- VERNIER_MARK. -/
def execVernierMark (src : MgmtSrc) (s : State) : Host.Outcome State Fault Refusal := .next (opVernierMark src s)
/-- VERNIER_FW_REPLACE. -/
def execVernierFwReplace (src : MgmtSrc) (s : State) : Host.Outcome State Fault Refusal := .next (opVernierFwReplace src s)
/-- LIFETIME_RESET. -/
def execLifetimeReset (src : MgmtSrc) (s : State) : Host.Outcome State Fault Refusal := .next (opLifetimeReset src s)
/-- DEBUG_ENABLE. -/
def execDebugEnable (src : MgmtSrc) (s : State) : Host.Outcome State Fault Refusal := .next (opDebugEnable src s)

end Sys2Proof.Machine
end

