-- ==== Sys2Proof/Machine/Packets.lean ====
section
/-!
DEFINITION. The management packets of the dome controller itself (R422 to R425): identity, status, registers, the event
log, staging, plots, the fallow map, resets and debug access; and buffers (R269 to R274).
-/
namespace Sys2Proof.Machine
open Sys2Proof

/-- A register word as it reads, as 4 bytes. -/
def regBytes (s : State) (off : Nat) : List Byte := leBytes 4 (readReg s off).toNat

/-- A 64-bit register as it reads, as 8 bytes. -/
def regBytes64 (s : State) (off : Nat) : List Byte := regBytes s off ++ regBytes s (off + 4)

/-! Identity and status. -/

/-- The opcodes that R422 assigns. -/
def assignedOps : List Nat :=
  [0x01, 0x02, 0x03, 0x04, 0x05, 0x06, 0x10, 0x11, 0x12, 0x13, 0x14, 0x15, 0x16, 0x17, 0x18, 0x20, 0x21, 0x30, 0x31, 0x32,
    0x33, 0x34, 0x35, 0x40, 0x41, 0x42, 0x43, 0x44, 0x50, 0x51, 0x52, 0x53, 0x60, 0x61, 0x62, 0x63, 0x64]

/-- RESERVED_OPCODE (R14, R418): any opcode that R422 does not assign. -/
def opReservedOpcode (m : MgmtSrc) (s : State) : State :=
  match requestOf s m with
  | none => s
  | some q =>
    if assignedOps.contains (qOp q) then s
    else match remembered s m q with
      | some r => sendReply s m q r
      | none => sendReply s m q (replyBytes q false (if qReserved q then 0x0001 else 0x0002) 0 [])

/-- IDENTIFY (R422). -/
def opIdentify (m : MgmtSrc) (s : State) : State :=
  serve (.imm 0x01 0 false) noFields (answers fun _ s => (s,
    regBytes s 0x100038 ++ leBytes 4 0 ++ regBytes64 s 0x100040 ++ leBytes 4 Config.romVersion ++
      leBytes 4 Config.domeFwVersion ++ leBytes 4 (getf s Reg.vrnFwVersion 31 0) ++ regBytes s Reg.straps ++
      regBytes64 s Reg.imageTag)) m s

/-- STATUS (R422); the last word is the dome controller's own measurement. -/
def opStatus (m : MgmtSrc) (powerW mv10 : Nat) (s : State) : State :=
  serve (.imm 0x02 0 false) noFields (answers fun _ s => (s,
    regBytes s Reg.alertCause ++ regBytes s Reg.thermal ++ regBytes s Reg.cfgStatus ++ regBytes s Reg.memStatus ++
      regBytes64 s Reg.poolStatus ++ regBytes s Reg.mtrStatus ++ regBytes s Reg.hostLink ++
      leBytes 4 (powerW % 65536 * 65536 + mv10 % 65536))) m s

/-- JOB_STATUS (R420). -/
def opJobStatus (m : MgmtSrc) (s : State) : State :=
  serve (.imm 0x03 0 false) noFields (answers fun _ s => (s,
    [0, 1, 2, 3].flatMap fun a => leBytes 8 (getJob s a).word)) m s

/-! Registers (R423). -/

/-- The ranges of R423: first and last byte. -/
def readableRanges : List (Nat × Nat) :=
  [(0x000000, 0x0FFFFF), (0x100000, 0x1000FF), (0x400000, 0x4FFFFF), (0x500000, 0x5FFFFF), (0x700000, 0x7FFFFF),
    (0x800000, 0x8FFFFF)]

/-- REG_READ (R423): no side effect. -/
def opRegRead (m : MgmtSrc) (s : State) : State :=
  serve (.imm 0x04 8 false)
    (fun q _ =>
      let off := qWord q 0
      let n := qWord q 4
      firstBadOf
        [ badIf (off % 4 != 0) 0x0305 0
        , badIf (n == 0 || decide (1024 < n)) 0x0305 4
        , badIf (!readableRanges.any fun r => decide (r.1 ≤ off) && decide (off + 4 * n ≤ r.2 + 1)) 0x0305 0 ])
    (answers fun q s => (s, (List.range (qWord q 4)).flatMap fun i => regBytes s (qWord q 0 + 4 * i))) m s

/-- REG_WRITE (R423): the two alert registers only, as the host's write would act. -/
def opRegWrite (m : MgmtSrc) (s : State) : State :=
  serve (.imm 0x05 8 false)
    (fun q _ => badIf (qWord q 0 != Reg.alertCause && qWord q 0 != Reg.alertEnable) 0x0305 0)
    (acts fun q s =>
      let v := BitVec.ofNat 32 (qWord q 4)
      if qWord q 0 = Reg.alertCause then opAlertCauseWrite v s else opAlertEnableWrite v s) m s

/-- The 32 bytes of log entry `e`. -/
def logBytes (s : State) (e : Nat) : List Byte := (List.range 8).flatMap fun i => regBytes s (0x840000 + 32 * (e % 4096) + 4 * i)

/-- EVENT_LOG_READ (R457): from FIRST, or from the oldest entry held. -/
def opEventLogRead (m : MgmtSrc) (s : State) : State :=
  serve (.imm 0x06 4 false) noFields (answers fun q s =>
    let head := getf s Reg.logHead 31 0
    let first := max (qWord q 0) (head - 4096)
    let n := min 127 (head - first)
    (s, leBytes 4 (first + n) ++ leBytes 4 n ++ (List.range n).flatMap fun i => logBytes s (first + i))) m s

/-! Staging and plots. -/

/-- STAGE_WRITE (R422): 4 to 4,088 bytes within the staging area. -/
def opStageWrite (m : MgmtSrc) (s : State) : State :=
  serve ⟨0x10, fun n => decide (12 ≤ n) && decide (n ≤ 4096) && n % 4 == 0, false, false, none⟩
    (fun q _ => firstBadOf
      [ badIf (qWord q 4 != 0) 0x0001 4
      , badIf (qWord q 0 % 4 != 0 || decide (2 ^ 28 < qWord q 0 + (qLen q - 8))) 0x0305 0 ])
    (acts fun q s => stageBytes s (qWord q 0) ((q.drop 24).take (qLen q - 8))) m s

/-- PLOT_STATUS (R422). -/
def opPlotStatus (m : MgmtSrc) (s : State) : State :=
  serve (.imm 0x20 4 true) (fun q _ => badIf (decide (32 ≤ qWord q 0)) 0x0001 0) (answers fun q s =>
    let p := qWord q 0 % 32
    (s, regBytes s (pltR p 4) ++ leBytes 4 0 ++ regBytes64 s (pltR p 8) ++ regBytes s (pltR p 0x10) ++
      regBytes s (pltR p 0x14) ++ regBytes s (pltR p 0x18))) m s

/-- PLOT_COMMAND (R422): a write of PLT_CTRL, whose outcome PLT_STATUS.CODE shows (R344). -/
def opPlotCommand (m : MgmtSrc) (s : State) : State :=
  serve (.imm 0x21 8 true)
    (fun q _ => firstBadOf [badIf (fld (qWord q 0) 27 0 != 0) 0x0001 0, badIf (decide (32 ≤ qWord q 4)) 0x0001 4])
    (acts fun q s => pltCtrl (qWord q 4 % 32) (BitVec.ofNat 32 (qWord q 0)) s) m s

/-- FALLOW_MAP (R422). -/
def opFallowMap (m : MgmtSrc) (s : State) : State :=
  serve (.imm 0x30 0 true) noFields (answers fun _ s => (s,
    (allTiles.flatMap fun t => leBytes 1 (tileState s t)) ++
      ((List.range 13).flatMap fun p => leBytes 1 (getf s (pkgInfoR p) 31 30)) ++
      ((List.range 9).flatMap fun c => leBytes 1 (coreState s c)) ++
      (List.range 34).flatMap fun x => leBytes 1 (siteState s x))) m s

/-! Buffers (R269 to R274). -/

/-- A 64-bit payload field. -/
def qDword (q : List Byte) (off : Nat) : Nat := declNat q (16 + off) 8

/-- KIND of BUFFER_ALLOC. -/
def qKind (q : List Byte) : Nat := fld (qWord q 8) 19 18

/-- A BAR0 range lies wholly inside the LNK_, the MTR_ or the VRN_ block (R273). -/
def inWindowBlocks (off n : Nat) : Bool :=
  [(0x300000, 0x400000), (0x400000, 0x500000), (0x700000, 0x800000)].any fun b => decide (b.1 ≤ off) && decide (off + n ≤ b.2)

/-- The limits of a window handle (R273, R349). -/
def windowRangeOk (q : List Byte) : Bool :=
  let size := qDword q 0
  let off := qDword q 16
  if qKind q = 1 then size % 64 == 0 && off % 64 == 0 && decide (off + size ≤ 2 ^ 32)
  else qKind q != 2 || inWindowBlocks off size

/-- Pages of page capacity of one module (R270). -/
def modulePages : Nat := 1472 * 2 ^ 30 / 65536

/-- Pages reserved on a module. -/
def pagesIn (s : State) (m : Nat) : Nat :=
  s.handles.foldl (fun n h => if isWindow h then n
    else n + ((List.range (pagesOf h.size)).filter fun j => (placeOf s h j).module == m).length) 0

/-- Pages reserved in the pool. -/
def pagesReserved (s : State) : Nat := s.handles.foldl (fun n h => if isWindow h then n else n + pagesOf h.size) 0

/-- No pool serves buffers (R271, R280). -/
def noPool (s : State) : Bool := poolState s != 2 || s.pool.stewardLost

/-- This module is the steward of a pool (R280). -/
def isSteward (s : State) : Bool := !noPool s && stewardId s == ownId s

/-- The checks of BUFFER_ALLOC in their order (R271): those of the steward are made there. -/
def allocBad (q : List Byte) (s : State) : Bad :=
  firstBadOf
    [ badIf (fld (qWord q 8) 31 20 != 0) 0x0001 8
    , badIf (fld (qWord q 12) 31 8 != 0) 0x0001 12
    , badIf (qKind q == 3) 0x0002 8
    , badIf (qDword q 0 == 0 || decide (2 ^ 44 < qDword q 0)) 0x0305 0
    , badIf (qKind q == 1 && decide (32 ≤ qWord q 12)) 0x0305 12
    , badIf (!windowRangeOk q) 0x0305 16
    , badIf (noPool s) 0x0801 0
    , badIf (isSteward s && decide (1048576 ≤ s.handles.length)) 0x0802 0
    , badIf (isSteward s && qKind q == 0 && decide ((memberList s).length * modulePages < pagesReserved s + pagesOf (qDword q 0))) 0x0803 0 ]

/-- The lowest value above `last` that no live handle has, wrapping to 1 (R271): tried at most `n` times. -/
def nextHandle (s : State) : Nat → Nat → Nat
  | 0, last => last
  | n + 1, last =>
    let x := if last + 1 < 2 ^ 32 then last + 1 else 1
    if s.handles.any fun h => h.id == x then nextHandle s n x else x

/-- The member with the most free capacity, the lowest POOL_ID of equals. -/
def roomiest (s : State) (l : List Nat) : Nat :=
  match l with
  | [] => ownId s
  | m :: t => t.foldl (fun b x => if pagesIn s x < pagesIn s b then x else b) m

/-- Pages from `j` on put where there is room, once the module that asked is full (R270). -/
def spillPages (h : Handle) (tier : Nat) : Nat → Nat → State → State
  | 0, _, s => s
  | n + 1, j, s =>
    let s := if modulePages < pagesIn s h.home then
        setPlace s h.id j ⟨roomiest s ((memberList s).filter (· != h.home)), tier, 0⟩
      else s
    spillPages h tier n (j + 1) s

/-- The first pages of a new buffer of this module put where TIER asks and there is room, one tier down where there is none
(R165, R166, R270); LPDDR6 needs no entry. -/
def startPage (h : Handle) (s : State) (tier page : Nat) : State :=
  let tiles := allTiles.filter (inService s)
  let t0 := if tier = 0 then roomyTiles s tiles 0 0 else []
  let t1 := if tier ≤ 1 ∨ memState s ≠ 2 then roomyTiles s tiles 1 0 else []
  if t0 ≠ [] then placeOn s h t0 0 page
  else if t1 ≠ [] then placeOn s h t1 1 page
  else setPlace s h.id page ⟨h.home, 2, 0⟩

/-- The pages of a new buffer. -/
def startPages (h : Handle) (tier : Nat) (s : State) : State :=
  if h.home ≠ ownId s ∨ (2 ≤ tier ∧ memState s = 2) then s
  else (List.range (pagesOf h.size)).foldl (fun s j => startPage h s tier j) s

/-- The handle that a request makes, for the member that received it. -/
def newHandle (q : List Byte) (home id : Nat) : Handle :=
  let w := qWord q 8
  ⟨id, qDword q 0, qKind q, fld w 17 16, fld w 15 0, qWord q 12 % 32, qDword q 16, home, none, []⟩

/-- The change that a granted BUFFER_ALLOC makes on every member: the new handle, and its pages in the tier that TIER names
on the member that received the request (R270). No page starts in LPDDR6 before the tier is in service (R398). -/
def addHandle (q : List Byte) (home id : Nat) (s : State) : State :=
  let h := newHandle q home id
  let tier := min 2 h.tier
  let s := { s with handles := s.handles ++ [h], pool := { s.pool with lastHandle := id } }
  if h.kind ≠ 0 then s
  else
    let s := startPages h tier s
    if modulePages < pagesIn s home then spillPages h tier (pagesOf h.size) 0 s else s

/-- The steward's answer to a request is recorded on the deputy before it goes out (R269). -/
def recorded (s : State) (member : Nat) (q r : List Byte) : State :=
  if deputyId s = ownId s then s else emit s (.replicate (deputyId s) member q r)

/-- A buffer request that a member has received: the steward serves it, and records the change; any other member passes it
to the steward and replies as the steward answers. `grant` gives the payload and the change. -/
def poolServe (ans : PoolAnswer) (grant : Nat → List Byte → State → List Byte × State)
    (taken : List Byte → List Byte → State → State) (q : List Byte) (s : State) : State × Nat × List Byte :=
  if isSteward s then
    let r := grant (ownId s) q s
    (recorded r.2 (ownId s) q (replyBytes q false 0 0 r.1), 0, r.1)
  else
    let s := emit s (.poolRequest (stewardId s) q)
    if ans.code = 0 then (taken q ans.payload s, 0, ans.payload) else (s, ans.code.toNat, [])

/-- A buffer request of opcode `op` from any source (R269): a member's, passed to this module as steward, and the steward's
record of a request that it has granted, beside a request of this module's own host. -/
def bufferRequest (op len : Nat) (bad : List Byte → State → Bad) (ans : PoolAnswer)
    (grant : Nat → List Byte → State → List Byte × State) (taken : Nat → List Byte → List Byte → State → State)
    (m : MgmtSrc) (s : State) : State :=
  match m with
  | .peer f q =>
    if !isSteward s ∨ !isMember s f ∨ f = ownId s ∨ qOp q ≠ op then s
    else match bad q s with
      | some (c, d) => sendReply s m q (replyBytes q false c d [])
      | none =>
        let r := grant f q s
        let reply := replyBytes q false 0 0 r.1
        sendReply (recorded r.2 f q reply) m q reply
  | .replica f q r => if noPool s ∨ isSteward s ∨ f = ownId s ∨ qOp q ≠ op then s else taken f q (r.drop 16) s
  | _ => serve ⟨op, (· == len), true, true, none⟩ bad (poolServe ans grant (taken (ownId s))) m s

/-- BUFFER_ALLOC (R269 to R273). -/
def opBufferAlloc (m : MgmtSrc) (ans : PoolAnswer) (s : State) : State :=
  bufferRequest 0x50 24 allocBad ans
    (fun home q s =>
      let id := nextHandle s (s.handles.length + 1) s.pool.lastHandle
      (leBytes 4 id, addHandle q home id s))
    (fun home q p s => addHandle q home (leNat (p.take 4)) s) m s

/-- A handle is in use (R274). -/
def handleUsed (s : State) (id : Nat) : Bool :=
  let arm := fun (a : Arming) => a.src == id || a.dst == id || a.recHandle == id
  (s.alms.any fun p => p.2.subs.any fun sb => !sb.finished && sb.views.any fun v => vHandle v == id || (vScaled v && vComp v == id)) ||
  ((List.range 17).any fun fn => (List.range (windowCount fn)).any fun w =>
    getb s (winR fn w 4) 31 && getf s (winR fn w 0) 31 0 == id) ||
  (s.tiles.any fun t => t.2.stm.any fun c => (c.2.active.map arm).getD false || (c.2.shadow.map arm).getD false) ||
  ((List.range 256).any fun a => almOn s a && (getf s (almR a 0x14) 31 0 == id || getf s (almR a 0x18) 31 0 == id)) ||
  ((List.range 8).any fun p => getb s (fecR p) 31 && getf s (lnkR p 0x108) 63 32 == id) ||
  ((List.range 8).any fun p => (List.range 32).any fun k => slotOn s p k && getf s (slotR p k 4) 31 0 == id) ||
  ((List.range 16).any fun p => getb s (swapR p 0) 31 && (getf s (swapR p 4) 31 0 == id || getf s (swapR p 8) 31 0 == id)) ||
  (match s.cfg.run with
    | some r => r.command == 5 && getf s Reg.stageSrc 31 0 == id
    | none => false)

/-- The checks of BUFFER_FREE and BUFFER_INFO. -/
def handleBad (q : List Byte) (s : State) : Bad :=
  firstBadOf [badIf (noPool s) 0x0801 0, badIf (findHandle s (qWord q 0)).isNone 0x0303 0]

/-- The entries of a handle's pages taken out. -/
def dropPages {α : Type} (id : Nat) (l : List (Nat × α)) : List (Nat × α) :=
  l.filter fun p => !(decide (pageKey id 0 ≤ p.1) && decide (p.1 < pageKey (id + 1) 0))

/-- A handle freed: its pin goes and its contents are discarded. -/
def freeHandle (s : State) (id : Nat) : State :=
  { s with
    handles := s.handles.filter fun h => h.id != id,
    mem := clrBytes s.mem (memKey id 0) (memKey (id + 1) 0),
    places := s.places.filter fun p => !(decide (pageKey id 0 ≤ p.1) && decide (p.1 < pageKey (id + 1) 0)),
    engine := { s.engine with
      byTile := dropPages id s.engine.byTile, byModule := dropPages id s.engine.byModule, last := dropPages id s.engine.last,
      epochRuns := dropPages id s.engine.epochRuns, cache := s.engine.cache.filter fun p => p.1 != id },
    copies := s.copies.filter fun c => c.handle != id,
    lpddr := { s.lpddr with badGranules := s.lpddr.badGranules.filter fun g => g.1 != id } }

/-- BUFFER_FREE (R274): the handle must be in use on no member. -/
def opBufferFree (m : MgmtSrc) (ans : PoolAnswer) (s : State) : State :=
  bufferRequest 0x51 4
    (fun q s => firstBadOf [handleBad q s, badIf (handleUsed s (qWord q 0) || (isSteward s && ans.busy)) 0x0804 0])
    ans (fun _ q s => ([], freeHandle s (qWord q 0))) (fun _ q _ s => freeHandle s (qWord q 0)) m s

/-- What BUFFER_INFO answers of a handle (R269). -/
def infoBytes (s : State) (h : Handle) : List Byte :=
  let here := if isWindow h then 0 else ((livePages h).filter fun j => (placeOf s h j).module == ownId s).length
  leBytes 8 h.size ++ leBytes 4 (h.kind * 2 ^ 18 + h.tier * 2 ^ 16 + h.access) ++ leBytes 4 h.lost.length ++ leBytes 4 here

/-- BUFFER_INFO (R269): nothing changes, so there is nothing to record. -/
def opBufferInfo (m : MgmtSrc) (ans : PoolAnswer) (s : State) : State :=
  let info := fun q s => ((findHandle s (qWord q 0)).map (infoBytes s)).getD []
  match m with
  | .replica _ _ _ => s
  | .peer _ _ => bufferRequest 0x52 4 handleBad ans (fun _ q s => (info q s, s)) (fun _ _ _ s => s) m s
  | _ => serve ⟨0x52, (· == 4), true, true, none⟩ handleBad (fun q s =>
      if isSteward s then (s, 0, info q s)
      else (emit s (.poolRequest (stewardId s) q), ans.code.toNat, ans.payload)) m s

/-- POOL_STATUS (R422). -/
def opPoolStatusPacket (m : MgmtSrc) (s : State) : State :=
  serve (.imm 0x53 0 true) noFields (answers fun _ s => (s, regBytes64 s Reg.poolStatus ++ regBytes64 s Reg.poolMembers)) m s

/-! Resets and debug access. -/

/-- DEVICE_RESET (R433): the SOFT reset is due 1 ms after the reply. -/
def opDeviceReset (m : MgmtSrc) (s : State) : State :=
  serve (.bg 0x60 0 false 3) noFields (acts fun _ s =>
    let now := s.cycle
    { s with mgmt := { s.mgmt with softDue := some now } }) m s

/-- DEBUG_DISABLE (R424). -/
def opDebugDisable (m : MgmtSrc) (s : State) : State :=
  serve (.imm 0x63 0 false) noFields (acts fun _ s => { s with mgmt := { s.mgmt with debug := false } }) m s

/-- Bytes of a tier of this module (R8, R424). -/
def tierBytes (tier : Nat) : Nat :=
  if tier = 0 then 1152 * 2 ^ 21 else if tier = 1 then 1152 * 2 ^ 25 else 1440 * 2 ^ 30

/-- The buffer page that holds a byte of a tier, and the byte's offset in its buffer. -/
def pageAt (s : State) (tier off : Nat) : Option (Handle × Nat) :=
  s.handles.findSome? fun h =>
    if isWindow h then none
    else (livePages h).findSome? fun j =>
      let p := placeOf s h j
      let base := Config.pageOffset (pageKey h.id j)
      if p.module = ownId s ∧ p.tier = tier ∧ base ≤ off ∧ off < base + pageBytes then some (h, j * pageBytes + (off - base))
      else none

/-- One byte of a tier; where no buffer's page lies, a byte that the manual does not give. -/
def tierByte (s : State) (tier off : Nat) : Byte :=
  match pageAt s tier off with
  | some (h, o) => rdByte s.mem (memKey h.id o)
  | none => Config.diagByte s.free (tier * 2 ^ 48 + off)

/-- An uncorrectable granule lies in a range of a tier. -/
def tierBad (s : State) (tier off n : Nat) : Bool :=
  (List.range n).any fun i => match pageAt s tier (off + i) with
    | some (h, o) => s.lpddr.badGranules.contains (h.id, o / 64)
    | none => false

/-- The fields of DIAG_READ (R424). -/
def diagBad (q : List Byte) (s : State) : Bad :=
  let addr := qDword q 0
  let space := qWord q 8
  let n := qWord q 12
  let tier := fld addr 49 48
  firstBadOf
    [ badIf (decide (256 ≤ space)) 0x0001 8
    , badIf (decide (2 ≤ space)) 0x0305 8
    , badIf (n == 0 || decide (4096 < n) || (space == 1 && n != 256)) 0x0305 12
    , badIf (space == 0 && (fld addr 63 50 != ownId s || tier == 3 || decide (tierBytes tier < fld addr 47 0 + n))) 0x0305 0
    , badIf (space == 1 && (decide (2 ^ 20 ≤ addr) || decide (siteFrames (addr / 2 ^ 14) ≤ addr % 2 ^ 14))) 0x0305 0
    , badIf (!s.mgmt.debug) 0x0D05 0 ]

/-- DIAG_READ (R424): the bytes, or MEM_UNCORRECTABLE without data. -/
def opDiagRead (m : MgmtSrc) (s : State) : State :=
  serve (.imm 0x64 16 true) diagBad (fun q s =>
    let addr := qDword q 0
    let n := qWord q 12
    let tier := fld addr 49 48
    if qWord q 8 = 1 then (s, 0, leBytes 256 (smGet 0 addr s.cfg.frames))
    else if tierBad s tier (fld addr 47 0) n then (s, 0x0C03, [])
    else ({ s with free := s.free + 1 }, 0, (List.range n).map fun i => tierByte s tier (fld addr 47 0 + i))) m s

/-- RESERVED_OPCODE. -/
def execReservedOpcode (src : MgmtSrc) (s : State) : Host.Outcome State Fault Refusal := .next (opReservedOpcode src s)
/-- IDENTIFY. -/
def execIdentify (src : MgmtSrc) (s : State) : Host.Outcome State Fault Refusal := .next (opIdentify src s)
/-- STATUS. -/
def execStatus (src : MgmtSrc) (powerW mv10 : BitVec 16) (s : State) : Host.Outcome State Fault Refusal :=
  .next (opStatus src powerW.toNat mv10.toNat s)
/-- JOB_STATUS. -/
def execJobStatus (src : MgmtSrc) (s : State) : Host.Outcome State Fault Refusal := .next (opJobStatus src s)
/-- REG_READ. -/
def execRegRead (src : MgmtSrc) (s : State) : Host.Outcome State Fault Refusal := .next (opRegRead src s)
/-- REG_WRITE. -/
def execRegWrite (src : MgmtSrc) (s : State) : Host.Outcome State Fault Refusal := .next (opRegWrite src s)
/-- EVENT_LOG_READ. -/
def execEventLogRead (src : MgmtSrc) (s : State) : Host.Outcome State Fault Refusal := .next (opEventLogRead src s)
/-- STAGE_WRITE. -/
def execStageWrite (src : MgmtSrc) (s : State) : Host.Outcome State Fault Refusal := .next (opStageWrite src s)
/-- PLOT_STATUS. -/
def execPlotStatus (src : MgmtSrc) (s : State) : Host.Outcome State Fault Refusal := .next (opPlotStatus src s)
/-- PLOT_COMMAND. -/
def execPlotCommand (src : MgmtSrc) (s : State) : Host.Outcome State Fault Refusal := .next (opPlotCommand src s)
/-- FALLOW_MAP. -/
def execFallowMap (src : MgmtSrc) (s : State) : Host.Outcome State Fault Refusal := .next (opFallowMap src s)
/-- BUFFER_ALLOC. -/
def execBufferAlloc (src : MgmtSrc) (pool : PoolAnswer) (s : State) : Host.Outcome State Fault Refusal :=
  .next (opBufferAlloc src pool s)
/-- BUFFER_FREE. -/
def execBufferFree (src : MgmtSrc) (pool : PoolAnswer) (s : State) : Host.Outcome State Fault Refusal :=
  .next (opBufferFree src pool s)
/-- BUFFER_INFO. -/
def execBufferInfo (src : MgmtSrc) (pool : PoolAnswer) (s : State) : Host.Outcome State Fault Refusal :=
  .next (opBufferInfo src pool s)
/-- POOL_STATUS. -/
def execPoolStatus (src : MgmtSrc) (s : State) : Host.Outcome State Fault Refusal := .next (opPoolStatusPacket src s)
/-- DEVICE_RESET. -/
def execDeviceReset (src : MgmtSrc) (s : State) : Host.Outcome State Fault Refusal := .next (opDeviceReset src s)
/-- DEBUG_DISABLE. -/
def execDebugDisable (src : MgmtSrc) (s : State) : Host.Outcome State Fault Refusal := .next (opDebugDisable src s)
/-- DIAG_READ. -/
def execDiagRead (src : MgmtSrc) (s : State) : Host.Outcome State Fault Refusal := .next (opDiagRead src s)

end Sys2Proof.Machine
end

