-- ==== Sys2Proof/Machine/Attest.lean ====
section
/-!
DEFINITION. The I3C target, the MCTP control messages (R426) and the SPDM responder with its measurements (R427, R428).
The layout of each message is that of the DMTF standard the rule names.
-/
namespace Sys2Proof.Machine
open Sys2Proof

/-! MCTP control messages (R426). -/

/-- The endpoint takes a packet: from the end of ROM boot, of at most 64 bytes, with the message integrity check bit 0. -/
def mctpTaken (pkt : MctpPkt) (s : State) : Bool := s.power.romBooted && decide (pkt.size ≤ 64) && !pkt.integrity

/-- A control response: command code, completion code and data, with the in-band interrupt that announces it. -/
def mctpAnswer (s : State) (command completion : Nat) (data : List Byte) : State :=
  emit (emit s .i3cInterrupt) (.mctp (leBytes 1 command ++ leBytes 1 completion ++ data))

/-- A control request that the endpoint takes is answered; any other is discarded. -/
def mctpControl (pkt : MctpPkt) (f : State → State) (s : State) : State := if mctpTaken pkt s then f s else s

/-- SET_ENDPOINT_ID: the null and broadcast identifiers are invalid data. -/
def opSetEndpointId (pkt : MctpPkt) (eid : Nat) (s : State) : State :=
  mctpControl pkt (fun s =>
    if eid = 0 ∨ eid = 255 then mctpAnswer s 0x01 0x02 []
    else mctpAnswer { s with mgmt := { s.mgmt with eid := eid } } 0x01 0x00 (leBytes 1 0 ++ leBytes 1 eid ++ leBytes 1 0)) s

/-- GET_ENDPOINT_ID: a simple endpoint with a dynamic identifier. -/
def opGetEndpointId (pkt : MctpPkt) (s : State) : State :=
  mctpControl pkt (fun s => mctpAnswer s 0x02 0x00 (leBytes 1 s.mgmt.eid ++ leBytes 2 0)) s

/-- GET_ENDPOINT_UUID. -/
def opGetEndpointUuid (pkt : MctpPkt) (s : State) : State :=
  mctpControl pkt (fun s => mctpAnswer s 0x03 0x00 ((List.range 16).map Config.endpointUuid)) s

/-- GET_MCTP_VERSION_SUPPORT: one entry, version 1.3. -/
def opGetMctpVersionSupport (pkt : MctpPkt) (s : State) : State :=
  mctpControl pkt (fun s => mctpAnswer s 0x04 0x00 (leBytes 1 1 ++ beBytes 4 0xF1F3FF00)) s

/-- GET_MESSAGE_TYPE_SUPPORT: types 0x00 and 0x7E. -/
def opGetMessageTypeSupport (pkt : MctpPkt) (s : State) : State :=
  mctpControl pkt (fun s => mctpAnswer s 0x05 0x00 (leBytes 1 2 ++ leBytes 1 0x00 ++ leBytes 1 0x7E)) s

/-- GET_VENDOR_DEFINED_MESSAGE_SUPPORT: one vendor identifier, of the PCI form. -/
def opGetVendorDefinedMessageSupport (pkt : MctpPkt) (s : State) : State :=
  mctpControl pkt (fun s =>
    mctpAnswer s 0x06 0x00 (leBytes 1 0xFF ++ leBytes 1 0 ++ beBytes 2 Config.pciVendor ++ leBytes 2 0)) s

/-- UNSUPPORTED_MCTP_CONTROL: any command but 1 to 6 is answered with ERROR_UNSUPPORTED_CMD. -/
def opUnsupportedMctpControl (pkt : MctpPkt) (command : Nat) (s : State) : State :=
  mctpControl pkt (fun s => if 1 ≤ command ∧ command ≤ 6 then s else mctpAnswer s command 0x05 []) s

/-- ENTDAA: the dynamic address that the bus controller gives. -/
def opEntdaa (address : Nat) (s : State) : State := { s with mgmt := { s.mgmt with dynAddr := address } }

/-! SPDM (R427). -/

/-- An SPDM response: its code, its two parameters and the rest. -/
def spdmAnswer (s : State) (code p1 p2 : Nat) (rest : List Byte) : State :=
  emit s (.spdm code (leBytes 1 p1 ++ leBytes 1 p2 ++ rest))

/-- An ERROR response; no negotiated state is kept. -/
def spdmError (s : State) (code data : Nat) : State :=
  spdmAnswer { s with mgmt := { s.mgmt with spdmNegotiated := false } } 0x7F code data []

/-- The responder answers from the end of ROM boot. -/
def spdmTaken (f : State → State) (s : State) : State := if s.power.romBooted then f s else s

/-- A request that needs negotiated algorithms: without them, an ERROR response. -/
def spdmNegotiated (f : State → State) (s : State) : State :=
  spdmTaken (fun s => if s.mgmt.spdmNegotiated then f s else spdmError s 0x04 0) s

/-- GET_VERSION: 1.2 alone; the connection starts afresh. -/
def opGetVersion (s : State) : State :=
  spdmTaken (fun s =>
    spdmAnswer { s with mgmt := { s.mgmt with spdmNegotiated := false } } 0x04 0 0 (leBytes 1 0 ++ leBytes 1 1 ++ leBytes 2 0x1200)) s

/-- Flags of CAPABILITIES: CERT_CAP, CHAL_CAP and MEAS_CAP with signature. -/
def spdmFlags : Nat := 0x02 + 0x04 + 0x10

/-- GET_CAPABILITIES: CTExponent 20. -/
def opGetCapabilities (s : State) : State :=
  spdmTaken (fun s =>
    spdmAnswer s 0x61 0 0 (leBytes 1 0 ++ leBytes 1 20 ++ leBytes 2 0 ++ leBytes 4 spdmFlags ++ leBytes 8 Config.spdmSizes)) s

/-- NEGOTIATE_ALGORITHMS: TPM_ALG_RSAPSS_4096 and TPM_ALG_SHA_512 where offered; an ERROR response where neither is. -/
def opNegotiateAlgorithms (asym hash : Bool) (s : State) : State :=
  spdmTaken (fun s =>
    if !asym && !hash then spdmError s 0x01 0
    else spdmAnswer { s with mgmt := { s.mgmt with spdmNegotiated := asym && hash } } 0x63 0 0
      (leBytes 2 36 ++ leBytes 1 1 ++ leBytes 1 0 ++ leBytes 4 0x08 ++ leBytes 4 (0x40 * b2n asym) ++
        leBytes 4 (0x04 * b2n hash) ++ leBytes 16 0)) s

/-- The certificate chain of slot 0. -/
def spdmChain : List Byte := (List.range Config.spdmCertLen).map Config.spdmCert

/-- The next signature of the attestation key. -/
def spdmSign (s : State) : List Byte := (List.range 512).map (Config.spdmSignature s.mgmt.spdmCount)

/-- The next nonce. -/
def spdmNonce (s : State) : List Byte := (List.range 32).map (Config.spdmNonce s.mgmt.spdmCount)

/-- One more response with a nonce has been made. -/
def spdmCounted (s : State) : State := { s with mgmt := { s.mgmt with spdmCount := s.mgmt.spdmCount + 1 } }

/-- GET_DIGESTS: the digest of slot 0's chain. -/
def opGetDigests (s : State) : State := spdmNegotiated (fun s => spdmAnswer s 0x01 0 1 (sha512 spdmChain)) s

/-- GET_CERTIFICATE: a portion of slot 0's chain. -/
def opGetCertificate (slot offset length : Nat) (s : State) : State :=
  spdmNegotiated (fun s =>
    if slot ≠ 0 ∨ Config.spdmCertLen ≤ offset then spdmError s 0x01 0
    else
      let part := (spdmChain.drop offset).take length
      spdmAnswer s 0x02 0 0 (leBytes 2 part.length ++ leBytes 2 (Config.spdmCertLen - offset - part.length) ++ part)) s

/-- CHALLENGE: signed with the attestation key. -/
def opChallenge (slot : Nat) (_nonce : List Byte) (s : State) : State :=
  spdmNegotiated (fun s =>
    if slot ≠ 0 then spdmError s 0x01 0
    else spdmCounted (spdmAnswer s 0x03 0 1 (sha512 spdmChain ++ spdmNonce s ++ leBytes 2 0 ++ spdmSign s))) s

/-! Measurements (R428). -/

/-- A firmware digest: the ROM (1), the dome controller (2) or the Vernier's first firmware (3). -/
def fwDigest (n : Nat) : List Byte := (List.range 64).map (Config.firmwareDigest n)

/-- Measurement 4: the digest of the loaded full image; all zero before release. -/
def imageDigest (s : State) : List Byte := if cfgState s = 5 then s.cfg.loadedHash else List.replicate 64 0

/-- Measurement 5: the digest of the four key slots' moduli, an empty slot counting as 512 zero bytes. -/
def keysDigest (s : State) : List Byte :=
  sha512 ((List.range 4).flatMap fun k => match findKey s k with
    | some m => beBytes 512 m
    | none => List.replicate 512 0)

/-- The measurement at an index, and whether it is raw. -/
def measurement (s : State) (i : Nat) : Option (Bool × List Byte) :=
  if i = 1 then some (false, fwDigest 1)
  else if i = 2 then some (false, fwDigest 2)
  else if i = 3 then some (false, s.vrn.fwDigestNew.getD (fwDigest 3))
  else if i = 4 then some (false, imageDigest s)
  else if i = 5 then some (false, keysDigest s)
  else if i = 6 then some (true, leBytes 8 (b2n s.mgmt.debug + 2 * b2n (isNormal s)))
  else if i = 7 then some (true, (List.range 32).flatMap fun p => leBytes 8 (getPlot s p).tag)
  else none

/-- DMTFSpecMeasurementValueType: ROM, firmware or configuration, and bit 7 for a raw value. -/
def measurementType (i : Nat) (raw : Bool) : Nat :=
  (if i = 1 then 0 else if i ≤ 3 then 1 else if i = 6 then 2 else 3) + 128 * b2n raw

/-- One measurement block. -/
def measurementBlock (s : State) (i : Nat) : List Byte := match measurement s i with
  | some (raw, v) =>
    leBytes 1 i ++ leBytes 1 1 ++ leBytes 2 (v.length + 3) ++ leBytes 1 (measurementType i raw) ++ leBytes 2 v.length ++ v
  | none => []

/-- GET_MEASUREMENTS: index 0 asks how many there are, 0xFF for all, any other for one. -/
def opGetMeasurements (index : Nat) (signed : Bool) (s : State) : State :=
  spdmNegotiated (fun s =>
    let which := if index = 0 then [] else if index = 255 then [1, 2, 3, 4, 5, 6, 7] else [index]
    if (which.any fun i => decide (i = 0) || decide (7 < i)) then spdmError s 0x01 0
    else
      let r := which.flatMap (measurementBlock s)
      spdmCounted (spdmAnswer s 0x60 (if index = 0 then 7 else 0) 0
        (leBytes 1 which.length ++ leBytes 3 r.length ++ r ++ spdmNonce s ++ leBytes 2 0 ++ if signed then spdmSign s else []))) s

/-- The request codes that the responder supports. -/
def spdmRequests : List Nat := [0x84, 0xE1, 0xE3, 0x81, 0x82, 0x83, 0xE0]

/-- UNSUPPORTED_SPDM_REQUEST: an ERROR response. -/
def opUnsupportedSpdmRequest (code : Nat) (s : State) : State :=
  spdmTaken (fun s => if spdmRequests.contains code then s else spdmError s 0x07 code) s

/-- SET_ENDPOINT_ID. -/
def execSetEndpointId (pkt : MctpPkt) (eid : Byte) (s : State) : Host.Outcome State Fault Refusal :=
  .next (opSetEndpointId pkt eid.toNat s)
/-- GET_ENDPOINT_ID. -/
def execGetEndpointId (pkt : MctpPkt) (s : State) : Host.Outcome State Fault Refusal := .next (opGetEndpointId pkt s)
/-- GET_ENDPOINT_UUID. -/
def execGetEndpointUuid (pkt : MctpPkt) (s : State) : Host.Outcome State Fault Refusal := .next (opGetEndpointUuid pkt s)
/-- GET_MCTP_VERSION_SUPPORT. -/
def execGetMctpVersionSupport (pkt : MctpPkt) (s : State) : Host.Outcome State Fault Refusal :=
  .next (opGetMctpVersionSupport pkt s)
/-- GET_MESSAGE_TYPE_SUPPORT. -/
def execGetMessageTypeSupport (pkt : MctpPkt) (s : State) : Host.Outcome State Fault Refusal :=
  .next (opGetMessageTypeSupport pkt s)
/-- GET_VENDOR_DEFINED_MESSAGE_SUPPORT. -/
def execGetVendorDefinedMessageSupport (pkt : MctpPkt) (s : State) : Host.Outcome State Fault Refusal :=
  .next (opGetVendorDefinedMessageSupport pkt s)
/-- UNSUPPORTED_MCTP_CONTROL. -/
def execUnsupportedMctpControl (pkt : MctpPkt) (command : Byte) (s : State) : Host.Outcome State Fault Refusal :=
  .next (opUnsupportedMctpControl pkt command.toNat s)
/-- GET_VERSION. -/
def execGetVersion (s : State) : Host.Outcome State Fault Refusal := .next (opGetVersion s)
/-- GET_CAPABILITIES. -/
def execGetCapabilities (s : State) : Host.Outcome State Fault Refusal := .next (opGetCapabilities s)
/-- NEGOTIATE_ALGORITHMS. -/
def execNegotiateAlgorithms (asymOffered hashOffered : Bool) (s : State) : Host.Outcome State Fault Refusal :=
  .next (opNegotiateAlgorithms asymOffered hashOffered s)
/-- GET_DIGESTS. -/
def execGetDigests (s : State) : Host.Outcome State Fault Refusal := .next (opGetDigests s)
/-- GET_CERTIFICATE. -/
def execGetCertificate (slot : BitVec 3) (offset length : BitVec 16) (s : State) : Host.Outcome State Fault Refusal :=
  .next (opGetCertificate slot.toNat offset.toNat length.toNat s)
/-- CHALLENGE. -/
def execChallenge (slot : BitVec 3) (nonce : List Byte) (s : State) : Host.Outcome State Fault Refusal :=
  .next (opChallenge slot.toNat nonce s)
/-- GET_MEASUREMENTS. -/
def execGetMeasurements (index : Byte) (signed : Bool) (s : State) : Host.Outcome State Fault Refusal :=
  .next (opGetMeasurements index.toNat signed s)
/-- UNSUPPORTED_SPDM_REQUEST. -/
def execUnsupportedSpdmRequest (code : Byte) (s : State) : Host.Outcome State Fault Refusal :=
  .next (opUnsupportedSpdmRequest code.toNat s)
/-- ENTDAA. -/
def execEntdaa (address : BitVec 7) (s : State) : Host.Outcome State Fault Refusal := .next (opEntdaa address.toNat s)

end Sys2Proof.Machine
end

