-- ==== Sys2Proof/Machine/Resets.lean ====
section
/-!
DEFINITION. Power-on, start-up and the resets (R19, R20, R25, R30, R32, R36, R429 to R433), physical presence (R22, R453),
virtual functions (R265), and the passing of a core cycle.
-/
namespace Sys2Proof.Machine
open Sys2Proof

/-! Power-on and start-up. -/

/-- DOME_RESET_CAUSE.LAST set, and the HOST resets counted afresh. -/
def setLastReset (s : State) (v : Nat) : State := setf (setf s Reg.resetCause 31 29 v) Reg.resetCause 15 0 0

/-- POR (R32, R40, R429, R431): the supply is back; a thermal shutdown before it is recorded (R464). -/
def opPor (s : State) : State :=
  if !s.power.converters ∨ s.power.pwrOk then s
  else
    let hot := s.power.thermalLatch
    let s := clearAll .por s
    let s := { s with power := { s.power with
      pwrOk := false, romBooted := false, strapsPending := true, thermalLatch := false, porDue := false } }
    let s := setb (setLastReset s 0) Reg.resetCause 28 hot
    if hot then logEntry (countUp s Reg.fltLife 31 16) 0 0x0F0F 0 s.fallow.lastThermal else s

/-- PWR_OK_RISE (R30): DONE is driven low, FLASH_RST_N too until a read starts. A start after a loss of power is a POR,
whether or not a POR was commanded (R32). -/
def opPwrOkRise (s : State) : State :=
  if !s.power.converters ∨ s.power.pwrOk then s
  else
    let s := if s.power.porDue then opPor s else s
    driveDone { s with power := { s.power with pwrOk := true, flashRstN := false } } true

/-- INTERNAL_RESET_RELEASE (R25): the straps are sampled, once for each POR or PIN reset. -/
def opInternalResetRelease (src id : Nat) (s : State) : State :=
  if !s.power.pwrOk ∨ !s.power.strapsPending then s
  else
    let s := { s with power := { s.power with strapsPending := false } }
    setf (setf s Reg.straps 9 8 src) Reg.straps 5 0 id

/-- ROM_BOOT_END (R36): the recovery personality is ready, and management answers. -/
def opRomBootEnd (s : State) : State :=
  if domeRuns s then { s with power := { s.power with romBooted := true } } else s

/-- PIN_RESET (R20): a low shorter than 1 µs is ignored. -/
def opPinReset (lowNs : Nat) (s : State) : State :=
  if !s.power.pwrOk ∨ lowNs < 1000 then s
  else
    let s := clearAll .pin s
    let s := { s with power := { s.power with romBooted := false, strapsPending := true, flashRstN := false } }
    driveDone (setLastReset s 1) true

/-! Almanacs cleared (R130, R432). -/

/-- A descriptor belongs to almanac `a`. -/
def ofAlm (a : Nat) (d : DescRef) : Bool := d.alm.toNat == a

/-- What a tile holds of an almanac's work given up: threads, and a vector-engine invocation. -/
def tileWithout (a : Nat) (y : Tile) : Tile :=
  let mine := match y.ve.running with
    | some (d, _) => ofAlm a d
    | none => false
  { y.without (ofAlm a) with
           ve := if mine then { y.ve with running := none, pend := [], loops := [] } else y.ve }

/-- What a barrier object holds of an almanac's work: its waiters go, and its arrivals stand (R432). -/
def barWithout (a : Nat) (x : Bar) : Bar :=
  { x with waiters := x.waiters.filter fun w => !ofAlm a w.1,
           held := x.held.map fun h => h.filter fun d => !ofAlm a d }

/-- What a plot holds of an almanac's work: its units go, and its requests that the port has not accepted. -/
def plotWithout (a : Nat) (x : Plot) : Plot :=
  let mine := fun (q : PortReq) => (q.source.map (ofAlm a)).getD false
  { x with units := x.units.filter fun u => !ofAlm a u.1, waiting := x.waiting.filter fun q => !mine q }

/-- An almanac cleared (R130): its registers, ring counts and submissions; nothing more is recorded, signalled or
committed of its work (R432). -/
def clearAlmanac (s : State) (a : Nat) : State :=
  let s := clearRegs s fun off => decide (almR a 0 ≤ off) && decide (off < almR (a + 1) 0)
  let s := setAlm s a { Alm.reset with halted := s.seamFailed }
  let s := (s.tiles.map (·.1)).foldl (fun s t => modTile s t (tileWithout a)) s
  let s := (s.bars.map (·.1)).foldl (fun s b => setBar s b (barWithout a (getBar s b))) s
  let s := (s.plots.map (·.1)).foldl (fun s p => modPlot s p (plotWithout a)) s
  { s with pool := { s.pool with tallies := s.pool.tallies.filter fun p => !ofAlm a p.1 } }

/-- ALM_CFG.LOOP_PERSIST. -/
def persists (s : State) (a : Nat) : Bool := getb s (almR a 0x10) 30

/-- Every almanac that `p` picks, and that has no LOOP_PERSIST, cleared. -/
def clearAlmanacs (s : State) (p : State → Nat → Bool) : State :=
  ((List.range 256).filter fun a => p s a && !persists s a).foldl clearAlmanac s

/-! HOST resets and FLR. -/

/-- A SOFT reset has begun and its release is still to come (R430, R433). -/
def softRuns (s : State) : Bool := (getJob s 3).opcode == 0x60 && jobRuns s 3 && s.mgmt.softDue.isNone

/-- TILE and PLOT resets in progress are abandoned (R430): the tile and the plot go on as they were. -/
def abandonResets (s : State) : State :=
  let s := match s.mgmt.tileResetJob with
    | some t =>
      let f := takeFree { modTile s t fun y => { y with resetting := false } with mgmt := { s.mgmt with tileResetJob := none } }
      endJob f.2 3 (anyCode f.1)
    | none => s
  (s.plots.map (·.1)).foldl (fun s p =>
    if (getPlot s p).resetRequest then modPlot s p fun x => { x with releasing := false, resetRequest := false } else s) s

/-- Direct armings without LOOP stopped on every tile (R183). -/
def stopHostArmings (s : State) : State := (s.tiles.map (·.1)).foldl (fun s t => stopArmings s t false) s

/-- The mailbox and its memory of the last request cleared (R431, R432). -/
def clearMailbox (s : State) : State :=
  let s := clearRegs s fun off => match findRow regRows off with
    | some (r, _) => r.cls == .mailbox
    | none => false
  { s with mgmt := { s.mgmt with mbxRequest := none, lastMbx := none } }

/-- The handle windows of a function cleared. -/
def clearWindows (s : State) (fn : Nat) : State :=
  clearRegs s fun off => decide (winR fn 0 0 ≤ off) && decide (off < winR fn (windowCount fn) 0)

/-- The PCIe link and every function's configuration space after a HOST reset (R431). -/
def resetLink (s : State) : State :=
  let s := setf s Reg.hostLink 28 19 0
  { s with host := { HostIf.reset with degraded := s.host.degraded } }

/-- HOST_RESET (R19, R431, R432); during a SOFT reset only the link and the functions change (R430). While RESET_N is low
the PIN reset governs (R20). -/
def opHostReset (s : State) : State :=
  if !s.power.pwrOk ∨ s.power.strapsPending then s
  else
    let s := resetLink (countUp s Reg.resetCause 15 0)
    if softRuns s then s
    else
      let s := clearAlmanacs (abandonResets s) fun _ _ => true
      let s := (List.range 17).foldl clearWindows (stopHostArmings s)
      clearMailbox s

/-- The flags that stand above 0. -/
def flagsSet (s : State) : List Nat :=
  s.regs.filterMap fun e => if 0x2100000 ≤ e.1 ∧ e.1 < 0x2140000 then some ((e.1 - 0x2100000) / 4) else none

/-- Every flag that `p` picks cleared with its setter (R226). -/
def clearFlags (s : State) (p : Nat → Bool) : State :=
  let s := ((flagsSet s).filter p).foldl (fun s f => putFlag s f 0 .none) s
  { s with setters := s.setters.filter fun e => !p e.1, flagAdds := s.flagAdds.filter fun e => !p e.1 }

/-- A function's part of what PCIe resets: its MSI-X structures, its power state and its 64-bit access buffers (R5). -/
def resetFunction (s : State) (fn : Nat) : State :=
  let h := s.host
  { s with host := { h with
    msix := h.msix.filter fun e => e.1 / 0x10000 != fn,
    d3hot := h.d3hot.filter (· != fn),
    latches := h.latches.filter fun e => e.1 / 2 ^ 26 != fn,
    wbuf := h.wbuf.filter fun e => e.1 / 2 ^ 26 != fn,
    config := h.config.filter fun e => e.1 / 16 != fn } }

/-- The flags that an FLR of a function clears (R226): the physical function's are those in no virtual function's range. -/
def flrFlags (s : State) (fn : Nat) : State :=
  if fn = 0 then clearFlags s fun f => !(List.range 16).any fun v => flagInRange s (v + 1) f
  else if (List.range 256).any fun a => almOwner s a == fn && persists s a then s
  else clearFlags s (flagInRange s fn)

/-- What an FLR clears of one function beside flags (R130, R431). -/
def flrFunction (s : State) (fn : Nat) : State :=
  let s := clearAlmanacs s fun s a => almOwner s a == fn
  clearWindows (resetFunction s fn) fn

/-- FLR (R226, R429, R431): the physical function's acts on every virtual function too, but of the flags it clears only
those that R226 names for it (DEDUCED). -/
def opFlr (fn : Nat) (s : State) : State :=
  if !s.power.pwrOk then s
  else
    let s := flrFlags (if softRuns s then s else abandonResets s) fn
    if fn ≠ 0 then flrFunction s fn
    else
      let s := (List.range 17).foldl flrFunction s
      let s := { s with host := { s.host with
        numVfs := 0, vfEnable := false, vfActive := false, ari := false, personalityMsg := false } }
      if softRuns s then s else clearMailbox (stopHostArmings s)

/-! SOFT (R433). -/

/-- A commit is writing the store (R382). -/
def committing (s : State) : Bool := (s.cfg.run.map (·.committing)).getD false

/-- SOFT_RESET (R384, R433): 1 ms after DEVICE_RESET's reply, once no commit runs. -/
def opSoftReset (s : State) : State :=
  match s.mgmt.softDue with
  | some t =>
    if s.cycle < t + msCycles ∨ committing s then s
    else driveDone (setLastReset (clearAll .soft s) 2) true
  | none => s

/-! Pins. -/

/-- MODULE_REMOVAL_INSERTION (R43): MOD_PRSNT_N, for the chassis to see. -/
def opModuleRemovalInsertion (inserted : Bool) (s : State) : State :=
  { s with power := { s.power with present := inserted } }

/-- What presence lets the waiting command do (R453). -/
def presenceGiven (op : Nat) (s : State) : State :=
  let s := { s with mgmt := { s.mgmt with presence := none } }
  if 0x16 ≤ op ∧ op ≤ 0x18 then gatedCfg (op - 0x10) s
  else if op = 0x43 then beginReplace (setJobState s 2 1)
  else if op = 0x44 then endJob (clearLifetime s) 2 0
  else endJob { s with mgmt := { s.mgmt with debug := true } } 2 0

/-- PRESENCE_ASSERTED (R22, R453): PRESENCE_N fell in cycle `fell` and has been low for 50 ms; the low must have begun
after the command was accepted, and its window must still be open. -/
def opPresenceAsserted (fell : Nat) (s : State) : State :=
  if !domeRuns s ∨ s.cycle < fell + 50 * msCycles then s
  else
    let s := setb s Reg.presence 31 true
    match s.mgmt.presence with
    | some (op, at_, _) => if at_ < fell ∧ s.cycle < at_ + 30000 * msCycles then presenceGiven op s else s
    | none => s

/-- VF_ENABLE (R260, R265): a write of VF Enable, NumVFs and ARI Capable Hierarchy; VF Enable is held in the recovery
personality. Configuration space answers in D3hot too (R257). -/
def opVfEnable (enable : Bool) (n : Nat) (ari : Bool) (s : State) : State :=
  let active := enable && isNormal s
  { s with host := { s.host with
    vfEnable := enable, numVfs := if 16 < n then s.host.numVfs else n, vfActive := active, ari := ari } }

/-! Time. -/

/-- One core cycle passes with no command waiting: the arrays stall where the cycle throttles them (R101), the Hedgerow
carries its flits (R198), cache lines no longer sealed are dropped (R167), a TILE reset whose units have ended goes on (R434), a tile that is to be
a loop tile becomes one at its pass boundary (R190), a page copy of 100 µs ends (R197), the logic ring runs (R326), transmit
links go on to their alignment sequence and data (R296), and FLT_LIFE counts hours with PWR_OK high. -/
def idle (s : State) : State :=
  let s := tidyCache (hedgeCycle (throttleAll (fabricCycle s)))
  let s := { s with cycle := s.cycle + 1, flagAdds := [] }
  let s := (List.range 8).foldl txAdvance (endOldCopies (settleLoops (settleTileReset s)))
  if s.power.pwrOk ∧ s.cycle % hourCycles = 0 then setf s Reg.fltLife 63 32 (getf s Reg.fltLife 63 32 + 1) else s

/-- POR. -/
def execPor (s : State) : Host.Outcome State Fault Refusal := .next (opPor s)
/-- PWR_OK_RISE. -/
def execPwrOkRise (s : State) : Host.Outcome State Fault Refusal := .next (opPwrOkRise s)
/-- INTERNAL_RESET_RELEASE. -/
def execInternalResetRelease (cfgSrc : BitVec 2) (poolId : BitVec 6) (s : State) : Host.Outcome State Fault Refusal :=
  .next (opInternalResetRelease cfgSrc.toNat poolId.toNat s)
/-- ROM_BOOT_END. -/
def execRomBootEnd (s : State) : Host.Outcome State Fault Refusal := .next (opRomBootEnd s)
/-- PIN_RESET. -/
def execPinReset (lowNs : Nat) (s : State) : Host.Outcome State Fault Refusal := .next (opPinReset lowNs s)
/-- HOST_RESET. -/
def execHostReset (s : State) : Host.Outcome State Fault Refusal := .next (opHostReset s)
/-- FLR. -/
def execFlr (fn : Fn) (s : State) : Host.Outcome State Fault Refusal := .next (opFlr fn.val s)
/-- SOFT_RESET. -/
def execSoftReset (s : State) : Host.Outcome State Fault Refusal := .next (opSoftReset s)
/-- MODULE_REMOVAL_INSERTION. -/
def execModuleRemovalInsertion (inserted : Bool) (s : State) : Host.Outcome State Fault Refusal :=
  .next (opModuleRemovalInsertion inserted s)
/-- PRESENCE_ASSERTED. -/
def execPresenceAsserted (fell : Nat) (s : State) : Host.Outcome State Fault Refusal := .next (opPresenceAsserted fell s)
/-- VF_ENABLE. -/
def execVfEnable (enable : Bool) (numVfs : BitVec 16) (ari : Bool) (s : State) : Host.Outcome State Fault Refusal :=
  .next (opVfEnable enable numVfs.toNat ari s)

end Sys2Proof.Machine
end

