-- ==== Sys2Proof/Machine/Router.lean ====
section
/-!
DEFINITION. Host accesses to BAR0 (R3 to R5, R257, R262, R263, R265): which function reaches which offset, what each
register does when it is written, 64-bit registers by halves, and the MSI-X structures.
-/
namespace Sys2Proof.Machine
open Sys2Proof

/-! Reach (R257, R262, R265). -/

/-- The function decodes its BARs: the module has booted, the function exists and is not in D3hot; with ARI Capable
Hierarchy clear, virtual functions 9 to 16 are not routed (R260). -/
def decodes (s : State) (fn : Nat) : Bool :=
  s.power.romBooted && !s.host.d3hot.contains fn &&
    (fn == 0 || (s.host.vfActive && decide (fn ≤ s.host.numVfs) && (s.host.ari || decide (fn ≤ 8))))

/-- An offset in the MSI-X table of a function. -/
def inTable (fn off : Nat) : Bool := decide (0xF00000 ≤ off) && decide (off < 0xF00000 + 16 * vectorCount fn)

/-- An offset in the pending-bit array of a function. -/
def inPending (fn off : Nat) : Bool := decide (0xF80000 ≤ off) && decide (off < 0xF80000 + 4 * ceilDiv (vectorCount fn) 32)

/-- The almanac whose window holds an offset. -/
def windowAlm (off : Nat) : Option Nat :=
  if 0x2000000 ≤ off ∧ off < 0x2100000 then some ((off - 0x2000000) / 0x1000) else none

/-- The flag whose value or addition register an offset is. -/
def offsetFlag (off : Nat) : Option Nat :=
  if 0x2100000 ≤ off ∧ off < 0x2180000 then some ((off - 0x2100000) % 0x40000 / 4) else none

/-- What a virtual function reaches beside its MSI-X structures (R262). -/
def vfReaches (s : State) (fn off : Nat) : Bool :=
  ((windowAlm off).any fun a => almOwner s a == fn) || ((offsetFlag off).any (flagInRange s fn)) ||
    (decide (0x60A000 ≤ off) && decide (off < 0x60A100))

/-- The function reaches a register at the offset: in the recovery personality only the DOME_ and CFG_ blocks. -/
def reaches (s : State) (fn off : Nat) : Bool :=
  if fn = 0 then isNormal s || decide (off < 0x200000) else isNormal s && vfReaches s fn off

/-- The offset of a register in the physical function's map: a virtual function's own windows stand after its (R268). -/
def mapOffset (fn off : Nat) : Nat :=
  if fn ≠ 0 ∧ 0x60A000 ≤ off ∧ off < 0x60A100 then winR fn 0 0 + (off - 0x60A000) else off

/-! The MSI-X structures (R263, R264). -/

/-- A word of a function's MSI-X table; the mask bit of a vector never written is 1. -/
def tableWord (s : State) (fn off : Nat) : Word :=
  let k := (off - 0xF00000) / 4
  smGet (if k % 4 = 3 then 1 else 0) (msixKey fn k) s.host.msix

/-- A word of a function's pending-bit array. -/
def pendingWord (s : State) (fn off : Nat) : Word := smGet 0 (msixKey fn (0x8000 + (off - 0xF80000) / 4)) s.host.msix

/-- A word of the table written: message address, message data, or the mask bit. -/
def tableWrite (fn off : Nat) (v : Word) (s : State) : State :=
  let k := (off - 0xF00000) / 4
  if k % 4 = 3 then writeMask fn (k / 4) (v.getLsbD 0) s
  else { s with host := { s.host with msix := smSet 0 (msixKey fn k) v s.host.msix } }

/-! Reads. -/

/-- The plot and byte of a plot register aperture (R349). -/
def apertureAt (off : Nat) : Option (Nat × Nat) :=
  if 0x210000 ≤ off ∧ off < 0x290000 then some ((off - 0x210000) / 0x4000, (off - 0x210000) % 0x4000) else none

/-- What a 32-bit read by a function answers; the stage window reads the staged bytes at all times (R387). -/
def readWord (s : State) (fn off : Nat) : Word :=
  if inTable fn off then tableWord s fn off
  else if inPending fn off then pendingWord s fn off
  else if !reaches s fn off then 0
  else if 0x180000 ≤ off ∧ off < 0x200000 then
    BitVec.ofNat 32 (rdNat s.cfg.staging (getf s Reg.stageBase 8 0 * 2 ^ 19 + (off - 0x180000)) 4)
  else readReg s (mapOffset fn off)

/-- Where a function's read latch or write buffer of a register stands. -/
def bufKey (fn off : Nat) : Nat := fn * 2 ^ 26 + off

/-- An entry of the latches or buffers. -/
def bufFind (l : List (Nat × Word)) (k : Nat) : Option Word := (l.find? fun e => e.1 == k).map (·.2)

/-- A 32-bit read of an offset: misaligned ones answer all ones (R4), and an aperture's answer is the design's. -/
def hostRead32 (fn off : Nat) (s : State) : State :=
  if !decodes s fn then s
  else if off % 4 ≠ 0 then answer s (List.replicate 4 0xFF)
  else match (if fn = 0 ∧ isNormal s then apertureAt off else none) with
    | some (p, a) => hostPlotAccess s p a (.read 4) 0
    | none => answer s (leBytes 4 (readWord s fn off).toNat)

/-- A read of an offset with another size than 4 (R4, R5): 8 aligned bytes at once, which neither use nor change a latch;
any other size, or a misaligned one, answers all ones in every byte. -/
def hostReadOther (fn off size : Nat) (s : State) : State :=
  if !decodes s fn then s
  else if size ≠ 8 ∨ off % 8 ≠ 0 then answer s (List.replicate size 0xFF)
  else match (if fn = 0 ∧ isNormal s then apertureAt off else none) with
    | some (p, a) => hostPlotAccess s p a (.read 8) 0
    | none => answer s (leBytes 4 (readWord s fn off).toNat ++ leBytes 4 (readWord s fn (off + 4)).toNat)

/-- LATCHED_LOW_WORD_READ (R4, R5): the read latch takes the high word of that instant. -/
def opLatchedLow (fn off size : Nat) (s : State) : State :=
  if size ≠ 4 then hostReadOther fn off size s
  else if !decodes s fn ∨ !isWideLow (mapOffset fn off) ∨ !reaches s fn off then hostRead32 fn off s
  else
    let hi := readWord s fn (off + 4)
    let l := smInsert (bufKey fn off) hi (smErase (bufKey fn off) s.host.latches)
    hostRead32 fn off { s with host := { s.host with latches := l } }

/-- LATCHED_HIGH_WORD_READ (R4, R5): the latched word, which empties the latch; with none, the high word as it stands. -/
def opLatchedHigh (fn off size : Nat) (s : State) : State :=
  let k := bufKey fn (off - 4)
  if size ≠ 4 then hostReadOther fn off size s
  else if !decodes s fn ∨ !isWideHigh (mapOffset fn off) ∨ !reaches s fn off then hostRead32 fn off s
  else match bufFind s.host.latches k with
    | some w => answer { s with host := { s.host with latches := smErase k s.host.latches } } (leBytes 4 w.toNat)
    | none => hostRead32 fn off s

/-! Writes, block by block. -/

/-- The request that stands in the mailbox: header and LENGTH bytes of payload (R421). -/
def mailboxRequest (s : State) : List Byte :=
  let h := (List.range 4).flatMap fun i => leBytes 4 (getReg s (0x1000 + 4 * i)).toNat
  let n := min 4096 (qLen h)
  h ++ ((List.range (ceilDiv n 4)).flatMap fun i => leBytes 4 (getReg s (0x2000 + 4 * i)).toNat).take n

/-- DOME_MBX_CTRL (R421): SUBMIT copies the request. -/
def mailboxSubmit (v : Word) (s : State) : State :=
  if !v.getLsbD 0 then s
  else if getb s Reg.mbxStatus 31 then setb s Reg.mbxStatus 28 true
  else
    let q := mailboxRequest s
    setb { s with mgmt := { s.mgmt with mbxRequest := some q } } Reg.mbxStatus 31 true

/-- A write into the DOME_ block. -/
def domeWrite (off : Nat) (v : Word) (s : State) : State :=
  if off = Reg.alertCause then opAlertCauseWrite v s
  else if off = Reg.alertEnable then opAlertEnableWrite v s
  else if off = 0x200 then mailboxSubmit v s
  else if off = Reg.mbxStatus then rewritten 0 256 mgmtCond (fun s => plainWrite s off v) s
  else if (0x1000 ≤ off ∧ off < 0x1010) ∨ (0x2000 ≤ off ∧ off < 0x3000) then
    (if getb s Reg.mbxStatus 31 then setb s Reg.mbxStatus 28 true else plainWrite s off v)
  else plainWrite s off v

/-- A write of CFG_CMD (R392). -/
def cfgCmdWrite (v : Word) (s : State) : State :=
  match cmdOf v.toNat with
  | 1 => opVerify (.reg v) s
  | 2 => opLoadFull (.reg v) s
  | 3 => opLoadPartial (.reg v) s
  | 4 => opCommit (.reg v) s
  | 5 => opStageCopy (.reg v) s
  | 6 => opInstallKey (.reg v) s
  | 7 => opRevokeKey (.reg v) s
  | 8 => opEraseStore (.reg v) s
  | _ => opReservedCfgCommand v.toNat s

/-- A write into the PLT_ block beside its apertures. -/
def pltWrite (off : Nat) (v : Word) (s : State) : State :=
  if 0x200000 ≤ off ∧ off < 0x202000 then
    let p := (off - 0x200000) / 0x100
    (if off % 0x100 = 0 then pltCtrl p v s
     else if off % 0x100 = 0x18 then opPltFtGroupWrite p v s
     else plainWrite s off v)
  else plainWrite s off v

/-- A write into the MEM_ block: reserved values of MEM_MAP and MEM_NRT are ignored (R404, R409). -/
def memBlockWrite (off : Nat) (v : Word) (s : State) : State :=
  if off = 0x500014 then opPackageSpare (.reg v) s
  else if (off = Reg.memMap ∨ off = Reg.memNrt) ∧ v.toNat % 4 = 3 then s
  else plainWrite s off v

/-- CMN_POOL_CTRL (R277, R284): a JOIN acts with the members' replies, in its own step. -/
def poolCtrlWrite (v : Word) (s : State) : State :=
  let s := plainWrite s Reg.poolCtrl v
  let s := if v.getLsbD 31 then opForm s else s
  if v.getLsbD 29 then opLeave s else s

/-- The function and window of a handle-window register, and the register's offset in its entry. -/
def windowAt (off : Nat) : Option (Nat × Nat × Nat) :=
  if 0x60A000 ≤ off ∧ off < 0x60B000 then some (0, (off - 0x60A000) / 16, off % 16)
  else if 0x60B000 ≤ off ∧ off < 0x60C000 then some ((off - 0x60B000) / 256 + 1, (off - 0x60B000) % 256 / 16, off % 16)
  else none

/-- A write of a 32-bit register of the CMN_ block. -/
def cmnWrite (off : Nat) (v : Word) (s : State) : State :=
  if off = Reg.poolCtrl then poolCtrlWrite v s
  else if off = Reg.placeReserve then
    (if 256 ≤ v.toNat % 4096 ∧ v.toNat % 4096 ≤ 2048 then plainWrite s off v else s)
  else if 0x608404 ≤ off ∧ off < 0x608800 then opCmnGroupWrite ((off - 0x608400) / 4) v s
  else if off = Reg.twinCtrl then opTwinEnable v s
  else if 0x609010 ≤ off ∧ off < 0x609030 then (if getb s Reg.twinCtrl 31 then s else plainWrite s off v)
  else match windowAt off with
    | some (fn, w, 0) => if getb s (winR fn w 4) 31 then s else plainWrite s off v
    | some (fn, w, 4) => opWindowEnable fn w v s
    | _ => plainWrite s off v

/-- FLT_POLICY (R467, R468): a kind whose mode is written to off loses its proposals. -/
def policyWrite (v : Word) (s : State) : State :=
  let s := plainWrite s Reg.fltPolicy v
  dropProposals s fun p => policyMode s p.kind == 0

/-- A write into the FLT_ block. -/
def fltWrite (off : Nat) (v : Word) (s : State) : State :=
  if off = Reg.logStatus then rewritten 0 257 logCond (fun s => plainWrite s off v) s
  else if off = Reg.fltPolicy then policyWrite v s
  else if off = Reg.fltThresh then
    (if fld v.toNat 19 8 < fld v.toNat 31 20 then plainWrite s off (BitVec.ofNat 32 (putFld v.toNat 19 8 (getf s off 19 8)))
     else plainWrite s off v)
  else plainWrite s off v

/-- TILE_EXC_IRQ_STATUS (R122): a bit that the tile sets in this cycle stands. -/
def excStatusWrite (t : Nat) (v : Word) (s : State) : State :=
  let r := tileR t 0x30
  let now := BitVec.ofNat 32 (flagsNow s t) &&& getReg s (tileR t 0x2C) &&& getReg s r
  rewritten 0 (261 + tileDie t) (dieCond (tileDie t)) (fun s => setReg (plainWrite s r v) r (getReg (plainWrite s r v) r ||| now)) s

/-- A write of a 32-bit register of a tile's window. -/
def tileWrite (t k : Nat) (v : Word) (s : State) : State :=
  if k = 0x28 then opTileExcClear t v s
  else if k = 0x30 then excStatusWrite t v s
  else if k = 0x404 then opTileStmReserveWrite t v s
  else if k = 0x44C then opTileStmArm t v s
  else if k = 0x454 then opTileStmStop t v s
  else plainWrite s (tileR t k) v

/-- ALM_CTRL (R125, R130, R229). -/
def almCtrl (fn a : Nat) (v : Word) (s : State) : State :=
  let s := if v.getLsbD 0 then opAlmAbort fn a s else s
  if v.getLsbD 1 then opAlmReset fn a s else s

/-- A write of a 32-bit register of an almanac's window. -/
def almWrite (fn a k : Nat) (v : Word) (s : State) : State :=
  if k = 0 then opAlmDoorbell fn a v s
  else if k = 4 then almCtrl fn a v s
  else if k = 0x10 then opAlmEnable fn a v s
  else if k = 0x14 then (if almOn s a then s else plainWrite s (almR a k) v)
  else if k = 0x20 then rewritten (almOwner s a) a (almCond a) (fun s => plainWrite s (almR a k) v) s
  else if 0x40 ≤ k ∧ k < 0x80 then opAlmCountWrite fn a ((k - 0x40) / 4) v s
  else plainWrite s (almR a k) v

/-- ALM_FLAG_RANGEv (R213): fixed for the physical function, and ignored while the function owns an enabled almanac. -/
def flagRangeWrite (v : Nat) (w : Word) (s : State) : State :=
  if v = 0 ∨ (List.range 256).any fun a => almOwner s a == v && almOn s a then s else plainWrite s (flagRangeR v) w

/-- A write into the ALM_ block after the almanac windows (R230). -/
def syncWrite (fn : Nat) (off : Nat) (v : Word) (s : State) : State :=
  if off < 0x2140000 then opAlmFlagWrite (Fin.ofNat 17 fn) ((off - 0x2100000) / 4) v s
  else if off < 0x2180000 then opAlmFlagAddWrite (Fin.ofNat 17 fn) ((off - 0x2140000) / 4) v s
  else if off < 0x2181000 then
    let b := (off - 0x2180000) / 16
    (if off % 16 = 0 then opBarrierConfigWrite b v s
     else if off % 16 = 0xC then opAlmBarArrive b v s
     else s)
  else if off < 0x2181044 then flagRangeWrite ((off - 0x2181000) / 4) v s
  else plainWrite s off v

/-- A whole write of a 32-bit register, by the block that holds it. -/
def regWrite32 (fn off : Nat) (v : Word) (s : State) : State :=
  if off < 0x100000 then domeWrite off v s
  else if off = 0x100004 then cfgCmdWrite v s
  else if off < 0x200000 then plainWrite s off v
  else if off < 0x300000 then pltWrite off v s
  else if off < 0x500000 then instrWrite off v.toNat s
  else if off < 0x600000 then memBlockWrite off v s
  else if off < 0x700000 then cmnWrite off v s
  else if off < 0x800000 then plainWrite s off v
  else if off < 0x900000 then fltWrite off v s
  else if off < 0x1000000 then s
  else if off < 0x1480000 then tileWrite ((off - 0x1000000) / 0x1000) (off % 0x1000) v s
  else match windowAlm off with
    | some a => almWrite fn a (off % 0x1000) v s
    | none => if 0x2100000 ≤ off then syncWrite fn off v s else s

/-- CMN_POOL_PEERi (R276): ignored while the module at i is a member. -/
def peerWrite (i v : Nat) (s : State) : State := if isMember s i then s else plainWrite64 s (peerR i) v

/-- A whole write of a 64-bit register. -/
def regWrite64 (off v : Nat) (s : State) : State :=
  if 0x300000 ≤ off ∧ off < 0x500000 then instrWrite off v s
  else if 0x600100 ≤ off ∧ off < 0x600300 then peerWrite ((off - 0x600100) / 8) v s
  else match windowAt off with
    | some (fn, w, _) => if getb s (winR fn w 4) 31 then s else plainWrite64 s off v
    | none => plainWrite64 s off v

/-! The host's writes. -/

/-- A 32-bit half of a 64-bit register (R5): a low word goes into the write buffer; a high word writes the register, with
the low word that the function last wrote, or the register's own. -/
def halfWrite (fn off : Nat) (v : Word) (s : State) : State :=
  let r := mapOffset fn off
  if isWideLow r then
    let k := bufKey fn off
    { s with host := { s.host with wbuf := smInsert k v (smErase k s.host.wbuf) } }
  else
    let lo := (bufFind s.host.wbuf (bufKey fn (off - 4))).getD (readReg s (r - 4))
    regWrite64 (r - 4) (lo.toNat + 2 ^ 32 * v.toNat) s

/-- A 32-bit write that the function reaches. -/
def write32 (fn off : Nat) (v : Word) (s : State) : State :=
  let r := mapOffset fn off
  if isWideLow r ∨ isWideHigh r then halfWrite fn off v s else regWrite32 fn r v s

/-- A write of 4 or 8 aligned bytes at an offset. -/
def hostWrite (fn off size val : Nat) (s : State) : State :=
  let lo := BitVec.ofNat 32 val
  let hi := BitVec.ofNat 32 (val / 2 ^ 32)
  if inTable fn off then
    (if size = 8 ∧ inTable fn (off + 4) then tableWrite fn (off + 4) hi (tableWrite fn off lo s) else tableWrite fn off lo s)
  else if inPending fn off ∨ !reaches s fn off then s
  else if 0x180000 ≤ off ∧ off < 0x200000 then opStageWindowWrite (off - 0x180000) size val s
  else match apertureAt off with
    | some (p, a) => hostPlotAccess s p a (.write (leBytes size val)) 0
    | none =>
      if size = 4 then write32 fn off lo s
      else if isWideLow (mapOffset fn off) then regWrite64 (mapOffset fn off) val s
      else
        let s := write32 fn off lo s
        if reaches s fn (off + 4) then write32 fn (off + 4) hi s else s

/-- REGISTER_WRITE (R3, R4): a write of another size, or a misaligned one, is discarded. -/
def opRegisterWrite (fn off size val : Nat) (s : State) : State :=
  if !(size == 4 || size == 8) ∨ off % size ≠ 0 ∨ !decodes s fn then s else hostWrite fn off size val s

/-- REGISTER_WRITE. -/
def execRegisterWrite (fn : Fn) (off : Off) (size : Nat) (val : DWord) (s : State) : Host.Outcome State Fault Refusal :=
  .next (opRegisterWrite fn.val off.toNat size val.toNat s)
/-- LATCHED_LOW_WORD_READ. -/
def execLatchedLowWordRead (fn : Fn) (off : Off) (size : Nat) (s : State) : Host.Outcome State Fault Refusal :=
  .next (opLatchedLow fn.val off.toNat size s)
/-- LATCHED_HIGH_WORD_READ. -/
def execLatchedHighWordRead (fn : Fn) (off : Off) (size : Nat) (s : State) : Host.Outcome State Fault Refusal :=
  .next (opLatchedHigh fn.val off.toNat size s)
/-- BUFFERED_LOW_WORD_WRITE. -/
def execBufferedLowWordWrite (fn : Fn) (off : Off) (val : Word) (s : State) : Host.Outcome State Fault Refusal :=
  .next (opRegisterWrite fn.val off.toNat 4 val.toNat s)
/-- BUFFERED_HIGH_WORD_WRITE. -/
def execBufferedHighWordWrite (fn : Fn) (off : Off) (val : Word) (s : State) : Host.Outcome State Fault Refusal :=
  .next (opRegisterWrite fn.val off.toNat 4 val.toNat s)

end Sys2Proof.Machine
end

