-- ==== Sys2Proof/Machine/Dispatch.lean ====
section
/-!
DEFINITION. One arm per command: the meaning it calls.
-/
namespace Sys2Proof.Machine
open Sys2Proof

/-- The effect of a command on everything but the queue. -/
def exec (i : Instr) (s : State) : Host.Outcome State Fault Refusal :=
  match i with
  | .registerWrite fn off size val => Sys2Proof.Machine.execRegisterWrite fn off size val s
  | .latchedLowWordRead fn off size => Sys2Proof.Machine.execLatchedLowWordRead fn off size s
  | .latchedHighWordRead fn off size => Sys2Proof.Machine.execLatchedHighWordRead fn off size s
  | .bufferedLowWordWrite fn off val => Sys2Proof.Machine.execBufferedLowWordWrite fn off val s
  | .bufferedHighWordWrite fn off val => Sys2Proof.Machine.execBufferedHighWordWrite fn off val s
  | .p54vRise removedMs => Sys2Proof.Machine.execP54vRise removedMs s
  | .supplyShutdown mv heldUs => Sys2Proof.Machine.execSupplyShutdown mv heldUs s
  | .por => Sys2Proof.Machine.execPor s
  | .pwrOkRise => Sys2Proof.Machine.execPwrOkRise s
  | .internalResetRelease cfgSrc poolId => Sys2Proof.Machine.execInternalResetRelease cfgSrc poolId s
  | .romBootEnd => Sys2Proof.Machine.execRomBootEnd s
  | .pinReset lowNs => Sys2Proof.Machine.execPinReset lowNs s
  | .hostReset => Sys2Proof.Machine.execHostReset s
  | .flr fn => Sys2Proof.Machine.execFlr fn s
  | .softReset => Sys2Proof.Machine.execSoftReset s
  | .moduleRemovalInsertion inserted => Sys2Proof.Machine.execModuleRemovalInsertion inserted s
  | .presenceAsserted fell => Sys2Proof.Machine.execPresenceAsserted fell s
  | .dieSensorUpdate hotspot inlet outlet => Sys2Proof.Machine.execDieSensorUpdate hotspot inlet outlet s
  | .domeAlertCauseWrite val => Sys2Proof.Machine.execDomeAlertCauseWrite val s
  | .throttleUpdate powerW packageC => Sys2Proof.Machine.execThrottleUpdate powerW packageC s
  | .passIssue t => Sys2Proof.Machine.execPassIssue t s
  | .kStepEntry t corrected bad => Sys2Proof.Machine.execKStepEntry t corrected bad s
  | .passDrainStart t => Sys2Proof.Machine.execPassDrainStart t s
  | .passDrainEnd t => Sys2Proof.Machine.execPassDrainEnd t s
  | .preemptionRequest t d => Sys2Proof.Machine.execPreemptionRequest t d s
  | .preemptionResume t d => Sys2Proof.Machine.execPreemptionResume t d s
  | .tileExcClear t val => Sys2Proof.Machine.execTileExcClear t val s
  | .veInvocation t d iter => Sys2Proof.Machine.execVeInvocation t d iter s
  | .veNop t => Sys2Proof.Machine.execVeNop t s
  | .veEnd t => Sys2Proof.Machine.execVeEnd t s
  | .loop t count body => Sys2Proof.Machine.execLoop t count body s
  | .vld t v areg offset corrected bad => Sys2Proof.Machine.execVld t v areg offset corrected bad s
  | .vst t v areg offset => Sys2Proof.Machine.execVst t v areg offset s
  | .vldb t v areg offset corrected bad => Sys2Proof.Machine.execVldb t v areg offset corrected bad s
  | .aset t areg imm => Sys2Proof.Machine.execAset t areg imm s
  | .ainc t areg imm => Sys2Proof.Machine.execAinc t areg imm s
  | .fadd t vd va vb => Sys2Proof.Machine.execFadd t vd va vb s
  | .fsub t vd va vb => Sys2Proof.Machine.execFsub t vd va vb s
  | .fmul t vd va vb => Sys2Proof.Machine.execFmul t vd va vb s
  | .ffma t vd va vb vc => Sys2Proof.Machine.execFfma t vd va vb vc s
  | .fmax t vd va vb => Sys2Proof.Machine.execFmax t vd va vb s
  | .fmin t vd va vb => Sys2Proof.Machine.execFmin t vd va vb s
  | .fabs t vd va => Sys2Proof.Machine.execFabs t vd va s
  | .fneg t vd va => Sys2Proof.Machine.execFneg t vd va s
  | .fcmp t md va vb code => Sys2Proof.Machine.execFcmp t md va vb code s
  | .sel t vd ms va vb => Sys2Proof.Machine.execSel t vd ms va vb s
  | .iadd t vd va vb => Sys2Proof.Machine.execIadd t vd va vb s
  | .isub t vd va vb => Sys2Proof.Machine.execIsub t vd va vb s
  | .imul t vd va vb => Sys2Proof.Machine.execImul t vd va vb s
  | .vand t vd va vb => Sys2Proof.Machine.execVand t vd va vb s
  | .vor t vd va vb => Sys2Proof.Machine.execVor t vd va vb s
  | .vxor t vd va vb => Sys2Proof.Machine.execVxor t vd va vb s
  | .shl t vd va imm => Sys2Proof.Machine.execShl t vd va imm s
  | .shr t vd va imm => Sys2Proof.Machine.execShr t vd va imm s
  | .frcp t vd va => Sys2Proof.Machine.execFrcp t vd va s
  | .frsq t vd va => Sys2Proof.Machine.execFrsq t vd va s
  | .fexp2 t vd va => Sys2Proof.Machine.execFexp2 t vd va s
  | .flog2 t vd va => Sys2Proof.Machine.execFlog2 t vd va s
  | .ftanh t vd va => Sys2Proof.Machine.execFtanh t vd va s
  | .lsum t vd va => Sys2Proof.Machine.execLsum t vd va s
  | .lmax t vd va => Sys2Proof.Machine.execLmax t vd va s
  | .lbcast t vd va lane => Sys2Proof.Machine.execLbcast t vd va lane s
  | .cvt t vd va src dst inf => Sys2Proof.Machine.execCvt t vd va src dst inf s
  | .cvts t vd va vb dst => Sys2Proof.Machine.execCvts t vd va vb dst s
  | .scale t vd va dst => Sys2Proof.Machine.execScale t vd va dst s
  | .almDoorbell fn a tail => Sys2Proof.Machine.execAlmDoorbell fn a tail s
  | .almEnable fn a cfg => Sys2Proof.Machine.execAlmEnable fn a cfg s
  | .almReset fn a => Sys2Proof.Machine.execAlmReset fn a s
  | .almAbort fn a => Sys2Proof.Machine.execAlmAbort fn a s
  | .almCountWrite fn a n val => Sys2Proof.Machine.execAlmCountWrite fn a n val s
  | .submissionRead a => Sys2Proof.Machine.execSubmissionRead a s
  | .descriptorStart d t plot => Sys2Proof.Machine.execDescriptorStart d t plot s
  | .unitPlacement d unit t plot areas => Sys2Proof.Machine.execUnitPlacement d unit t plot areas s
  | .runAheadRead d slot t => Sys2Proof.Machine.execRunAheadRead d slot t s
  | .mma d => Sys2Proof.Machine.execMma d s
  | .fold d => Sys2Proof.Machine.execFold d s
  | .vec d => Sys2Proof.Machine.execVec d s
  | .moveCopy d => Sys2Proof.Machine.execMoveCopy d s
  | .gather d => Sys2Proof.Machine.execGather d s
  | .scatter d => Sys2Proof.Machine.execScatter d s
  | .moveTier d => Sys2Proof.Machine.execMoveTier d s
  | .reduceSum d => Sys2Proof.Machine.execReduceSum d s
  | .reduceMax d => Sys2Proof.Machine.execReduceMax d s
  | .reduceMin d => Sys2Proof.Machine.execReduceMin d s
  | .countSet d => Sys2Proof.Machine.execCountSet d s
  | .countLoad d => Sys2Proof.Machine.execCountLoad d s
  | .countAdd d => Sys2Proof.Machine.execCountAdd d s
  | .fence d => Sys2Proof.Machine.execFence d s
  | .fenceReadReturn d module ok => Sys2Proof.Machine.execFenceReadReturn d module ok s
  | .barrierArriveAndWait d => Sys2Proof.Machine.execBarrierArriveAndWait d s
  | .barrierArrive d => Sys2Proof.Machine.execBarrierArrive d s
  | .barrierWait d => Sys2Proof.Machine.execBarrierWait d s
  | .transit d => Sys2Proof.Machine.execTransit d s
  | .tally d => Sys2Proof.Machine.execTally d s
  | .descriptorCommit d => Sys2Proof.Machine.execDescriptorCommit d s
  | .descriptorFail d => Sys2Proof.Machine.execDescriptorFail d s
  | .descriptorRestart d code => Sys2Proof.Machine.execDescriptorRestart d code s
  | .tileStmArm t val => Sys2Proof.Machine.execTileStmArm t val s
  | .tileStmStop t val => Sys2Proof.Machine.execTileStmStop t val s
  | .tileStmReserveWrite t val => Sys2Proof.Machine.execTileStmReserveWrite t val s
  | .directReserveApplied t => Sys2Proof.Machine.execDirectReserveApplied t s
  | .granuleTransferIssue t => Sys2Proof.Machine.execGranuleTransferIssue t s
  | .granuleArrival t carrier transfer => Sys2Proof.Machine.execGranuleArrival t carrier transfer s
  | .armingDone t ctx => Sys2Proof.Machine.execArmingDone t ctx s
  | .shadowArmingActive t ctx => Sys2Proof.Machine.execShadowArmingActive t ctx s
  | .migrationEpochEnd counts => Sys2Proof.Machine.execMigrationEpochEnd counts s
  | .pageRemap handle page => Sys2Proof.Machine.execPageRemap handle page s
  | .cmnGroupWrite g val => Sys2Proof.Machine.execCmnGroupWrite g val s
  | .heldGroupWriteEffect g tiles => Sys2Proof.Machine.execHeldGroupWriteEffect g tiles s
  | .seamReplay t dir => Sys2Proof.Machine.execSeamReplay t dir s
  | .linkRetrainEnd t dir failedHalves lost => Sys2Proof.Machine.execLinkRetrainEnd t dir failedHalves lost s
  | .multicastGranuleSend t entry route d slot credits => Sys2Proof.Machine.execMulticastGranuleSend t entry route d slot credits s
  | .mcastLag t entry receiver => Sys2Proof.Machine.execMcastLag t entry receiver s
  | .flagUpdate f host adds => Sys2Proof.Machine.execFlagUpdate f host adds s
  | .almFlagWrite fn f val => Sys2Proof.Machine.execAlmFlagWrite fn f val s
  | .almFlagAddWrite fn f val => Sys2Proof.Machine.execAlmFlagAddWrite fn f val s
  | .wakeArrival d wait => Sys2Proof.Machine.execWakeArrival d wait s
  | .waitReregistration d wait => Sys2Proof.Machine.execWaitReregistration d wait s
  | .barrierConfigWrite b val => Sys2Proof.Machine.execBarrierConfigWrite b val s
  | .almBarArrive b val => Sys2Proof.Machine.execAlmBarArrive b val s
  | .moduleArrival b source phase => Sys2Proof.Machine.execModuleArrival b source phase s
  | .barrierRelease b phase => Sys2Proof.Machine.execBarrierRelease b phase s
  | .waitStall d => Sys2Proof.Machine.execWaitStall d s
  | .twinEnable val => Sys2Proof.Machine.execTwinEnable val s
  | .twinMasksArrival source partner masks => Sys2Proof.Machine.execTwinMasksArrival source partner masks s
  | .partnerTallyArrival d parts => Sys2Proof.Machine.execPartnerTallyArrival d parts s
  | .twinPartnerLost d => Sys2Proof.Machine.execTwinPartnerLost d s
  | .linkSettled speed width flit replays corrected => Sys2Proof.Machine.execLinkSettled speed width flit replays corrected s
  | .dStateChange fn d3hot writes => Sys2Proof.Machine.execDStateChange fn d3hot writes s
  | .atomicopRequest fn => Sys2Proof.Machine.execAtomicopRequest fn s
  | .vectorUnmask fn vec => Sys2Proof.Machine.execVectorUnmask fn vec s
  | .windowEnable fn w val => Sys2Proof.Machine.execWindowEnable fn w val s
  | .windowAccess fn w y acc => Sys2Proof.Machine.execWindowAccess fn w y acc s
  | .apertureRequest requester handle offset acc => Sys2Proof.Machine.execApertureRequest requester handle offset acc s
  | .form => Sys2Proof.Machine.execForm s
  | .poolGreeting source id digest admitted => Sys2Proof.Machine.execPoolGreeting source id digest admitted s
  | .formationEnd lists timedOut => Sys2Proof.Machine.execFormationEnd lists timedOut s
  | .join replies => Sys2Proof.Machine.execJoin replies s
  | .leave => Sys2Proof.Machine.execLeave s
  | .leavePagesMoved => Sys2Proof.Machine.execLeavePagesMoved s
  | .peerRequestRetry module ok => Sys2Proof.Machine.execPeerRequestRetry module ok s
  | .moduleRemoval module withinReplication left => Sys2Proof.Machine.execModuleRemoval module withinReplication left s
  | .removalNotice source => Sys2Proof.Machine.execRemovalNotice source s
  | .linkEnable p tx val => Sys2Proof.Machine.execLinkEnable p tx val s
  | .laneCgs p lane complemented => Sys2Proof.Machine.execLaneCgs p lane complemented s
  | .ilasCheck p lanes => Sys2Proof.Machine.execIlasCheck p lanes s
  | .laneRelease p arrivals => Sys2Proof.Machine.execLaneRelease p arrivals s
  | .sysrefEvent off => Sys2Proof.Machine.execSysrefEvent off s
  | .sysrefArm val => Sys2Proof.Machine.execSysrefArm val s
  | .synciRise p => Sys2Proof.Machine.execSynciRise p s
  | .synciLow p octets => Sys2Proof.Machine.execSynciLow p octets s
  | .laneDown p lane signal => Sys2Proof.Machine.execLaneDown p lane signal s
  | .laneRejoin p lane clearUs => Sys2Proof.Machine.execLaneRejoin p lane clearUs s
  | .linkResync p cause => Sys2Proof.Machine.execLinkResync p cause s
  | .instclkFault spread drift khz => Sys2Proof.Machine.execInstclkFault spread drift khz s
  | .instclkRecovery khz inToleranceMs => Sys2Proof.Machine.execInstclkRecovery khz inToleranceMs s
  | .fecRun p val => Sys2Proof.Machine.execFecRun p val s
  | .batchComplete p first samples => Sys2Proof.Machine.execBatchComplete p first samples s
  | .fecInvocation p => Sys2Proof.Machine.execFecInvocation p s
  | .fecNop p => Sys2Proof.Machine.execFecNop p s
  | .fecEnd p => Sys2Proof.Machine.execFecEnd p s
  | .rep p body count => Sys2Proof.Machine.execRep p body count s
  | .clr p dst => Sys2Proof.Machine.execClr p dst s
  | .mac p dst xr yr => Sys2Proof.Machine.execMac p dst xr yr s
  | .mac2 p dst xr yr => Sys2Proof.Machine.execMac2 p dst xr yr s
  | .msu p dst xr yr => Sys2Proof.Machine.execMsu p dst xr yr s
  | .macd p dst src xr => Sys2Proof.Machine.execMacd p dst src xr s
  | .ldx p dst xr parity => Sys2Proof.Machine.execLdx p dst xr parity s
  | .ldy p dst yr => Sys2Proof.Machine.execLdy p dst yr s
  | .sty p src yr => Sys2Proof.Machine.execSty p src yr s
  | .ldi p dst imm => Sys2Proof.Machine.execLdi p dst imm s
  | .adda p dst src => Sys2Proof.Machine.execAdda p dst src s
  | .sha p dst n => Sys2Proof.Machine.execSha p dst n s
  | .rnd p dst src => Sys2Proof.Machine.execRnd p dst src s
  | .mova p dst src => Sys2Proof.Machine.execMova p dst src s
  | .out p slot src => Sys2Proof.Machine.execOut p slot src s
  | .emit p count => Sys2Proof.Machine.execEmit p count s
  | .seta p r imm => Sys2Proof.Machine.execSeta p r imm s
  | .setm p r imm => Sys2Proof.Machine.execSetm p r imm s
  | .setn p r imm => Sys2Proof.Machine.execSetn p r imm s
  | .slotEnable p slot val => Sys2Proof.Machine.execSlotEnable p slot val s
  | .slotFire p slot bad => Sys2Proof.Machine.execSlotFire p slot bad s
  | .heldCodeUpdate p conv => Sys2Proof.Machine.execHeldCodeUpdate p conv s
  | .mtrCfgWrite val => Sys2Proof.Machine.execMtrCfgWrite val s
  | .meridianTick zero bad => Sys2Proof.Machine.execMeridianTick zero bad s
  | .meridianLost => Sys2Proof.Machine.execMeridianLost s
  | .transitLate d => Sys2Proof.Machine.execTransitLate d s
  | .swapEnable p val => Sys2Proof.Machine.execSwapEnable p val s
  | .swapCycleWrite p cycle => Sys2Proof.Machine.execSwapCycleWrite p cycle s
  | .swapInversion p => Sys2Proof.Machine.execSwapInversion p s
  | .swapDrained p => Sys2Proof.Machine.execSwapDrained p s
  | .offline p => Sys2Proof.Machine.execOffline p s
  | .offlineForce p => Sys2Proof.Machine.execOfflineForce p s
  | .plotDrainEnd p => Sys2Proof.Machine.execPlotDrainEnd p s
  | .release p => Sys2Proof.Machine.execRelease p s
  | .plotOnline p edges => Sys2Proof.Machine.execPlotOnline p edges s
  | .plotReset p => Sys2Proof.Machine.execPlotReset p s
  | .plotPortRequest p source addr acc => Sys2Proof.Machine.execPlotPortRequest p source addr acc s
  | .plotPortGrant p => Sys2Proof.Machine.execPlotPortGrant p s
  | .plotPortAcknowledge p => Sys2Proof.Machine.execPlotPortAcknowledge p s
  | .pllLockChange n locked => Sys2Proof.Machine.execPllLockChange n locked s
  | .bankVioMeasurement b mv => Sys2Proof.Machine.execBankVioMeasurement b mv s
  | .pltFtGroupWrite p val => Sys2Proof.Machine.execPltFtGroupWrite p val s
  | .ftGroupWriteEffect p => Sys2Proof.Machine.execFtGroupWriteEffect p s
  | .fullLoadStart nor => Sys2Proof.Machine.execFullLoadStart nor s
  | .imageStagingEnd => Sys2Proof.Machine.execImageStagingEnd s
  | .flashDownshift reread => Sys2Proof.Machine.execFlashDownshift reread s
  | .frameWriteEnd bad => Sys2Proof.Machine.execFrameWriteEnd bad s
  | .doneDriveRelease => Sys2Proof.Machine.execDoneDriveRelease s
  | .doneHighTimer doneHigh us => Sys2Proof.Machine.execDoneHighTimer doneHigh us s
  | .fullRelease => Sys2Proof.Machine.execFullRelease s
  | .normalPersonality => Sys2Proof.Machine.execNormalPersonality s
  | .stageWindowWrite off size val => Sys2Proof.Machine.execStageWindowWrite off size val s
  | .verify src => Sys2Proof.Machine.execVerify src s
  | .loadFull src => Sys2Proof.Machine.execLoadFull src s
  | .loadPartial src => Sys2Proof.Machine.execLoadPartial src s
  | .partialLoadEnd bad => Sys2Proof.Machine.execPartialLoadEnd bad s
  | .commit src => Sys2Proof.Machine.execCommit src s
  | .commitEnd ok => Sys2Proof.Machine.execCommitEnd ok s
  | .stageCopy src => Sys2Proof.Machine.execStageCopy src s
  | .installKey src => Sys2Proof.Machine.execInstallKey src s
  | .revokeKey src => Sys2Proof.Machine.execRevokeKey src s
  | .eraseStore src => Sys2Proof.Machine.execEraseStore src s
  | .reservedCfgCommand word => Sys2Proof.Machine.execReservedCfgCommand word s
  | .gleanerFrameRead upset goldenReadable rewriteOk => Sys2Proof.Machine.execGleanerFrameRead upset goldenReadable rewriteOk s
  | .presenceWindowExpiry => Sys2Proof.Machine.execPresenceWindowExpiry s
  | .lpddr6TrainingEnd passed => Sys2Proof.Machine.execLpddr6TrainingEnd passed s
  | .lpddr6ZeroInitEnd => Sys2Proof.Machine.execLpddr6ZeroInitEnd s
  | .lpddr6ReadCheck handle granule badBytes reader => Sys2Proof.Machine.execLpddr6ReadCheck handle granule badBytes reader s
  | .allBankRefresh sub => Sys2Proof.Machine.execAllBankRefresh sub s
  | .memTemperatureRead temps => Sys2Proof.Machine.execMemTemperatureRead temps s
  | .neighbourRefresh sub bank row => Sys2Proof.Machine.execNeighbourRefresh sub bank row s
  | .packageSpare src => Sys2Proof.Machine.execPackageSpare src s
  | .spareCopyEnd => Sys2Proof.Machine.execSpareCopyEnd s
  | .reservedOpcode src => Sys2Proof.Machine.execReservedOpcode src s
  | .identify src => Sys2Proof.Machine.execIdentify src s
  | .status src powerW mv10 => Sys2Proof.Machine.execStatus src powerW mv10 s
  | .jobStatus src => Sys2Proof.Machine.execJobStatus src s
  | .regRead src => Sys2Proof.Machine.execRegRead src s
  | .regWrite src => Sys2Proof.Machine.execRegWrite src s
  | .eventLogRead src => Sys2Proof.Machine.execEventLogRead src s
  | .stageWrite src => Sys2Proof.Machine.execStageWrite src s
  | .plotStatus src => Sys2Proof.Machine.execPlotStatus src s
  | .plotCommand src => Sys2Proof.Machine.execPlotCommand src s
  | .fallowMap src => Sys2Proof.Machine.execFallowMap src s
  | .fallowApprove src => Sys2Proof.Machine.execFallowApprove src s
  | .tileRetire src => Sys2Proof.Machine.execTileRetire src s
  | .tileRetired t => Sys2Proof.Machine.execTileRetired t s
  | .coreSpare src => Sys2Proof.Machine.execCoreSpare src s
  | .plotRelocate src => Sys2Proof.Machine.execPlotRelocate src s
  | .vernierLatest src => Sys2Proof.Machine.execVernierLatest src s
  | .vernierRecords src => Sys2Proof.Machine.execVernierRecords src s
  | .vernierMark src => Sys2Proof.Machine.execVernierMark src s
  | .vernierFwReplace src => Sys2Proof.Machine.execVernierFwReplace src s
  | .lifetimeReset src => Sys2Proof.Machine.execLifetimeReset src s
  | .bufferAlloc src pool => Sys2Proof.Machine.execBufferAlloc src pool s
  | .bufferFree src pool => Sys2Proof.Machine.execBufferFree src pool s
  | .bufferInfo src pool => Sys2Proof.Machine.execBufferInfo src pool s
  | .poolStatus src => Sys2Proof.Machine.execPoolStatus src s
  | .deviceReset src => Sys2Proof.Machine.execDeviceReset src s
  | .tileReset src => Sys2Proof.Machine.execTileReset src s
  | .debugEnable src => Sys2Proof.Machine.execDebugEnable src s
  | .debugDisable src => Sys2Proof.Machine.execDebugDisable src s
  | .diagRead src => Sys2Proof.Machine.execDiagRead src s
  | .setEndpointId pkt eid => Sys2Proof.Machine.execSetEndpointId pkt eid s
  | .getEndpointId pkt => Sys2Proof.Machine.execGetEndpointId pkt s
  | .getEndpointUuid pkt => Sys2Proof.Machine.execGetEndpointUuid pkt s
  | .getMctpVersionSupport pkt => Sys2Proof.Machine.execGetMctpVersionSupport pkt s
  | .getMessageTypeSupport pkt => Sys2Proof.Machine.execGetMessageTypeSupport pkt s
  | .getVendorDefinedMessageSupport pkt => Sys2Proof.Machine.execGetVendorDefinedMessageSupport pkt s
  | .unsupportedMctpControl pkt command => Sys2Proof.Machine.execUnsupportedMctpControl pkt command s
  | .getVersion => Sys2Proof.Machine.execGetVersion s
  | .getCapabilities => Sys2Proof.Machine.execGetCapabilities s
  | .negotiateAlgorithms asymOffered hashOffered => Sys2Proof.Machine.execNegotiateAlgorithms asymOffered hashOffered s
  | .getDigests => Sys2Proof.Machine.execGetDigests s
  | .getCertificate slot offset length => Sys2Proof.Machine.execGetCertificate slot offset length s
  | .challenge slot nonce => Sys2Proof.Machine.execChallenge slot nonce s
  | .getMeasurements index signed => Sys2Proof.Machine.execGetMeasurements index signed s
  | .unsupportedSpdmRequest code => Sys2Proof.Machine.execUnsupportedSpdmRequest code s
  | .vernierPowerUp => Sys2Proof.Machine.execVernierPowerUp s
  | .energySample microvolts microamps => Sys2Proof.Machine.execEnergySample microvolts microamps s
  | .fwLoadAttempt verified => Sys2Proof.Machine.execFwLoadAttempt verified s
  | .intervalEnd => Sys2Proof.Machine.execIntervalEnd s
  | .vernierPowerLoss => Sys2Proof.Machine.execVernierPowerLoss s
  | .sealCheck isOpen => Sys2Proof.Machine.execSealCheck isOpen s
  | .tileFault t => Sys2Proof.Machine.execTileFault t s
  | .selfTestEnd t passed => Sys2Proof.Machine.execSelfTestEnd t passed s
  | .wearMeasurement t drift => Sys2Proof.Machine.execWearMeasurement t drift s
  | .rowSpare t bank row => Sys2Proof.Machine.execRowSpare t bank row s
  | .inputV mv => Sys2Proof.Machine.execInputV mv s
  | .imageHeaderStaged => Sys2Proof.Machine.execImageHeaderStaged s
  | .stageCopyEnd => Sys2Proof.Machine.execStageCopyEnd s
  | .coreSpared parityFree => Sys2Proof.Machine.execCoreSpared parityFree s
  | .plotRelocated bad => Sys2Proof.Machine.execPlotRelocated bad s
  | .entdaa address => Sys2Proof.Machine.execEntdaa address s
  | .vfEnable enable numVfs ari => Sys2Proof.Machine.execVfEnable enable numVfs ari s

end Sys2Proof.Machine
end

