-- ==== Sys2Proof/Machine/Step.lean ====
section
/-!
DEFINITION. One step of the block: the command at the front of the queue, or one core cycle when none waits.
-/
namespace Sys2Proof.Machine
open Sys2Proof

/-- Take the command at the front of the queue and answer its effect with the queue's rest. With no command waiting one
core cycle of 0.8 ns passes (R2; DESIGN CHOICE: the manual names no tick as a command, and every command of the model
takes no time of its own). -/
def step (s : State) : Host.Outcome State Fault Refusal :=
  match s.pending with
  | [] => .next (idle s)
  | c :: rest => exec c { s with pending := rest }

/-- The state with the command that a word spells at the front of its queue. -/
def State.withFetchWord (s : State) (nbits w : Nat) : State :=
  match Sys2Proof.decodeTableWord nbits w with
  | some c => { s with pending := c :: s.pending }
  | none => s

end Sys2Proof.Machine
end

