-- ==== Sys2Proof/Machine/Pins.lean ====
section
/-!
DEFINITION. What the module shows on its pins (R17, R21, R23, R30, R32, R37, R290, R296, R299, R376). No pin level is state
of its own: each follows from the state it shows.
-/
namespace Sys2Proof.Machine
open Sys2Proof

/-- What an output pin shows: high impedance (an open-drain output released), a level, or, on a lane, electrical idle or
traffic. -/
inductive PinLevel where
  | highZ
  | low
  | high
  | idle
  | active
  deriving DecidableEq, Repr

/-- An open-drain output that pulls low on a condition, and is released without power (R21). -/
def openDrain (s : State) (pull : Bool) : PinLevel := if s.power.pwrOk && pull then .low else .highZ

/-- A push-pull output, high impedance without power (R30, R32). -/
def pushPull (s : State) (high : Bool) : PinLevel := if !s.power.pwrOk then .highZ else if high then .high else .low

/-- DONE (R21, R30, R378). -/
def pinDone (s : State) : PinLevel := openDrain s (getb s Reg.cfgStatus 24)
/-- CFG_ERR_N (R21, R30, R376). -/
def pinCfgErrN (s : State) : PinLevel := openDrain s (getb s Reg.cfgStatus 23)
/-- ALERT_N (R21, R30, R37). -/
def pinAlertN (s : State) : PinLevel := openDrain s (alertCond s)
/-- PWR_OK. -/
def pinPwrOk (s : State) : Bool := s.power.pwrOk

/-- FLASH_VCC is on (R23). -/
def flashVcc (s : State) : Bool := s.power.pwrOk
/-- FLASH_RST_N (R30, R362). -/
def pinFlashRstN (s : State) : PinLevel := pushPull s s.power.flashRstN
/-- The serial NOR is being read: its device has been brought up and the image comes from it (R362, R363). -/
def norReads (s : State) : Bool :=
  s.power.flashRstN && s.cfg.nor.isSome && (cfgState s == 1 || cfgState s == 2) && getf s Reg.cfgStatus 27 26 == 1
/-- FLASH_CS_N (R30): low only in a read. -/
def pinFlashCsN (s : State) : PinLevel := pushPull s (!norReads s)

/-- PORTn_SYNCO (R30, R290, R299, R376). -/
def pinSynco (s : State) (p : Nat) : PinLevel := pushPull s (syncoHigh s p)

/-- What a transmit lane sends. -/
inductive TxLane where
  | highZ
  | idle
  | k28 (inverted : Bool)
  | ilas (octets : LaneIlas) (inverted : Bool)
  | data (inverted : Bool)
  deriving DecidableEq, Repr

/-- Instrument transmit lane `i` of a port (R30, R296, R299, R376): electrical idle until its link is enabled and while
INSTCLK is out of tolerance; TX_POL inverts it. -/
def txLane (s : State) (p i : Nat) : TxLane :=
  let q := linkParams s p true
  let inv := getb s (lnkR p 8) (52 + i)
  if !s.power.pwrOk then .highZ
  else if !getb s Reg.instclk 31 || decide (q.lanes ≤ i) then .idle
  else match txState s p with
    | 1 => .k28 inv
    | 2 => .ilas (ilasLane q i) inv
    | 3 => .data inv
    | _ => .idle

/-- The PCIe transmit lanes (R30): idle until the link has trained. -/
def pinPcieTx (s : State) : PinLevel :=
  if !s.power.pwrOk then .highZ else if getf s Reg.hostLink 23 19 = 0 then .idle else .active

/-- A user I/O pin (R30, R337, R341, R376). -/
def pinUserIo (s : State) (i : Nat) (falling : Bool) : PinLevel := match pinDrive s i falling with
  | some b => if b then .high else .low
  | none => .highZ

end Sys2Proof.Machine
end

