-- ==== Sys2Proof/WellFormed.lean ====
section
/-!
DEFINITION. Well-formed commands: operands whose Lean type is wider than what the manual's rule admits lie within it. Every
command has its meaning whether or not it is well-formed; what an event reports is well-formed when it comes from the
hardware the manual describes.
-/
namespace Sys2Proof

/-- An access of 1 to `max` bytes (R268, R347). -/
def Access.wellFormed (max : Nat) : Access → Bool
  | .read n => decide (1 ≤ n) && decide (n ≤ max)
  | .write l => decide (1 ≤ l.length) && decide (l.length ≤ max)

/-- Rings and areas of a unit within the 32,768 granules of tile store (R106). -/
def Areas.wellFormed (x : Areas) : Bool :=
  let ring := fun (r : Ring) => decide (r.base < 32768) && decide (r.len ≤ 32768)
  ring x.a && ring x.b && ring x.aSide && ring x.bSide && decide (x.bias < 32768) && decide (x.out < 32768)

/-- The octets of an initial lane alignment sequence lie in their fields (R293). -/
def LaneIlas.wellFormed (x : LaneIlas) : Bool :=
  decide (x.did < 256) && decide (x.bid < 16) && decide (x.lid < 32) && decide (x.l ≤ 32) && decide (x.f ≤ 256) &&
    decide (x.k ≤ 32) && decide (x.m ≤ 256) && decide (x.n ≤ 32) && decide (x.np ≤ 32) && decide (x.cs < 4) &&
    decide (x.s ≤ 32) && decide (x.subclassv < 8) && decide (x.jesdv < 8)

/-- The operands of a command lie within what its rule admits. -/
def Instr.wellFormed : Instr → Bool
  | .registerWrite _ _ size _ => [1, 2, 4, 8].contains size
  | .latchedLowWordRead _ _ size => decide (1 ≤ size) && decide (size ≤ 4096)
  | .latchedHighWordRead _ _ size => decide (1 ≤ size) && decide (size ≤ 4096)
  | .bufferedLowWordWrite _ _ _ => true
  | .bufferedHighWordWrite _ _ _ => true
  | .p54vRise _ => true
  | .supplyShutdown _ _ => true
  | .por => true
  | .pwrOkRise => true
  | .internalResetRelease _ _ => true
  | .romBootEnd => true
  | .pinReset _ => true
  | .hostReset => true
  | .flr _ => true
  | .softReset => true
  | .moduleRemovalInsertion _ => true
  | .presenceAsserted _ => true
  | .dieSensorUpdate _ _ _ => true
  | .domeAlertCauseWrite _ => true
  | .throttleUpdate _ _ => true
  | .passIssue _ => true
  | .kStepEntry _ _ _ => true
  | .passDrainStart _ => true
  | .passDrainEnd _ => true
  | .preemptionRequest _ _ => true
  | .preemptionResume _ _ => true
  | .tileExcClear _ _ => true
  | .veInvocation _ _ _ => true
  | .veNop _ => true
  | .veEnd _ => true
  | .loop _ _ _ => true
  | .vld _ _ _ _ _ _ => true
  | .vst _ _ _ _ => true
  | .vldb _ _ _ _ _ _ => true
  | .aset _ _ _ => true
  | .ainc _ _ _ => true
  | .fadd _ _ _ _ => true
  | .fsub _ _ _ _ => true
  | .fmul _ _ _ _ => true
  | .ffma _ _ _ _ _ => true
  | .fmax _ _ _ _ => true
  | .fmin _ _ _ _ => true
  | .fabs _ _ _ => true
  | .fneg _ _ _ => true
  | .fcmp _ _ _ _ _ => true
  | .sel _ _ _ _ _ => true
  | .iadd _ _ _ _ => true
  | .isub _ _ _ _ => true
  | .imul _ _ _ _ => true
  | .vand _ _ _ _ => true
  | .vor _ _ _ _ => true
  | .vxor _ _ _ _ => true
  | .shl _ _ _ _ => true
  | .shr _ _ _ _ => true
  | .frcp _ _ _ => true
  | .frsq _ _ _ => true
  | .fexp2 _ _ _ => true
  | .flog2 _ _ _ => true
  | .ftanh _ _ _ => true
  | .lsum _ _ _ => true
  | .lmax _ _ _ => true
  | .lbcast _ _ _ _ => true
  | .cvt _ _ _ _ _ _ => true
  | .cvts _ _ _ _ _ => true
  | .scale _ _ _ _ => true
  | .almDoorbell _ _ _ => true
  | .almEnable _ _ _ => true
  | .almReset _ _ => true
  | .almAbort _ _ => true
  | .almCountWrite _ _ _ _ => true
  | .submissionRead _ => true
  | .descriptorStart _ _ _ => true
  | .unitPlacement _ _ _ _ areas => areas.wellFormed
  | .runAheadRead _ _ _ => true
  | .mma _ => true
  | .fold _ => true
  | .vec _ => true
  | .moveCopy _ => true
  | .gather _ => true
  | .scatter _ => true
  | .moveTier _ => true
  | .reduceSum _ => true
  | .reduceMax _ => true
  | .reduceMin _ => true
  | .countSet _ => true
  | .countLoad _ => true
  | .countAdd _ => true
  | .fence _ => true
  | .fenceReadReturn _ _ _ => true
  | .barrierArriveAndWait _ => true
  | .barrierArrive _ => true
  | .barrierWait _ => true
  | .transit _ => true
  | .tally _ => true
  | .descriptorCommit _ => true
  | .descriptorFail _ => true
  | .descriptorRestart _ _ => true
  | .tileStmArm _ _ => true
  | .tileStmStop _ _ => true
  | .tileStmReserveWrite _ _ => true
  | .directReserveApplied _ => true
  | .granuleTransferIssue _ => true
  | .granuleArrival _ _ _ => true
  | .armingDone _ _ => true
  | .shadowArmingActive _ _ => true
  | .migrationEpochEnd _ => true
  | .pageRemap _ _ => true
  | .cmnGroupWrite _ _ => true
  | .heldGroupWriteEffect _ _ => true
  | .seamReplay _ _ => true
  | .linkRetrainEnd _ _ failedHalves _ => decide (failedHalves ≤ 2)
  | .multicastGranuleSend _ _ _ _ _ credits => decide (credits.length ≤ 1152)
  | .mcastLag _ _ _ => true
  | .flagUpdate _ _ _ => true
  | .almFlagWrite _ _ _ => true
  | .almFlagAddWrite _ _ _ => true
  | .wakeArrival _ _ => true
  | .waitReregistration _ _ => true
  | .barrierConfigWrite _ _ => true
  | .almBarArrive _ _ => true
  | .moduleArrival _ _ _ => true
  | .barrierRelease _ _ => true
  | .waitStall _ => true
  | .twinEnable _ => true
  | .twinMasksArrival _ _ masks => masks.length == 8
  | .partnerTallyArrival _ parts => parts.tally.length == 32 && parts.record.length == 32
  | .twinPartnerLost _ => true
  | .linkSettled speed width _ _ _ => decide (1 ≤ speed.toNat) && decide (speed.toNat ≤ 6) && [1, 2, 4, 8, 16].contains width.toNat
  | .dStateChange _ _ _ => true
  | .atomicopRequest _ => true
  | .vectorUnmask fn n => decide (n.toNat < if fn = 0 then 265 else 256)
  | .windowEnable fn w _ => fn = 0 || decide (w.toNat < 16)
  | .windowAccess fn w _ acc => acc.wellFormed 4096 && (fn = 0 || decide (w.toNat < 16))
  | .apertureRequest _ _ _ acc => acc.wellFormed 4096
  | .form => true
  | .poolGreeting _ _ _ _ => true
  | .formationEnd lists _ => lists.all fun p => decide (p.1 < 64)
  | .join replies => replies.all fun p => decide (p.1 < 64)
  | .leave => true
  | .leavePagesMoved => true
  | .peerRequestRetry _ _ => true
  | .moduleRemoval _ _ _ => true
  | .removalNotice _ => true
  | .linkEnable _ _ _ => true
  | .laneCgs _ _ _ => true
  | .ilasCheck _ lanes => decide (lanes.length ≤ 8) && lanes.all LaneIlas.wellFormed
  | .laneRelease _ arrivals => decide (arrivals.length ≤ 8)
  | .sysrefEvent _ => true
  | .sysrefArm _ => true
  | .synciRise _ => true
  | .synciLow _ _ => true
  | .laneDown _ _ _ => true
  | .laneRejoin _ _ _ => true
  | .linkResync _ _ => true
  | .instclkFault _ _ _ => true
  | .instclkRecovery _ _ => true
  | .fecRun _ _ => true
  | .batchComplete _ _ samples => samples.all fun x => decide (x.2.1 < 8192)
  | .fecInvocation _ => true
  | .fecNop _ => true
  | .fecEnd _ => true
  | .rep _ _ _ => true
  | .clr _ _ => true
  | .mac _ _ _ _ => true
  | .mac2 _ _ _ _ => true
  | .msu _ _ _ _ => true
  | .macd _ _ _ _ => true
  | .ldx _ _ _ _ => true
  | .ldy _ _ _ => true
  | .sty _ _ _ => true
  | .ldi _ _ _ => true
  | .adda _ _ _ => true
  | .sha _ _ _ => true
  | .rnd _ _ _ => true
  | .mova _ _ _ => true
  | .out _ _ _ => true
  | .emit _ _ => true
  | .seta _ _ _ => true
  | .setm _ _ _ => true
  | .setn _ _ _ => true
  | .slotEnable _ _ _ => true
  | .slotFire _ _ _ => true
  | .heldCodeUpdate _ _ => true
  | .mtrCfgWrite _ => true
  | .meridianTick _ _ => true
  | .meridianLost => true
  | .transitLate _ => true
  | .swapEnable _ _ => true
  | .swapCycleWrite _ _ => true
  | .swapInversion _ => true
  | .swapDrained _ => true
  | .offline _ => true
  | .offlineForce _ => true
  | .plotDrainEnd _ => true
  | .release _ => true
  | .plotOnline _ _ => true
  | .plotReset _ => true
  | .plotPortRequest _ _ addr acc => acc.wellFormed 64 && decide (addr < 2 ^ 32)
  | .plotPortGrant _ => true
  | .plotPortAcknowledge _ => true
  | .pllLockChange _ _ => true
  | .bankVioMeasurement _ _ => true
  | .pltFtGroupWrite _ _ => true
  | .ftGroupWriteEffect _ => true
  | .fullLoadStart nor => decide (nor.densityLog2 < 256)
  | .imageStagingEnd => true
  | .flashDownshift _ => true
  | .frameWriteEnd _ => true
  | .doneDriveRelease => true
  | .doneHighTimer _ _ => true
  | .fullRelease => true
  | .normalPersonality => true
  | .stageWindowWrite _ size _ => [1, 2, 4, 8].contains size
  | .verify _ => true
  | .loadFull _ => true
  | .loadPartial _ => true
  | .partialLoadEnd _ => true
  | .commit _ => true
  | .commitEnd _ => true
  | .stageCopy _ => true
  | .installKey _ => true
  | .revokeKey _ => true
  | .eraseStore _ => true
  | .reservedCfgCommand _ => true
  | .gleanerFrameRead _ _ _ => true
  | .presenceWindowExpiry => true
  | .lpddr6TrainingEnd _ => true
  | .lpddr6ZeroInitEnd => true
  | .lpddr6ReadCheck _ _ badBytes _ => decide (badBytes ≤ 64)
  | .allBankRefresh _ => true
  | .memTemperatureRead temps => temps.length == 13
  | .neighbourRefresh _ _ _ => true
  | .packageSpare _ => true
  | .spareCopyEnd => true
  | .reservedOpcode _ => true
  | .identify _ => true
  | .status _ _ _ => true
  | .jobStatus _ => true
  | .regRead _ => true
  | .regWrite _ => true
  | .eventLogRead _ => true
  | .stageWrite _ => true
  | .plotStatus _ => true
  | .plotCommand _ => true
  | .fallowMap _ => true
  | .fallowApprove _ => true
  | .tileRetire _ => true
  | .tileRetired _ => true
  | .coreSpare _ => true
  | .plotRelocate _ => true
  | .vernierLatest _ => true
  | .vernierRecords _ => true
  | .vernierMark _ => true
  | .vernierFwReplace _ => true
  | .lifetimeReset _ => true
  | .bufferAlloc _ _ => true
  | .bufferFree _ _ => true
  | .bufferInfo _ _ => true
  | .poolStatus _ => true
  | .deviceReset _ => true
  | .tileReset _ => true
  | .debugEnable _ => true
  | .debugDisable _ => true
  | .diagRead _ => true
  | .setEndpointId _ _ => true
  | .getEndpointId _ => true
  | .getEndpointUuid _ => true
  | .getMctpVersionSupport _ => true
  | .getMessageTypeSupport _ => true
  | .getVendorDefinedMessageSupport _ => true
  | .unsupportedMctpControl _ _ => true
  | .getVersion => true
  | .getCapabilities => true
  | .negotiateAlgorithms _ _ => true
  | .getDigests => true
  | .getCertificate _ _ _ => true
  | .challenge _ nonce => nonce.length == 32
  | .getMeasurements _ _ => true
  | .unsupportedSpdmRequest _ => true
  | .vernierPowerUp => true
  | .energySample _ _ => true
  | .fwLoadAttempt _ => true
  | .intervalEnd => true
  | .vernierPowerLoss => true
  | .sealCheck _ => true
  | .tileFault _ => true
  | .selfTestEnd _ _ => true
  | .wearMeasurement _ _ => true
  | .rowSpare _ _ _ => true
  | .inputV _ => true
  | .imageHeaderStaged => true
  | .stageCopyEnd => true
  | .coreSpared _ => true
  | .plotRelocated _ => true
  | .entdaa _ => true
  | .vfEnable _ _ _ => true

end Sys2Proof
end

