-- ==== Sys2Proof/Safety.lean ====
section
/-!
DEFINITION. What counts as a sound state and a safe run: every stored table in its canonical form, and a step that answers
a next state.
-/
namespace Sys2Proof.Machine
open Sys2Proof

/-- The register file holds only words that differ from their reset value, in rising order of offset. -/
def RegFile.wf (l : List (Nat × Word)) : Bool := smWf resetWord l

/-- The data of a state is in canonical form: the register file and the Commons memory. -/
def State.canonical (s : State) : Bool := RegFile.wf s.regs && Memory.wf s.mem

/-- A step of the state neither faults nor is refused. -/
def State.steps (s : State) : Prop := ∃ t, step s = .next t

/-- Every command waiting is well-formed. -/
def State.queueWf (s : State) : Bool := s.pending.all Instr.wellFormed

end Sys2Proof.Machine
end

