-- ==== Sys2Proof/Certificates/Slice0/Obligations.lean ====
section
/-!
DEFINITION. The statements for the provers. First the words they share: what it says of two states that only named
registers differ, and the conditions under which a command has its own effect.
-/
namespace Sys2Proof.Claims
open Sys2Proof Sys2Proof.Machine

/-- Nothing but the register file changes, and of it only the words whose offsets satisfy `p`: every byte of memory and
every other part of the state is as before. -/
def onlyRegs (s t : State) (p : Nat → Prop) : Prop :=
  t = { s with regs := t.regs } ∧ ∀ o, ¬ p o → getReg t o = getReg s o

/-- As `onlyRegs`, but interrupt messages may have been sent or left pending as well. -/
def onlyRegsAndMessages (s t : State) (p : Nat → Prop) : Prop :=
  t = { s with regs := t.regs, sent := t.sent, host := { s.host with msix := t.host.msix } } ∧
    ∀ o, ¬ p o → getReg t o = getReg s o

/-- Nothing of the block but its arrays and its transmit links works by itself: no flit is in the Hedgerow, no tile is
about to become a loop tile, no page is being copied, no line is cached, and no design is loaded. -/
def still (s : State) : Prop :=
  s.hedge.waiting = [] ∧ s.hedge.queues = [] ∧ (∀ e ∈ s.tiles, e.2.loopDue = false) ∧ s.copies = [] ∧
  s.engine.cache = [] ∧ s.cfg.frames = []

/-- Beside that, no transmit link waits for a boundary or sends its alignment sequence. -/
def resting (s : State) : Prop :=
  still s ∧ ∀ p, p < 8 → txState s p ≠ 2 ∧ (txState s p = 1 → (getPort s p).synci = none)

/-- Nothing works by itself, and no tile holds a pass. -/
def quiet (s : State) : Prop := resting s ∧ ∀ e ∈ s.tiles, e.2.passes = []

/-- The physical function decodes BAR0 and every block of it (R257, R265): the module has booted, the function is not in
D3hot and the normal personality runs. -/
def hostOpen (s : State) : Prop := s.power.romBooted = true ∧ 0 ∉ s.host.d3hot ∧ isNormal s = true

end Sys2Proof.Claims


namespace Sys2Proof.Claims
open Sys2Proof Sys2Proof.Machine

/-- One entry of the event log (R457, R458): FLT_LOG_HEAD rises by one, the 32 bytes at the old head hold class, code,
time, location and detail, and the class's NEW bit is set. -/
def logged (s t : State) (cls code loc det : Nat) : Prop :=
  let b := 0x840000 + 32 * ((getReg s Reg.logHead).toNat % 4096)
  getReg t Reg.logHead = getReg s Reg.logHead + 1 ∧ getReg t b = BitVec.ofNat 32 (cls * 2 ^ 16 + code) ∧
  get64 t (b + 8) = s.cycle % 2 ^ 64 ∧ get64 t (b + 16) = loc % 2 ^ 64 ∧ get64 t (b + 24) = det % 2 ^ 64 ∧
  getb t Reg.logStatus cls = true

end Sys2Proof.Claims
section
open Sys2Proof Sys2Proof.Machine Sys2Proof.Claims

/-! The block and its queue. -/

/-- A step takes the command at the front of the queue and is that command's effect on the state with the queue's rest. -/
def Obligations.StepRunsFrontCommand : Prop :=
  ∀ (s : State) (c : Instr) (rest : List Instr), s.pending = c :: rest → step s = exec c { s with pending := rest }

/-- With no command waiting one core cycle passes. Where nothing of the block works by itself, of the registers only
FLT_LIFE.HOURS can change, and only when the cycle completes an hour with PWR_OK high; the additions to flags that count
with this cycle are done with, and the Hedgerow's regulators gather tokens. The tick itself is the model's choice (log
entry 2). -/
def Obligations.EmptyQueuePassesOneCycle : Prop :=
  ∀ s : State, s.pending = [] → s.mgmt.tileResetJob = none →
    (∃ t, step s = .next t ∧ t.cycle = s.cycle + 1 ∧ t.pending = []) ∧
    (quiet s → ∃ t, step s = .next t ∧
      t = { s with cycle := s.cycle + 1, regs := t.regs, flagAdds := [],
                   hedge := { s.hedge with tokens := t.hedge.tokens } } ∧
      (∀ o, o ≠ 0x800024 → getReg t o = getReg s o) ∧
      (¬ (s.power.pwrOk = true ∧ (s.cycle + 1) % 4500000000000 = 0) → t.regs = s.regs))

/-- Every step that answers a next state keeps the register file and the Commons memory in their canonical forms: keys
strictly rising, and no entry equal to what an unlisted key reads as. -/
def Obligations.StepKeepsCanonicalForm : Prop :=
  ∀ s t : State, s.canonical = true → step s = .next t → t.canonical = true

/-- The canonical form holds right after reset. -/
def Obligations.ResetIsCanonical : Prop := State.reset.canonical = true

/-- What a POR leaves (the Reset columns): ALERT_ENABLE 0xFF, the almanacs disabled with SIZE_LOG2 4, the pool
and placement policies, the twin timeout 16, MTR_CFG, MEM_NRT 2, FLT_POLICY and FLT_THRESH; every flag, every count
register and every status word of the same blocks 0; nothing in memory, no command waiting. -/
def Obligations.ResetLeavesTheResetColumns : Prop :=
  getReg State.reset 0x10C = 0xFF ∧ getReg State.reset 0x600000 = 0x00640A00 ∧ getReg State.reset 0x608000 = 0xC0080410 ∧
  getReg State.reset 0x608004 = 512 ∧ getReg State.reset 0x609000 = 16 ∧ get64 State.reset 0x400000 = 0x0000040400000000 ∧
  getReg State.reset 0x500010 = 2 ∧ getReg State.reset 0x800000 = 0x15A ∧ getReg State.reset 0x800014 = 0x0C819004 ∧
  getReg State.reset 0x2181000 = 0xFFFF0000 ∧ (∀ v, 1 ≤ v → v ≤ 16 → getReg State.reset (0x2181000 + 4 * v) = 0xFFFF) ∧
  (∀ a, a < 256 → getReg State.reset (almR a 0x10) = 0x00040000 ∧
    (∀ k ∈ [0x08, 0x0C, 0x14, 0x18, 0x1C, 0x20, 0x24, 0x28, 0x2C, 0x30], getReg State.reset (almR a k) = 0) ∧
    ∀ n, n < 16 → getReg State.reset (almR a (0x40 + 4 * n)) = 0) ∧
  (∀ f, f < 65536 → getReg State.reset (0x2100000 + 4 * f) = 0) ∧
  State.reset.mem = [] ∧ State.reset.pending = []

/-! Host register accesses. -/

/-- REGISTER_WRITE acts by the access code of each field (R3): the written bits of an RW field, nothing on an RO or RSV
field, and a W1C field loses the bits written as 1. Shown on every tile's registers of the three kinds, with everything
else unchanged. -/
def Sys2Proof.Claims.RegisterWriteActsByAccessCode : Prop :=
  ∀ (s : State) (t : TileIx) (v : DWord), hostOpen s →
    (∀ k ∈ [0x410, 0x414, 0x448],
      exec (.registerWrite 0 (BitVec.ofNat 26 (tileR t.val k)) 4 v) s =
        .next (setReg s (tileR t.val k) (v.setWidth 32))) ∧
    exec (.registerWrite 0 (BitVec.ofNat 26 (tileR t.val 0x2C)) 4 v) s =
      .next (setReg s (tileR t.val 0x2C)
        ((getReg s (tileR t.val 0x2C) &&& ~~~0x3F#32) ||| (v.setWidth 32 &&& 0x3F#32))) ∧
    exec (.registerWrite 0 (BitVec.ofNat 26 (tileR t.val 0x84)) 4 v) s =
      .next (setReg s (tileR t.val 0x84)
        (getReg s (tileR t.val 0x84) &&& ~~~(v.setWidth 32 &&& 0x80000000#32))) ∧
    (∀ k ∈ [0x000, 0x10, 0x50, 0x450], ∃ u, exec (.registerWrite 0 (BitVec.ofNat 26 (tileR t.val k)) 4 v) s = .next u ∧
      onlyRegs s u (fun _ => False))

/-- An access of a size other than 4 or 8 bytes, or a misaligned one, is discarded, and so is one that the function does
not decode or that the recovery personality does not offer (R4, R257, R265). -/
def Sys2Proof.Claims.RegisterWriteDiscarded : Prop :=
  ∀ (s : State) (fn : Fn) (off : Off) (size : Nat) (v : DWord),
    ((size ≠ 4 ∧ size ≠ 8) ∨ off.toNat % size ≠ 0 ∨ s.power.romBooted = false ∨ fn.val ∈ s.host.d3hot ∨
      (fn = 0 ∧ isNormal s = false ∧ 0x200000 ≤ off.toNat ∧ off.toNat < 0xF00000)) →
    exec (.registerWrite fn off size v) s = .next s

/-- The 64-bit counters and states of a tile, read and written by halves (R5). A 32-bit read of the low word answers it
and loads the read latch of that function with the high word of the same instant; the next read of the high word answers
the latched word and empties the latch. A 64-bit read answers both words at once and neither uses nor changes a latch, and a
read of any other size, or a misaligned one, answers all ones in every byte. A write of a low word goes into the write buffer and changes no register; a write
of the high word gives the register both. -/
def Sys2Proof.Claims.WideRegistersByHalves : Prop :=
  ∀ (s : State) (t : TileIx) (v : Word), hostOpen s →
    (∀ k ∈ [0x008, 0x050, 0x058, 0x438],
      let o := tileR t.val k
      exec (.latchedLowWordRead 0 (BitVec.ofNat 26 o) 4) s =
        .next { s with host := { s.host with
          latches := smInsert o (getReg s (o + 4)) (smErase o s.host.latches),
          readBytes := leBytes 4 (getReg s o).toNat } } ∧
      (∀ w, (s.host.latches.find? fun e => e.1 == o) = some (o, w) →
        exec (.latchedHighWordRead 0 (BitVec.ofNat 26 (o + 4)) 4) s =
          .next { s with host := { s.host with
            latches := smErase o s.host.latches, readBytes := leBytes 4 w.toNat } }) ∧
      ((s.host.latches.find? fun e => e.1 == o) = none →
        exec (.latchedHighWordRead 0 (BitVec.ofNat 26 (o + 4)) 4) s =
          .next { s with host := { s.host with readBytes := leBytes 4 (getReg s (o + 4)).toNat } }) ∧
      exec (.latchedLowWordRead 0 (BitVec.ofNat 26 o) 8) s =
        .next { s with host := { s.host with
          readBytes := leBytes 4 (getReg s o).toNat ++ leBytes 4 (getReg s (o + 4)).toNat } }) ∧
    (∀ (off : Off) (size : Nat), (size ≠ 4 ∧ size ≠ 8) ∨ ((size = 4 ∨ size = 8) ∧ off.toNat % size ≠ 0) →
      exec (.latchedLowWordRead 0 off size) s =
        .next { s with host := { s.host with readBytes := List.replicate size 0xFF } }) ∧
    (∀ k ∈ [0x428, 0x430, 0x440],
      let o := tileR t.val k
      exec (.bufferedLowWordWrite 0 (BitVec.ofNat 26 o) v) s =
        .next { s with host := { s.host with wbuf := smInsert o v (smErase o s.host.wbuf) } } ∧
      (∀ w, (s.host.wbuf.find? fun e => e.1 == o) = some (o, w) →
        exec (.bufferedHighWordWrite 0 (BitVec.ofNat 26 (o + 4)) v) s = .next (setReg (setReg s o w) (o + 4) v)) ∧
      ((s.host.wbuf.find? fun e => e.1 == o) = none →
        exec (.bufferedHighWordWrite 0 (BitVec.ofNat 26 (o + 4)) v) s =
          .next (setReg (setReg s o (getReg s o)) (o + 4) v)))

end
namespace Sys2Proof.Claims
open Sys2Proof Sys2Proof.Machine

/-- What POR, PIN and SOFT all keep (first row of the reset table of R431), with the queue and the clock: the stored image
and journal, the key slots, CFG_NV, MEM_MAP.NEXT, the package, core and plot maps, FLT_POLICY, FLT_FALLOW, FLT_THRESH and
the wear registers, TILE_ID with its STATE and LOGICAL, and the Vernier. -/
def keptByAllResets (s t : State) : Prop :=
  t.pending = s.pending ∧ t.cycle = s.cycle ∧ t.vrn = s.vrn ∧ t.cfg.store = s.cfg.store ∧
  t.cfg.storeBytes = s.cfg.storeBytes ∧ t.cfg.journalBegin = s.cfg.journalBegin ∧ t.cfg.journalEnd = s.cfg.journalEnd ∧
  t.cfg.keys = s.cfg.keys ∧
  (∀ o ∈ [0x100024, 0x500004, 0x500008, 0x50000C, 0x380008, 0x800000, 0x800004, 0x800014], getReg t o = getReg s o) ∧
  (∀ w : TileIx, getReg t (wearR w.val) = getReg s (wearR w.val) ∧
    getReg t (tileR w.val 0) = getReg s (tileR w.val 0)) ∧
  (∀ p, p < 32 → getf t (pltR p 4) 25 20 = getf s (pltR p 4) 25 20)

/-- What POR, PIN and SOFT all clear (R431): almanacs, handles and their contents, pool, groups, flags, barrier objects,
tile and near stores, the Hedgerow's flits, array, vector engines and armings, front-end cores, slots and links, plots, staging area, LPDDR6. -/
def clearedByAllResets (t : State) : Prop :=
  t.alms = [] ∧ t.seqs = [] ∧ t.handles = [] ∧ t.mem = [] ∧ t.places = [] ∧ t.copies = [] ∧ t.groupTiles = [] ∧
  t.setters = [] ∧ t.bars = [] ∧ t.plots = [] ∧ t.hedge = Hedge.reset ∧ t.engine.cache = [] ∧ t.flagAdds = [] ∧ t.pool = Pool.reset ∧ t.lpddr = Lpddr.reset ∧ t.cfg.staging = [] ∧
  t.cfg.frames = [] ∧ t.cfg.run = none ∧
  (∀ x, (getTile t x).store = [] ∧ (getTile t x).passes = [] ∧ (getTile t x).threads = [] ∧ (getTile t x).stm = [] ∧
    (getTile t x).ve = Ve.reset ∧ (getTile t x).units = [] ∧ (getTile t x).outputs = [] ∧ (getTile t x).streams = []) ∧
  (∀ p, (getPort t p).core = Core.reset ∧ (getPort t p).lanes = [] ∧ (getPort t p).held = []) ∧
  (∀ f, f < 65536 → getReg t (flagR f) = 0)

end Sys2Proof.Claims

section
open Sys2Proof Sys2Proof.Machine Sys2Proof.Claims

/-! Power and start-up. -/

/-- Start-up in its order (R25, R30, R31, R32, R36): P54V starts the converters, PWR_OK rises with DONE driven low, and after
a loss of power that start is a POR; the straps are sampled once at the internal release, and the end of ROM boot is noted. -/
def Sys2Proof.Claims.StartUpInItsOrder : Prop :=
  ∀ s : State,
    (∀ ms, s.power.converters = false → (s.power.thermalLatch = false ∨ 1000 ≤ ms) →
      exec (.p54vRise ms) s = .next { s with power := { s.power with converters := true } }) ∧
    (∀ ms, s.power.converters = false → s.power.thermalLatch = true → ms < 1000 → exec (.p54vRise ms) s = .next s) ∧
    (s.power.converters = true → s.power.pwrOk = false → s.power.porDue = true →
      ∃ t, exec .pwrOkRise s = .next t ∧ t.power.pwrOk = true ∧ t.power.porDue = false ∧ t.power.strapsPending = true ∧
        getf t 0x130 31 29 = 0 ∧ getb t 0x100000 24 = true ∧ clearedByAllResets t) ∧
    (s.power.converters = true → s.power.pwrOk = false → s.power.porDue = false →
      ∃ t, exec .pwrOkRise s = .next t ∧ t.power = { s.power with pwrOk := true, flashRstN := false } ∧
        getb t 0x100000 24 = true ∧ getb t 0x100000 25 = false ∧
        t = { s with power := t.power, regs := t.regs } ∧ ∀ o, o ≠ 0x100000 → getReg t o = getReg s o) ∧
    (∀ src id, s.power.pwrOk = true → s.power.strapsPending = true →
      ∃ t, exec (.internalResetRelease src id) s = .next t ∧ getf t 0x100 9 8 = src.toNat ∧ getf t 0x100 5 0 = id.toNat ∧
        t = { s with power := { s.power with strapsPending := false }, regs := t.regs } ∧
        ∀ o, o ≠ 0x100 → getReg t o = getReg s o) ∧
    (∀ src id, s.power.strapsPending = false → exec (.internalResetRelease src id) s = .next s) ∧
    (s.power.pwrOk = true → s.power.strapsPending = false →
      exec .romBootEnd s = .next { s with power := { s.power with romBooted := true } })

/-- A supply out of range (R21, R31, R32): below 30 V or above 65 V at once, below 38 V or above 62 V for 1 ms, the module
shuts down, ALERT_N, DONE and CFG_ERR_N are released, all work is lost, and the next start is a POR; inside the range nothing happens. -/
def Sys2Proof.Claims.SupplyOutOfRangeLosesAllWork : Prop :=
  ∀ (s : State) (mv us : Nat), s.power.converters = true →
    ((mv < 30000 ∨ 65000 < mv ∨ ((mv < 38000 ∨ 62000 < mv) ∧ 1000 ≤ us)) →
      ∃ t, exec (.supplyShutdown mv us) s = .next t ∧ t.power.pwrOk = false ∧ t.power.converters = false ∧
        t.power.romBooted = false ∧ t.power.porDue = true ∧ pinAlertN t = .highZ ∧ pinDone t = .highZ ∧ pinCfgErrN t = .highZ ∧ clearedByAllResets t ∧ keptByAllResets s t) ∧
    (38000 ≤ mv → mv ≤ 62000 → exec (.supplyShutdown mv us) s = .next s)

/-- POR and PIN clear and keep what the reset table gives (R431); DOME_RESET_CAUSE says which reset it was, a PIN low
shorter than 1 µs is ignored (R20), and a thermal shutdown before the POR is shown and counted (R464). -/
def Sys2Proof.Claims.PorAndPinFollowTheResetTable : Prop :=
  ∀ s : State,
    (s.power.converters = true → s.power.pwrOk = false →
      ∃ t, exec .por s = .next t ∧ clearedByAllResets t ∧ keptByAllResets s t ∧ getf t 0x130 31 29 = 0 ∧
        getb t 0x130 28 = s.power.thermalLatch ∧ t.mgmt = Mgmt.reset ∧ t.meridian = Meridian.reset ∧
        (s.power.thermalLatch = true → getf s 0x800020 31 16 < 65535 →
          getf t 0x800020 31 16 = getf s 0x800020 31 16 + 1)) ∧
    (s.power.pwrOk = true →
      (∀ ns, ns < 1000 → exec (.pinReset ns) s = .next s) ∧
      (∀ ns, 1000 ≤ ns → ∃ t, exec (.pinReset ns) s = .next t ∧ clearedByAllResets t ∧ keptByAllResets s t ∧
        getf t 0x130 31 29 = 1 ∧ t.mgmt = Mgmt.reset ∧ t.meridian = Meridian.reset ∧ t.power.romBooted = false ∧
        t.power.strapsPending = true ∧ getb t 0x100000 24 = true))

/-- SOFT begins 1 ms after DEVICE_RESET's reply, or when a commit ends (R433), clears what R431 gives it, keeps the straps,
the mailbox request, the endpoint ID and the meridian's cycle number with the count stopped, and ends in the recovery
personality with DONE driven low. -/
def Sys2Proof.Claims.SoftResetFollowsTheResetTable : Prop :=
  ∀ (s : State) (at_ : Nat), s.mgmt.softDue = some at_ →
    ((s.cycle < at_ + 1250000 ∨ ∃ r, s.cfg.run = some r ∧ r.committing = true) → exec .softReset s = .next s) ∧
    (at_ + 1250000 ≤ s.cycle → (∀ r, s.cfg.run = some r → r.committing = false) →
      ∃ t, exec .softReset s = .next t ∧ clearedByAllResets t ∧ keptByAllResets s t ∧ getf t 0x130 31 29 = 2 ∧
        getReg t 0x100 = getReg s 0x100 ∧ isNormal t = false ∧ getb t 0x100000 24 = true ∧
        t.mgmt.mbxRequest = s.mgmt.mbxRequest ∧ t.mgmt.eid = s.mgmt.eid ∧ t.mgmt.debug = false ∧ t.mgmt.presence = none ∧
        t.meridian.running = false ∧ t.meridian.cycleNo = s.meridian.cycleNo ∧ t.host.vfActive = false ∧
        t.host.latches = [] ∧ t.host.wbuf = [])

/-- HOST and FLR resets (R19, R430, R431): every almanac without LOOP_PERSIST (for an FLR of a virtual function, those it
owns) loses its registers and its work, the handle windows and the mailbox are cleared and DOME_RESET_CAUSE counts HOST
resets; handles, groups, front-end cores and the meridian stay, and an almanac with LOOP_PERSIST keeps its work. While RESET_N is
low the PIN reset governs, and a HOST reset does nothing (R20). The HOST
clause leaves out states in which a discarded shadow arming's record goes into a register range, where the record's write
has effects of its own. -/
def Obligations.HostAndFunctionResets : Prop :=
  ∀ s : State, s.power.pwrOk = true → (getJob s 3).opcode ≠ 0x60 →
    (s.power.strapsPending = true → exec .hostReset s = .next s) ∧
    (s.power.strapsPending = false → (∀ e ∈ s.tiles, ∀ c ∈ e.2.stm, ∀ b h, c.2.shadow = some b → findHandle s b.recHandle = some h → h.kind = 0) →
      ∃ t, exec .hostReset s = .next t ∧
      (∀ a, a < 256 → persists s a = false → (getAlm t a).subs = [] ∧ getb t (almR a 0x10) 31 = false ∧
        ∀ k ∈ [0x08, 0x0C, 0x14, 0x18, 0x20], getReg t (almR a k) = 0) ∧
      (∀ a, a < 256 → persists s a = true → (getAlm t a).subs = (getAlm s a).subs) ∧
      (∀ o, 0x60A000 ≤ o → o < 0x60C000 → getReg t o = 0) ∧ t.mgmt.mbxRequest = none ∧ t.mgmt.lastMbx = none ∧
      t.host.latches = [] ∧ t.host.wbuf = [] ∧ t.host.d3hot = [] ∧ t.host.numVfs = 0 ∧ t.host.vfActive = false ∧
      (getf s 0x130 15 0 < 65535 → getf t 0x130 15 0 = getf s 0x130 15 0 + 1) ∧
      t.handles = s.handles ∧ t.groupTiles = s.groupTiles ∧ t.ports = s.ports ∧ t.meridian = s.meridian ∧
      t.cfg = s.cfg ∧ t.vrn = s.vrn ∧ t.pending = s.pending ∧ t.cycle = s.cycle) ∧
    (∀ fn : Fn, fn ≠ 0 → ∃ t, exec (.flr fn) s = .next t ∧
      (∀ a, a < 256 → almOwner s a = fn.val → persists s a = false → (getAlm t a).subs = [] ∧
        getb t (almR a 0x10) 31 = false ∧ ∀ k ∈ [0x08, 0x0C, 0x14, 0x18, 0x20], getReg t (almR a k) = 0) ∧
      (∀ a, a < 256 → almOwner s a ≠ fn.val → (getAlm t a).subs.map (·.header) = (getAlm s a).subs.map (·.header)) ∧
      (∀ w, w < 16 → ∀ k ∈ [0, 4, 8, 12], getReg t (winR fn.val w k) = 0) ∧
      fn.val ∉ t.host.d3hot ∧ (∀ e ∈ t.host.latches, e.1 / 2 ^ 26 ≠ fn.val) ∧
      t.handles = s.handles ∧ t.mem = s.mem ∧ t.groupTiles = s.groupTiles ∧ t.ports = s.ports ∧
      t.meridian = s.meridian ∧ t.cfg = s.cfg ∧ t.mgmt.mbxRequest = s.mgmt.mbxRequest)

/-- Removal shows on MOD_PRSNT_N and changes nothing else (R43). PRESENCE_N low for 50 ms shows in DOME_PRESENCE (R22) and,
begun after the command was accepted and inside its 30 s window, lets DEBUG_ENABLE take effect (R453). VF Enable and
NumVFs are taken from configuration space, in D3hot too, a NumVFs above 16 ignored, and in the recovery personality the
virtual functions wait (R257, R260, R265). -/
def Sys2Proof.Claims.PinsAndConfigurationSpace : Prop :=
  ∀ s : State,
    (∀ b, exec (.moduleRemovalInsertion b) s = .next { s with power := { s.power with present := b } }) ∧
    (∀ fell, s.power.pwrOk = true → s.power.strapsPending = false → fell + 62500000 ≤ s.cycle →
      (s.mgmt.presence = none → exec (.presenceAsserted fell) s = .next (setb s 0x140 31 true)) ∧
      (∀ at_ byReg, s.mgmt.presence = some (0x62, at_, byReg) → at_ < fell → s.cycle < at_ + 37500000000 →
        ∃ t, exec (.presenceAsserted fell) s = .next t ∧ t.mgmt.debug = true ∧ t.mgmt.presence = none ∧
          getb t 0x140 31 = true) ∧
      (∀ op at_ byReg, s.mgmt.presence = some (op, at_, byReg) → (fell ≤ at_ ∨ at_ + 37500000000 ≤ s.cycle) →
        exec (.presenceAsserted fell) s = .next (setb s 0x140 31 true))) ∧
    (∀ fell, s.cycle < fell + 62500000 → exec (.presenceAsserted fell) s = .next s) ∧
    (∀ en n ari,
      exec (.vfEnable en n ari) s = .next { s with host := { s.host with
        vfEnable := en, numVfs := if 16 < n.toNat then s.host.numVfs else n.toNat, vfActive := en && isNormal s, ari := ari } })

/-- The dome controller's monitors. DOME_THERMAL shows the millisecond's temperatures, and THERMAL_WARN rises with a die at
100 °C; a die at 115 °C shuts the module down for good (R40). A W1C write clears alert causes, but one whose condition
still holds, or that the hardware sets in this cycle, stays 1 (R38). The throttle's LEVEL rises by 2 on a cause, up to 15,
and falls by 1 after 10 ms of margin (R464). INPUT_V's condition holds in the two bands of the supply (R38). -/
def Sys2Proof.Claims.DomeMonitors : Prop :=
  ∀ s : State,
    (∀ hot inlet outlet : Byte, s.power.pwrOk = true → hot.toNat < 115 →
      ∃ t, exec (.dieSensorUpdate hot inlet outlet) s = .next t ∧
        getf t 0x110 31 24 = hot.toNat ∧ getf t 0x110 23 16 = inlet.toNat ∧ getf t 0x110 15 8 = outlet.toNat ∧
        getf t 0x800020 15 8 = max hot.toNat (getf s 0x800020 15 8) ∧
        (100 ≤ hot.toNat → bitOf s.power.alertHold 3 = false → getb t 0x108 3 = true) ∧
        bitOf t.power.alertHold 3 = decide (100 ≤ hot.toNat) ∧
        bitOf t.power.alertHold 4 =
          decide (inlet.toNat < 20 ∨ 45 < inlet.toNat ∨ inlet.toNat + 20 < outlet.toNat) ∧
        t = { s with regs := t.regs, power := t.power, sent := t.sent, host := { s.host with msix := t.host.msix } } ∧
        ∀ o, o ≠ 0x110 → o ≠ 0x108 → o ≠ 0x800020 → getReg t o = getReg s o) ∧
    (∀ hot inlet outlet : Byte, s.power.pwrOk = true → 115 ≤ hot.toNat →
      ∃ t, exec (.dieSensorUpdate hot inlet outlet) s = .next t ∧ t.power.converters = false ∧
        t.power.thermalLatch = true ∧ clearedByAllResets t) ∧
    (∀ v : Word, ∃ t, exec (.domeAlertCauseWrite v) s = .next t ∧
      (∀ i, i < 8 → getb t 0x108 i = (getb s 0x108 i && (!v.getLsbD i || bitOf s.power.alertHold i ||
        bitOf (alertNow s) i))) ∧ onlyRegsAndMessages s t (· = 0x108)) ∧
    (∀ w c, s.power.pwrOk = true → s.power.strapsPending = false →
      ∃ t, exec (.throttleUpdate w c) s = .next t ∧
        ((2200 ≤ w ∨ 105 ≤ getf s 0x110 31 24 ∨ 105 < c) →
          getf t 0x800010 31 28 = min 15 (getf s 0x800010 31 28 + 2)) ∧
        (w ≤ 2100 → getf s 0x110 31 24 ≤ 102 → c ≤ 102 →
          (s.fallow.marginMs = 9 → getf t 0x800010 31 28 = getf s 0x800010 31 28 - 1 ∧ t.fallow.marginMs = 0) ∧
          (s.fallow.marginMs < 9 → getf t 0x800010 31 28 = getf s 0x800010 31 28 ∧
            t.fallow.marginMs = s.fallow.marginMs + 1)) ∧
        t.mem = s.mem ∧ t.tiles = s.tiles ∧ t.alms = s.alms) ∧
    (∀ mv, s.power.pwrOk = true → ∃ t, exec (.inputV mv) s = .next t ∧
      bitOf t.power.alertHold 0 = decide ((38000 ≤ mv ∧ mv < 40000) ∨ (60000 < mv ∧ mv ≤ 62000)) ∧
      (bitOf t.power.alertHold 0 = true → bitOf s.power.alertHold 0 = false → getb t 0x108 0 = true) ∧
      t = { s with regs := t.regs, power := t.power, sent := t.sent, host := { s.host with msix := t.host.msix } } ∧
      ∀ o, o ≠ 0x108 → getReg t o = getReg s o)

end
namespace Sys2Proof.Claims
open Sys2Proof Sys2Proof.Machine

/-- A tile's vector engine and its store at the next issue cycle: every register write and every VST whose latency has
passed has taken effect (R110). -/
def veNow (s : State) (t : Nat) : Ve × List Host.Cell :=
  settleStores (getTile s t).ve.settle (getTile s t).store (getTile s t).ve.cyc

/-- The engine runs an invocation. -/
def veRuns (s : State) (t : Nat) : Prop := (getTile s t).ve.running.isSome = true

/-- The schedule meets R120's first and third conditions here, or the checker is off: no source has a write still to take
effect, and no pending write to the destination takes effect together with this one. -/
def veScheduled (s : State) (t : Nat) (srcs : List VeDest) (dst : Option VeDest) (lat : Nat) : Prop :=
  (getTile s t).ve.checking = false ∨
    ∀ p ∈ (veNow s t).1.pend, p.dest ∉ srcs ∧ (dst = some p.dest → p.due ≠ (veNow s t).1.cyc + lat)

/-- The state after an instruction without a branch issued at engine `v`, store `m`: one cycle later, the program counter
moved on, nothing else of the module changed. -/
def veAfter (s : State) (t : Nat) (v : Ve) (m : List Host.Cell) : State :=
  setTile s t { getTile s t with
    store := m
    ve := { v with cyc := v.cyc + 1, pc := (veAdvance v.pc v.loops).1, loops := (veAdvance v.pc v.loops).2 } }

/-- The state after an instruction that writes a V register `lat` cycles later and raises `flags` (R110, R112). -/
def veWrites (s : State) (t : Nat) (lat : Nat) (vd : Nat) (lanes : List Word) (flags : Nat) : State :=
  let v := (veNow s t).1
  veAfter s t { v with pend := v.pend ++ [⟨v.cyc + lat, .v vd, lanes, 0, 0⟩], flags := v.flags ||| flags } (veNow s t).2

/-- V register `r` as an instruction issued now reads it. -/
def veV (s : State) (t : Nat) (r : BitVec 6) : List Word := (veNow s t).1.getV r.toNat

/-- Address register `a` as an instruction issued now reads it. -/
def veA (s : State) (t : Nat) (a : BitVec 3) : VeAddr := (veNow s t).1.getA a.toNat

/-- The flags of a list of lane results, ORed. -/
def orFlags (l : List (Word × Nat)) : Nat := l.foldl (fun x y => x ||| y.2) 0

/-- The state after a one-source or two-source lane instruction whose lane function is `f`. -/
def veLane (s : State) (t : Nat) (lat : Nat) (f : Word → Word → Word × Nat) (vd va vb : BitVec 6) : State :=
  let r := List.zipWith f (veV s t va) (veV s t vb)
  veWrites s t lat vd.toNat (r.map (·.1)) (orFlags r)

end Sys2Proof.Claims

section
open Sys2Proof Sys2Proof.Machine Sys2Proof.Claims

/-! The vector engine. -/

/-- Integer and logical lane instructions (R116): the result modulo 2^32 in every lane, after one cycle (three for IMUL);
no flag, and nothing else of the module changes. -/
def Sys2Proof.Claims.VeIntegerLanes : Prop :=
  ∀ (s : State) (t : TileIx) (vd va vb : BitVec 6), veRuns s t.val →
    (veScheduled s t.val [.v va.toNat, .v vb.toNat] (some (.v vd.toNat)) 1 →
      exec (.iadd t vd va vb) s =
        .next (veWrites s t.val 1 vd.toNat (List.zipWith (· + ·) (veV s t.val va) (veV s t.val vb)) 0) ∧
      exec (.isub t vd va vb) s =
        .next (veWrites s t.val 1 vd.toNat (List.zipWith (· - ·) (veV s t.val va) (veV s t.val vb)) 0) ∧
      exec (.vand t vd va vb) s =
        .next (veWrites s t.val 1 vd.toNat (List.zipWith (· &&& ·) (veV s t.val va) (veV s t.val vb)) 0) ∧
      exec (.vor t vd va vb) s =
        .next (veWrites s t.val 1 vd.toNat (List.zipWith (· ||| ·) (veV s t.val va) (veV s t.val vb)) 0) ∧
      exec (.vxor t vd va vb) s =
        .next (veWrites s t.val 1 vd.toNat (List.zipWith (· ^^^ ·) (veV s t.val va) (veV s t.val vb)) 0)) ∧
    (veScheduled s t.val [.v va.toNat, .v vb.toNat] (some (.v vd.toNat)) 3 →
      exec (.imul t vd va vb) s =
        .next (veWrites s t.val 3 vd.toNat (List.zipWith (· * ·) (veV s t.val va) (veV s t.val vb)) 0))

/-- SHL and SHR shift every lane by IMM[4:0], SHR with the sign when IMM[5] is 1 (R116). -/
def Sys2Proof.Claims.VeShifts : Prop :=
  ∀ (s : State) (t : TileIx) (vd va : BitVec 6), veRuns s t.val →
    veScheduled s t.val [.v va.toNat] (some (.v vd.toNat)) 1 →
    (∀ n : BitVec 5, exec (.shl t vd va n) s =
      .next (veWrites s t.val 1 vd.toNat ((veV s t.val va).map fun (x : Word) => x <<< n.toNat) 0)) ∧
    (∀ n : BitVec 6, n.getLsbD 5 = false → exec (.shr t vd va n) s =
      .next (veWrites s t.val 1 vd.toNat ((veV s t.val va).map fun (x : Word) => x >>> (n.toNat % 32)) 0)) ∧
    (∀ n : BitVec 6, n.getLsbD 5 = true → exec (.shr t vd va n) s =
      .next (veWrites s t.val 1 vd.toNat ((veV s t.val va).map fun (x : Word) => x.sshiftRight (n.toNat % 32)) 0))

/-- Floating-point lane instructions (R111, R116): FADD, FSUB, FMUL after 4 cycles, FFMA after 5, FMAX and FMIN after 2,
FABS and FNEG after 1; the lane functions are those of `Machine` and the flags of all lanes are ORed into the
invocation's. -/
def Sys2Proof.Claims.VeFloatLanes : Prop :=
  ∀ (s : State) (t : TileIx) (vd va vb : BitVec 6), veRuns s t.val →
    (veScheduled s t.val [.v va.toNat, .v vb.toNat] (some (.v vd.toNat)) 4 →
      exec (.fadd t vd va vb) s = .next (veLane s t.val 4 laneAdd vd va vb) ∧
      exec (.fsub t vd va vb) s = .next (veLane s t.val 4 laneSub vd va vb) ∧
      exec (.fmul t vd va vb) s = .next (veLane s t.val 4 laneMul vd va vb)) ∧
    (veScheduled s t.val [.v va.toNat, .v vb.toNat] (some (.v vd.toNat)) 2 →
      exec (.fmax t vd va vb) s = .next (veLane s t.val 2 (lanePick true) vd va vb) ∧
      exec (.fmin t vd va vb) s = .next (veLane s t.val 2 (lanePick false) vd va vb)) ∧
    (veScheduled s t.val [.v va.toNat] (some (.v vd.toNat)) 1 →
      exec (.fabs t vd va) s = .next (veLane s t.val 1 (fun a _ => laneAbs a) vd va va) ∧
      exec (.fneg t vd va) s = .next (veLane s t.val 1 (fun a _ => laneNeg a) vd va va)) ∧
    (∀ vc : BitVec 6, veScheduled s t.val [.v va.toNat, .v vb.toNat, .v vc.toNat] (some (.v vd.toNat)) 5 →
      exec (.ffma t vd va vb vc) s =
        let r := List.zipWith (fun (p : Word × Word) c => laneFma p.1 p.2 c)
          ((veV s t.val va).zip (veV s t.val vb)) (veV s t.val vc)
        .next (veWrites s t.val 5 vd.toNat (r.map (·.1)) (orFlags r)))

/-- What the floating-point lane functions answer for special operands (R70, R71, R111, R113): every NaN result is
0x7FC0_0000 with NAN_IN for a NaN source and INVALID for an invalid operation, FMAX and FMIN pass a NaN over and order −0
below +0, and the special inputs of FRCP, FRSQ, FEXP2, FLOG2 and FTANH give the table's results. -/
def Sys2Proof.Claims.VeSpecialOperands : Prop :=
  (∀ a b : Word, num32 a = .nan → laneAdd a b = (0x7FC00000, 1) ∧ laneSub a b = (0x7FC00000, 1) ∧
    laneMul a b = (0x7FC00000, 1) ∧ laneAbs a = (0x7FC00000, 1) ∧ laneNeg a = (0x7FC00000, 1) ∧
    laneFun frcpNum a = (0x7FC00000, 1) ∧ laneFun frsqNum a = (0x7FC00000, 1) ∧ laneFun fexp2Num a = (0x7FC00000, 1) ∧
    laneFun flog2Num a = (0x7FC00000, 1) ∧ laneFun ftanhNum a = (0x7FC00000, 1)) ∧
  (∀ a b : Word, num32 b = .nan → num32 a ≠ .nan → (lanePick true a b).1 = bits32 (num32 a) ∧
    (lanePick true b a).1 = bits32 (num32 a) ∧ (lanePick false a b).1 = bits32 (num32 a) ∧
    (lanePick false b a).1 = bits32 (num32 a) ∧ (lanePick true a b).2 = 1) ∧
  laneAdd 0x7F800000 0xFF800000 = (0x7FC00000, 2) ∧ laneMul 0x00000000 0x7F800000 = (0x7FC00000, 2) ∧
  lanePick true 0x80000000 0x00000000 = (0x00000000, 0) ∧ lanePick false 0x00000000 0x80000000 = (0x80000000, 0) ∧
  laneFun frcpNum 0x00000000 = (0x7F800000, 0) ∧ laneFun frcpNum 0x80000000 = (0xFF800000, 0) ∧
  laneFun frcpNum 0x7F800000 = (0x00000000, 0) ∧ laneFun frcpNum 0xFF800000 = (0x80000000, 0) ∧
  laneFun frsqNum 0x00000000 = (0x7F800000, 0) ∧ laneFun frsqNum 0x80000000 = (0xFF800000, 0) ∧
  laneFun frsqNum 0x7F800000 = (0x00000000, 0) ∧
  (∀ m e, m ≠ 0 → frsqNum (.fin true m e) = (.nan, 2) ∧ flog2Num (.fin true m e) = (.nan, 2)) ∧
  laneFun fexp2Num 0xFF800000 = (0x00000000, 0) ∧ laneFun fexp2Num 0x7F800000 = (0x7F800000, 0) ∧
  (∀ m e, m ≠ 0 → 8 ≤ leadExp m e → fexp2Num (.fin false m e) = (.inf false, 4)) ∧
  laneFun flog2Num 0x00000000 = (0xFF800000, 0) ∧ laneFun flog2Num 0x80000000 = (0xFF800000, 0) ∧
  laneFun flog2Num 0x7F800000 = (0x7F800000, 0) ∧ laneFun flog2Num 0x3F800000 = (0x00000000, 0) ∧
  laneFun ftanhNum 0x00000000 = (0x00000000, 0) ∧ laneFun ftanhNum 0x80000000 = (0x80000000, 0) ∧
  laneFun ftanhNum 0x7F800000 = (0x3F800000, 0) ∧ laneFun ftanhNum 0xFF800000 = (0xBF800000, 0)

/-- Rounding is to nearest, ties to even (R111): the quotient kept by `rne` lies within half a unit of the exact one, and
at exactly half a unit it is even. -/
def Obligations.RoundingIsToNearestEven : Prop :=
  ∀ m s : Nat,
    2 * (rne m s * 2 ^ s) ≤ 2 * m + 2 ^ s ∧ 2 * m ≤ 2 * (rne m s * 2 ^ s) + 2 ^ s ∧
    ((2 * (rne m s * 2 ^ s) = 2 * m + 2 ^ s ∨ 2 * m = 2 * (rne m s * 2 ^ s) + 2 ^ s) → rne m s % 2 = 0)

/-- The special functions after 6, 8 and 10 cycles (R113, R116), the tree reductions after 7 and 5 (R114) and LBCAST
after 2: the tree's result, or lane IMM[5:0], in every lane. -/
def Obligations.VeSpecialAndTrees : Prop :=
  ∀ (s : State) (t : TileIx) (vd va : BitVec 6), veRuns s t.val →
    (veScheduled s t.val [.v va.toNat] (some (.v vd.toNat)) 6 →
      exec (.frcp t vd va) s = .next (veLane s t.val 6 (fun a _ => laneFun frcpNum a) vd va va) ∧
      exec (.frsq t vd va) s = .next (veLane s t.val 6 (fun a _ => laneFun frsqNum a) vd va va)) ∧
    (veScheduled s t.val [.v va.toNat] (some (.v vd.toNat)) 8 →
      exec (.fexp2 t vd va) s = .next (veLane s t.val 8 (fun a _ => laneFun fexp2Num a) vd va va) ∧
      exec (.flog2 t vd va) s = .next (veLane s t.val 8 (fun a _ => laneFun flog2Num a) vd va va)) ∧
    (veScheduled s t.val [.v va.toNat] (some (.v vd.toNat)) 10 →
      exec (.ftanh t vd va) s = .next (veLane s t.val 10 (fun a _ => laneFun ftanhNum a) vd va va)) ∧
    (veScheduled s t.val [.v va.toNat] (some (.v vd.toNat)) 7 →
      let r := treeUp laneAdd 6 (veV s t.val va) 0
      exec (.lsum t vd va) s = .next (veWrites s t.val 7 vd.toNat (List.replicate 64 (r.1.headD 0)) r.2)) ∧
    (veScheduled s t.val [.v va.toNat] (some (.v vd.toNat)) 5 →
      let r := treeUp (lanePick true) 6 (veV s t.val va) 0
      exec (.lmax t vd va) s = .next (veWrites s t.val 5 vd.toNat (List.replicate 64 (r.1.headD 0)) r.2)) ∧
    (∀ lane : BitVec 6, veScheduled s t.val [.v va.toNat] (some (.v vd.toNat)) 2 →
      exec (.lbcast t vd va lane) s =
        .next (veWrites s t.val 2 vd.toNat (List.replicate 64 ((veV s t.val va)[lane.toNat]?.getD 0)) 0))

/-- FCMP writes one mask bit per lane, lane 0 lowest, after 2 cycles, and SEL takes VA where the mask has 1 and VB where it
has 0, after 1 (R116). -/
def Sys2Proof.Claims.VeCompareAndSelect : Prop :=
  ∀ (s : State) (t : TileIx) (va vb : BitVec 6), veRuns s t.val →
    (∀ md code : BitVec 3, veScheduled s t.val [.v va.toNat, .v vb.toNat] (some (.m md.toNat)) 2 →
      ∃ k : BitVec 64, exec (.fcmp t md va vb code) s =
        (let v := (veNow s t.val).1
         .next (veAfter s t.val { v with pend := v.pend ++ [⟨v.cyc + 2, .m md.toNat, [], k, 0⟩], flags := v.flags |||
            (List.zipWith (laneCmp code.toNat) (veV s t.val va) (veV s t.val vb)).foldl (fun x y => x ||| y.2) 0 }
          (veNow s t.val).2)) ∧
        ∀ i, i < 64 → ∀ a b, (veV s t.val va)[i]? = some a → (veV s t.val vb)[i]? = some b →
          k.getLsbD i = (laneCmp code.toNat a b).1) ∧
    (∀ (vd : BitVec 6) (ms : BitVec 3),
      veScheduled s t.val [.v va.toNat, .v vb.toNat, .m ms.toNat] (some (.v vd.toNat)) 1 →
      exec (.sel t vd ms va vb) s = .next (veWrites s t.val 1 vd.toNat
        (((veV s t.val va).zip (veV s t.val vb)).mapIdx fun i p =>
          if ((veNow s t.val).1.getM ms.toNat).getLsbD i then p.1 else p.2) 0))

/-- The comparisons of FCMP on numbers and NaNs (R116): for finite lanes EQ, LT, LE and NE are the relations of the exact
values with −0 equal to +0, and a NaN makes EQ, LT and LE false and NE true, raising NAN_IN. -/
def Sys2Proof.Claims.VeCompareCodes : Prop :=
  (∀ a b : Word, (num32 a = .nan ∨ num32 b = .nan) →
    laneCmp 0 a b = (false, 1) ∧ laneCmp 1 a b = (false, 1) ∧ laneCmp 2 a b = (false, 1) ∧ laneCmp 3 a b = (true, 1)) ∧
  (∀ a b : Word, num32 a ≠ .nan → num32 b ≠ .nan →
    (laneCmp 3 a b).1 = !(laneCmp 0 a b).1 ∧ (laneCmp 2 a b).1 = ((laneCmp 1 a b).1 || (laneCmp 0 a b).1) ∧
    (laneCmp 1 a b).1 = ((laneCmp 2 b a).1 == false) ∧ (laneCmp 0 a b).1 = (laneCmp 0 b a).1) ∧
  (∀ (a b : Word) (sa sb : Bool) (ma mb : Nat) (ea eb : Int), num32 a = .fin sa ma ea → num32 b = .fin sb mb eb →
    let x : Int := (if sa then -1 else 1) * ma * 2 ^ (ea + 149).toNat
    let y : Int := (if sb then -1 else 1) * mb * 2 ^ (eb + 149).toNat
    (laneCmp 0 a b).1 = decide (x = y) ∧ (laneCmp 1 a b).1 = decide (x < y) ∧ (laneCmp 2 a b).1 = decide (x ≤ y) ∧
      (laneCmp 3 a b).1 = decide (x ≠ y)) ∧
  (laneCmp 0 0x00000000 0x80000000).1 = true ∧ (laneCmp 1 0x80000000 0x00000000).1 = false

/-- VLD, VST and VLDB inside the operand's extent (R103, R110, R115, R116, R119): VLD and VLDB write their register 8
cycles later from the bytes of tile store, counting the words that were corrected in TILE_STORE_ECC; a VST is seen two
cycles later and needs the operand's WRITE; outside it, or a VST without WRITE, the invocation stops with BOUNDS. A load
that meets an uncorrectable word delivers nothing: the invocation stops and the descriptor fails with MEM_UNCORRECTABLE. -/
def Sys2Proof.Claims.VeMemoryInstructions : Prop :=
  ∀ (s : State) (t : TileIx) (v : BitVec 6) (a : BitVec 3) (off : BitVec 16), veRuns s t.val →
    ((getTile s t.val).ve.checking = false ∨ ((veNow s t.val).1.pend = [] ∧ (veNow s t.val).1.stores = [])) →
    let r := veA s t.val a
    let at_ := r.val + off.toInt
    let m := (veNow s t.val).2
    (r.base ≤ at_ → at_ + 4 ≤ r.limit →
      exec (.vld t v a off 0 false) s =
        .next (veWrites s t.val 8 v.toNat (bytesLanes (rdBytes m (64 * at_.toNat) 256)) 0) ∧
      (∀ n, 0 < n → exec (.vld t v a off n false) s =
        .next (veWrites (countUpBy s (tileR t.val 0x90) 31 0 n) t.val 8 v.toNat
          (bytesLanes (rdBytes m (64 * at_.toNat) 256)) 0)) ∧
      (∀ d iter sb x q, (getTile s t.val).ve.running = some (d, iter) → findDesc s d = some (sb, x, q) →
        q.going = true → q.code = 0 →
        ∃ u, exec (.vld t v a off 0 true) s = .next u ∧ (getTile u t.val).ve.running = none ∧
          (getTile u t.val).store = (getTile s t.val).store ∧
          ∃ sb' q', findDesc u d = some (sb', x, q') ∧ q'.code = 0x0C03) ∧
      (a.toNat ∈ (getTile s t.val).ve.write →
        exec (.vst t v a off) s = .next
          (let e := (veNow s t.val).1
           veAfter s t.val { e with stores := e.stores ++ [⟨e.cyc + 2, at_, veV s t.val v⟩] } m))) ∧
    (let stops := fun c : Instr => ∃ u, exec c s = .next u ∧
       (getTile u t.val).ve.running = none ∧ (getTile u t.val).ve.failure = 0x0203 ∧ (getTile u t.val).store = m
     ((at_ < r.base ∨ (r.limit : Int) < at_ + 4) → ∀ n b, stops (.vld t v a off n b) ∧ stops (.vst t v a off)) ∧
     (a.toNat ∉ (getTile s t.val).ve.write → stops (.vst t v a off)) ∧
     (let g := r.val + sx 12 (off.toNat / 16)
      (g < r.base ∨ (r.limit : Int) < g + 1) → ∀ n b, stops (.vldb t v a off n b))) ∧
    (let g := r.val + sx 12 (off.toNat / 16)
     r.base ≤ g → g + 1 ≤ r.limit →
      exec (.vldb t v a off 0 false) s = .next (veWrites s t.val 8 v.toNat
        (List.replicate 64 (BitVec.ofNat 32 (rdNat m (64 * g.toNat + 4 * (off.toNat % 16)) 4))) 0))

/-- ASET puts base + IMM and AINC adds the signed IMM, one cycle later; NOP only takes its issue cycle; LOOP takes one and
enters its body COUNT times, or passes it over when COUNT is 0; END ends the invocation and merges its flags into the
descriptor's summary, and its unit leaves the tile (R109, R112, R115 to R117). -/
def Sys2Proof.Claims.VeAddressAndControl : Prop :=
  ∀ (s : State) (t : TileIx), veRuns s t.val →
    let v := (veNow s t.val).1
    let m := (veNow s t.val).2
    exec (.veNop t) s = .next (veAfter s t.val v m) ∧
    (∀ (a : BitVec 3) (imm : BitVec 16),
      (veScheduled s t.val [] (some (.a a.toNat)) 1 → exec (.aset t a imm) s =
        .next (veAfter s t.val { v with pend := v.pend ++
          [⟨v.cyc + 1, .a a.toNat, [], 0, (veA s t.val a).base + imm.toNat⟩] } m)) ∧
      (veScheduled s t.val [.a a.toNat] (some (.a a.toNat)) 1 → exec (.ainc t a imm) s =
        .next (veAfter s t.val { v with pend := v.pend ++
          [⟨v.cyc + 1, .a a.toNat, [], 0, (veA s t.val a).val + imm.toInt⟩] } m))) ∧
    (∀ (n : BitVec 16) (b : BitVec 9),
      (n ≠ 0 → b ≠ 0 → exec (.loop t n b) s = .next (setTile s t.val { getTile s t.val with
        store := m
        ve := { v with cyc := v.cyc + 1, pc := (v.pc + 1) % 512,
                       loops := ⟨(v.pc + 1) % 512, (v.pc + b.toNat) % 512, n.toNat⟩ :: v.loops } })) ∧
      (n = 0 → exec (.loop t n b) s = .next (setTile s t.val { getTile s t.val with
        store := m
        ve := { v with cyc := v.cyc + 1, pc := (veAdvance (v.pc + b.toNat) v.loops).1,
                       loops := (veAdvance (v.pc + b.toNat) v.loops).2 } }))) ∧
    (∀ d iter sb x q, (getTile s t.val).ve.running = some (d, iter) → findDesc s d = some (sb, x, q) → q.going = true →
      ∃ u, exec (.veEnd t) s = .next u ∧ (getTile u t.val).ve.running = none ∧ (getTile u t.val).ve.pend = [] ∧
        (getTile u t.val).units = (getTile s t.val).units.filter (fun w => (((getTile s t.val).units.find? fun w =>
          w.work == .invocation && w.issued).map (·.no)) != some w.no) ∧
        (∃ sb' q', findDesc u d = some (sb', x, q') ∧ q'.summary.flags = q.summary.flags ||| v.flags ∧ q'.summary.evt = q.summary.evt) ∧
        u.regs = s.regs ∧ u.mem = s.mem ∧ u.handles = s.handles)

/-- A loop body is left after COUNT passes (R117): at its last address the program counter goes back while passes are
left, and goes on when they are done. -/
def Sys2Proof.Claims.VeLoopBackEdges : Prop :=
  ∀ (p : Nat) (l : VeLoop) (ls : List VeLoop),
    (p = l.last → 1 < l.left → veAdvance p (l :: ls) = (l.first, { l with left := l.left - 1 } :: ls)) ∧
    (p = l.last → l.left ≤ 1 → veAdvance p (l :: ls) = veAdvance p ls) ∧
    (p ≠ l.last → veAdvance p (l :: ls) = ((p + 1) % 512, l :: ls)) ∧
    veAdvance p [] = ((p + 1) % 512, [])

/-- CVT after 4 cycles converts each lane from format FROM to format TO, packed and unpacked in the memory order of R47;
CVTS after 4 takes the E8M0 byte of VB; SCALE after 3 writes choose_scale of R82 with bits [31:8] zero (R115). -/
def Obligations.VeConversions : Prop :=
  ∀ (s : State) (t : TileIx) (vd va vb : BitVec 6) (dst : BitVec 4), veRuns s t.val →
    (∀ (src : BitVec 4) (inf : Bool), 1 ≤ src.toNat → src.toNat ≤ 10 → 1 ≤ dst.toNat → dst.toNat ≤ 10 → dst ≠ 2 →
      veScheduled s t.val [.v va.toNat] (some (.v vd.toNat)) 4 →
      exec (.cvt t vd va src dst inf) s =
        let r := (laneSource src.toNat (veV s t.val va)).map fun x => convert dst.toNat inf (decodeNum src.toNat x)
        .next (veWrites s t.val 4 vd.toNat (laneResult dst.toNat (r.map (·.1))) (r.foldl (fun x y => x ||| y.2) 0))) ∧
    (5 ≤ dst.toNat → dst.toNat ≤ 9 →
      (veScheduled s t.val [.v va.toNat, .v vb.toNat] (some (.v vd.toNat)) 4 →
        exec (.cvts t vd va vb dst) s =
          let r := List.zipWith (fun (a b : Word) => convertScaled dst.toNat (b.toNat % 256) (num32 a))
            (veV s t.val va) (veV s t.val vb)
          .next (veWrites s t.val 4 vd.toNat (laneResult dst.toNat (r.map (·.1))) (r.foldl (fun x y => x ||| y.2) 0))) ∧
      (veScheduled s t.val [.v va.toNat] (some (.v vd.toNat)) 3 →
        exec (.scale t vd va dst) s = .next (veWrites s t.val 3 vd.toNat
          ((veV s t.val va).map fun x => BitVec.ofNat 32 (chooseScale x.toNat dst.toNat)) 0))) ∧
    (∀ (src : BitVec 4) (inf : Bool), src.toNat ≤ 10 → dst.toNat ≤ 10 → dst ≠ 2 → (src = 0 ∨ dst = 0) →
      veScheduled s t.val [.v va.toNat] (some (.v vd.toNat)) 4 → ∃ lanes flags,
        exec (.cvt t vd va src dst inf) s = .next (veWrites s t.val 4 vd.toNat lanes flags)) ∧
    (dst = 2 → ∀ src inf, exec (.cvt t vd va src dst inf) s = .next s)

/-- VE_INVOCATION begins iteration `iter` of a running VEC descriptor from the unit that the sequencer has built for it on
the tile, once its operands are present and 4 cycles after the invocation before (R108, R109): the address registers at the
operands' areas with their extents, V and M registers zero, the first instruction next, and the micro-program resident;
nothing outside the tile changes. -/
def Sys2Proof.Claims.VeInvocationBegins : Prop :=
  ∀ (s : State) (t : TileIx) (d : DescRef) (iter : Nat) (sb : Sub) (x : BitVec 1024) (r : Run) (w : BuiltUnit),
    let y := getTile s t.val
    findDesc s d = some (sb, x, r) → r.phase = .running → r.code = 0 → r.preempted = false →
    (y.units.find? fun v => v.owner == d && v.unit == iter) = some w → w.work = .invocation → w.issued = false →
    (∀ f ∈ w.fills, f.full = true) → y.ve.running = none → y.ve.next ≤ s.cycle →
    ∃ u, exec (.veInvocation t d iter) s = .next u ∧
      u = setTile s t.val { y with ve := (getTile u t.val).ve,
                                   units := y.units.map fun v => if v.no = w.no then { v with issued := true } else v } ∧
      (let v := (getTile u t.val).ve
       v.running = some (d, iter) ∧ v.pc = 0 ∧ v.cyc = 0 ∧ v.flags = 0 ∧ v.pend = [] ∧ v.stores = [] ∧ v.loops = [] ∧
       (∀ i, v.getV i = List.replicate 64 0) ∧ (∀ i, v.getM i = 0) ∧
       (∀ k, k < 3 → ∀ f, (w.fills.find? fun f => f.slot == k) = some f →
         v.getA k = ⟨f.ring.base, f.ring.base, f.ring.base + vecExtent x k⟩) ∧
       v.checking = getb s (tileR t.val 0x80) 31 ∧
       ((vecWords s sb x).length ≤ 512 → v.resident.head? = some (vecWords s sb x)))

end
section
open Sys2Proof Sys2Proof.Machine Sys2Proof.Claims

/-- The hazard checker (R120) before an issue, shown on FADD: a source whose write is still to take effect is KIND 0b01,
and a write that would take effect together with an earlier one to the same register is KIND 0b11. The instruction is not
executed, the invocation stops, TILE_VE_CHK_STATUS takes TRAPPED, KIND, PC, REG and EARLY if it holds no trap, and the
descriptor's attempt fails with VE_HAZARD; with the checker off the same instruction completes with the previous value
(R110). -/
def Sys2Proof.Claims.VeHazardChecker : Prop :=
  ∀ (s : State) (t : TileIx) (vd va vb : BitVec 6) (d : DescRef) (iter : Nat) (p : VePend),
    (getTile s t.val).ve.running = some (d, iter) →
    let v := (veNow s t.val).1
    let trapped := fun (u : State) (kind reg early : Nat) =>
      (getTile u t.val).ve = { v with running := none, failure := 0x0202, next := (getTile u t.val).ve.next } ∧ (getTile u t.val).store = (veNow s t.val).2 ∧
      getReg u (tileR t.val 0x84) = BitVec.ofNat 32 (2 ^ 31 + kind * 2 ^ 29 + v.pc * 2 ^ 20 + reg * 2 ^ 14 + early * 2 ^ 9) ∧
      (∀ o, o ≠ tileR t.val 0x84 → getReg u o = getReg s o) ∧ u.mem = s.mem ∧ u.handles = s.handles ∧
      ∀ sb x r, findDesc s d = some (sb, x, r) → r.going = true → r.code = 0 →
        ∃ sb' r', findDesc u d = some (sb', x, r') ∧ r'.code = 0x0202 ∧ r'.phase = r.phase
    ((getTile s t.val).ve.checking = true → v.pend = [p] → v.stores = [] → getb s (tileR t.val 0x84) 31 = false →
      (p.dest = .v va.toNat → ∃ u, exec (.fadd t vd va vb) s = .next u ∧ trapped u 1 va.toNat (p.due - v.cyc)) ∧
      (p.dest = .v vd.toNat → va ≠ vd → vb ≠ vd → p.due = v.cyc + 4 →
        ∃ u, exec (.fadd t vd va vb) s = .next u ∧ trapped u 3 vd.toNat 0)) ∧
    ((getTile s t.val).ve.checking = false → exec (.fadd t vd va vb) s = .next (veLane s t.val 4 laneAdd vd va vb))

end
namespace Sys2Proof.Claims
open Sys2Proof Sys2Proof.Machine

/-- The present core cycle is no throttle stall of a tile (R464): loop tiles are never throttled. -/
def unthrottled (s : State) (t : Nat) : Prop := getf s 0x800010 31 28 ≤ s.cycle % 16 ∨ getf s (tileR t 0) 31 29 = 1

end Sys2Proof.Claims

section
open Sys2Proof Sys2Proof.Machine Sys2Proof.Claims

/-! The array. -/

/-- PASS_ISSUE at a pass boundary with no pre-emption asked for (R89, R98, R99, R102, R174): of the passes that the
sequencer has built on the tile, the one whose turn it is joins the array with the bank that the count of issued passes gives
it, and TILE_PASS_LAST and TILE_PASS_ORIGIN show its fields; nothing outside the tile changes. Its descriptor is running, its
output area is free of every area in use and of every ring, and the bytes of its first k-step are present; the threads after
the one last served come before the others. With no such pass, inside a pass, or with a pre-emption asked for, no pass
issues. -/
def Sys2Proof.Claims.PassIssue : Prop :=
  ∀ (s : State) (t : TileIx),
    let y := getTile s t.val
    (∀ (w : BuiltUnit) (p : Pass), nextPass s y = some w → w.pass = some p → y.preempt = false →
      (∀ q ∈ y.passes, q.tLast.isSome = true) →
      ∃ u, exec (.passIssue t) s = .next u ∧
        (getTile u t.val).passes = y.passes ++ [{ p with bank := y.issuedPasses % 2 }] ∧
        (getTile u t.val).issuedPasses = y.issuedPasses + 1 ∧ (getTile u t.val).lastThread = some w.owner ∧
        (getTile u t.val).units = y.units.map (fun v => if v.no = w.no then { v with issued := true } else v) ∧
        getReg u (tileR t.val 0x48) = p.fields.kOrigin ∧
        fld (get64 u (tileR t.val 0x40)) 63 61 = p.fields.semiring.toNat ∧
        fld (get64 u (tileR t.val 0x40)) 60 57 = p.fields.aFmt.toNat ∧
        fld (get64 u (tileR t.val 0x40)) 56 53 = p.fields.bFmt.toNat ∧
        u = { s with regs := u.regs, tiles := u.tiles } ∧
        (∀ w, w ≠ t.val → getTile u w = getTile s w) ∧
        ∀ o, o ≠ tileR t.val 0x40 → o ≠ tileR t.val 0x44 → o ≠ tileR t.val 0x48 → getReg u o = getReg s o) ∧
    (∀ w, nextPass s y = some w → w ∈ y.units ∧ w.issued = false ∧ (∃ p, w.pass = some p) ∧
      (∃ sb x r, findDesc s w.owner = some (sb, x, r) ∧ r.phase = .running ∧ r.code = 0 ∧ r.preempted = false) ∧
      (∀ o ∈ w.outs, ∀ a ∈ heldAreas y ++ y.units.flatMap (fun v => v.fills.flatMap Fill.spans),
        rangesMeet o.2 a = false) ∧ ∀ f ∈ w.fills, f.present 0 = true) ∧
    (∀ l d l', y.threads.map (·.1) = l ++ d :: l' → d ∉ l → y.lastThread = some d →
      (∃ e ∈ l', ∃ v ∈ y.units, v.owner = e ∧ passReady s y v = true) →
      ∀ w, nextPass s y = some w → w.owner ∈ l') ∧
    ((nextPass s y = none ∨ y.preempt = true ∨ (∃ q ∈ y.passes, q.tLast = none)) → exec (.passIssue t) s = .next s)

/-- A cycle of the array (R99 to R101, R103, R174): a k-step enters only when its ring bytes are present; without them the
cycle is an operand stall counted in TILE_STALL_OPERAND, and every pass whose last k-step has entered moves one cycle later.
A first k-step held by the pass two before it counts in TILE_STALL_DRAIN. Words of the step's reads that were corrected count
in TILE_STORE_ECC, and one that was not delivered fails the descriptor with MEM_UNCORRECTABLE. Under the throttle nothing
enters; that cycle, as it passes, counts in TILE_STALL_THROTTLE of a tile that holds a pass and moves its passes and its
drain by one (R464). Nothing but the tile and its counters changes. -/
def Sys2Proof.Claims.KStepEntry : Prop :=
  ∀ (s : State) (t : TileIx) (q : Pass),
    let y := getTile s t.val
    (y.passes.find? fun q => q.tLast.isNone) = some q → y.arrayNext ≤ s.cycle →
    (s.cycle % 16 < getf s 0x800010 31 28 → getf s (tileR t.val 0) 31 29 ≠ 1 →
      (∀ n b, exec (.kStepEntry t n b) s = .next s) ∧
      (s.pending = [] → s.mgmt.tileResetJob = none → resting s → (s.tiles.map (·.1)).Nodup →
        ∃ u, step s = .next u ∧
          get64 u (tileR t.val 0x68) = (get64 s (tileR t.val 0x68) + 1) % 2 ^ 64 ∧
          (getTile u t.val).store = y.store ∧ (getTile u t.val).bankBits = y.bankBits ∧
          (getTile u t.val).arrayNext = s.cycle + 1 ∧
          ∀ p ∈ y.passes, p.drainStart.isSome = true →
            { p with drainShift := p.drainShift + 1 } ∈ (getTile u t.val).passes)) ∧
    (unthrottled s t.val → q.t0 = none → passHeld s y q = true → ∀ n b,
      ∃ u, exec (.kStepEntry t n b) s = .next u ∧
        get64 u (tileR t.val 0x60) = (get64 s (tileR t.val 0x60) + 1) % 2 ^ 64 ∧
        (getTile u t.val).passes = y.passes ∧ u = { s with regs := u.regs, tiles := u.tiles }) ∧
    (unthrottled s t.val → q.t0.isSome = true →
      (stepPresent y q = false → ∀ n b,
        ∃ u, exec (.kStepEntry t n b) s = .next u ∧
          get64 u (tileR t.val 0x58) = (get64 s (tileR t.val 0x58) + 1) % 2 ^ 64 ∧
          (getTile u t.val).bankBits = y.bankBits ∧
          (∀ p ∈ y.passes, p.tLast.isSome = true → p.drainStart = none →
            { p with shift := p.shift + 1 } ∈ (getTile u t.val).passes) ∧
          u = { s with regs := u.regs, tiles := u.tiles }) ∧
      (stepPresent y q = true → q.fields.kSteps ≠ 0 →
        (∃ u, exec (.kStepEntry t 0 none) s = .next u ∧
          (getTile u t.val).arrayNext = s.cycle + (if q.fields.aFmt = 0 then 4 else 1) ∧
          (getTile u t.val).store = y.store ∧
          (∃ q' ∈ (getTile u t.val).passes, q'.fields = q.fields ∧ q'.entered = q.entered + 1 ∧
            (q'.tLast = some s.cycle ↔ q.fields.kSteps ≤ q.entered + 1)) ∧
          u = { s with tiles := u.tiles } ∧ ∀ w, w ≠ t.val → getTile u w = getTile s w) ∧
        (∀ n, ∃ u, exec (.kStepEntry t n none) s = .next u ∧
          getf u (tileR t.val 0x90) 31 0 = min (getf s (tileR t.val 0x90) 31 0 + n) (2 ^ 32 - 1) ∧
          u = { s with regs := u.regs, tiles := u.tiles }) ∧
        (∀ b sb x r, findDesc s q.owner = some (sb, x, r) → r.going = true → r.code = 0 →
          ∃ u sb' r', exec (.kStepEntry t 0 (some b)) s = .next u ∧ findDesc u q.owner = some (sb', x, r') ∧
            r'.code = 0x0C03 ∧ u.mem = s.mem ∧ u.regs = s.regs)))

/-- A drain starts no earlier than t_acc + 1 and the end of the drain before it, one at a time in pass order and not in a
throttle stall, and lasts its D cycles, none where the pass writes nothing (R99); its end writes TILE_SUMMARY_LAST, counts
the pass and its exceptions in TILE_EXC_COUNT_ (which stop at their largest value) and sets the unmasked bits of
TILE_EXC_IRQ_STATUS (R76, R122), and its output area stands to be read out while its descriptor goes on (R174). -/
def Sys2Proof.Claims.PassDrains : Prop :=
  ∀ (s : State) (t : TileIx) (q : Pass) (rest : List Pass), (getTile s t.val).passes = q :: rest →
    (∀ e, q.tLast = some e → q.drainStart = none →
      (e + 62 + passLatency q.fields + 1 + q.shift ≤ s.cycle → (getTile s t.val).lastDrainEnd ≤ s.cycle →
        unthrottled s t.val → exec (.passDrainStart t) s =
          .next (setTile s t.val { getTile s t.val with passes := { q with drainStart := some s.cycle } :: rest })) ∧
      ((s.cycle < e + 62 + passLatency q.fields + 1 + q.shift ∨ s.cycle < (getTile s t.val).lastDrainEnd ∨
          ¬ unthrottled s t.val) →
        exec (.passDrainStart t) s = .next s)) ∧
    (∀ b, q.drainStart = some b →
      (s.cycle + 1 < b + drainCycles q.fields + q.drainShift → exec (.passDrainEnd t) s = .next s) ∧
      (b + drainCycles q.fields + q.drainShift ≤ s.cycle + 1 → drainCycles q.fields = 0 ∨ unthrottled s t.val →
        ∃ u, exec (.passDrainEnd t) s = .next u ∧
          let sm := (drainPass (getTile s t.val) q).summary
          (getTile u t.val).passes = rest ∧
          (getTile u t.val).lastDrainEnd = b + drainCycles q.fields + q.drainShift ∧
          (∀ sb x r, findDesc s q.owner = some (sb, x, r) → r.going = true →
            (getTile u t.val).outputs = (getTile s t.val).outputs ++
              (passOuts q.fields).map fun o => ⟨q.owner, q.no, o.1, o.2.1, o.2.2, 0, []⟩) ∧
          get64 u (tileR t.val 8) = summaryWord sm % 2 ^ 64 ∧
          get64 u (tileR t.val 0x50) = (get64 s (tileR t.val 0x50) + 1) % 2 ^ 64 ∧
          (∀ i, i < 6 → getReg u (tileR t.val (0x10 + 4 * i)) =
            if sm.flags.testBit i ∧ getReg s (tileR t.val (0x10 + 4 * i)) ≠ 0xFFFFFFFF
              then getReg s (tileR t.val (0x10 + 4 * i)) + 1 else getReg s (tileR t.val (0x10 + 4 * i))) ∧
          (∀ i, i < 6 → (getReg u (tileR t.val 0x30)).getLsbD i =
            ((getReg s (tileR t.val 0x30)).getLsbD i ||
              (sm.flags.testBit i && (getReg s (tileR t.val 0x2C)).getLsbD i))) ∧
          u.mem = s.mem ∧ u.alms = s.alms ∧ ∀ w, w ≠ t.val → getTile u w = getTile s w))

/-- TILE_EXC_CLEAR sets each named exception counter to 0, or to 1 when a drain of the same cycle raised it (R122). -/
def Sys2Proof.Claims.TileExcClear : Prop :=
  ∀ (s : State) (t : TileIx) (v : Word), ∃ u, exec (.tileExcClear t v) s = .next u ∧
    (∀ i, i < 6 → getReg u (tileR t.val (0x10 + 4 * i)) =
      if v.getLsbD i then (if (flagsNow s t.val).testBit i then 1 else 0) else getReg s (tileR t.val (0x10 + 4 * i))) ∧
    onlyRegs s u (fun o => ∃ i, i < 6 ∧ o = tileR t.val (0x10 + 4 * i))

/-- Pre-emption (R102, R225, R227): after a request every tile of the descriptor issues no further pass, and the
descriptor's state is saved with it; on resumption the tiles serve again, and the stall timer goes on from there.
Almanac 0 is never pre-empted. -/
def Sys2Proof.Claims.PreemptionSavesAndRestores : Prop :=
  ∀ (s : State) (t : TileIx) (d : DescRef) (sb : Sub) (x : BitVec 1024) (r : Run), findDesc s d = some (sb, x, r) →
    (d.alm = 0 → exec (.preemptionRequest t d) s = .next s) ∧
    (d.alm ≠ 0 → r.phase = .running → r.preempted = false → t.val ∈ r.tiles →
      ∃ u, exec (.preemptionRequest t d) s = .next u ∧ (∀ w ∈ r.tiles, (getTile u w).preempt = true) ∧
        (∃ sb' r', findDesc u d = some (sb', x, r') ∧ r' =
          { r with preempted := true, stallElapsed := r.stallElapsed + (s.cycle - r.stallFrom) }) ∧
        u = { s with tiles := u.tiles, alms := u.alms } ∧ ∀ w, w ∉ r.tiles → getTile u w = getTile s w) ∧
    (r.preempted = true → t.val ∈ r.tiles → r.barReleased = false → r.phase = .running →
      ∃ u, exec (.preemptionResume t d) s = .next u ∧ (∀ w ∈ r.tiles, (getTile u w).preempt = false) ∧ u.mem = s.mem ∧
        u.regs = s.regs ∧ u.handles = s.handles ∧
        ∃ sb' r', findDesc u d = some (sb', x, r') ∧ r'.preempted = false ∧ r'.stallFrom = s.cycle ∧
          r'.stallElapsed = r.stallElapsed ∧ r'.wait0 = r.wait0 ∧ r'.wait1 = r.wait1 ∧ r'.barPhase = r.barPhase)

end
namespace Sys2Proof.Claims
open Sys2Proof Sys2Proof.Machine

/-- A running descriptor whose body is due: started, not failed, not pre-empted, with no request of its own at a plot's
port. -/
def bodyDue (s : State) (d : DescRef) (sb : Sub) (x : BitVec 1024) (r : Run) : Prop :=
  findDesc s d = some (sb, x, r) ∧ r.phase = .running ∧ r.code = 0 ∧ r.preempted = false ∧ portHolds s d = false

/-- The work of a body may be done: every byte it touches can be reached, none lies in an uncorrectable granule, and the
body itself meets no failure. -/
def workGood (s : State) (w : Work) : Prop := accessFailure s w.touched = none ∧ badAccess s w = none ∧ w.failure = none

/-- The body is done: its writes stand in memory, the descriptor has computed with its summary and still holds no code, and
no handle, group, flag, count register or other almanac's work has changed. -/
def bodyDone (s t : State) (d : DescRef) (x : BitVec 1024) (w : Work) : Prop :=
  t.mem = (doWrites s w.writes).mem ∧
  (∃ sb' r', findDesc t d = some (sb', x, r') ∧ r'.phase = .computed ∧ r'.summary = w.summary ∧ r'.code = 0) ∧
  t.handles = s.handles ∧ t.groupTiles = s.groupTiles ∧ t.pending = s.pending ∧
  (∀ a, a ≠ d.alm.toNat → getAlm t a = getAlm s a)

/-- Every write of the work goes to a memory buffer (no window handle, R273). -/
def memoryOnly (s : State) (w : Work) : Prop :=
  ∀ e ∈ w.writes, ∀ h, findHandle s e.1.handle = some h → h.kind = 0

/-- The descriptor is gone with its submission, or has finished with `code`. -/
def finishedWith (t : State) (d : DescRef) (code : Nat) : Prop :=
  ∀ sb x r, findDesc t d = some (sb, x, r) → r.phase = .finished ∧ r.code = code

end Sys2Proof.Claims

section
open Sys2Proof Sys2Proof.Machine Sys2Proof.Claims

/-! Almanacs. -/

/-- ALM_DOORBELL (R124, R128, R132): a TAIL inside the ring is taken; one beyond it, or any on a disabled almanac, is
ignored with DOORBELL_INVALID; a function that does not own the almanac changes nothing. -/
def Sys2Proof.Claims.AlmDoorbell : Prop :=
  ∀ (s : State) (fn : Fn) (a : AlmIx) (tail : Word),
    let head := getReg s (almR a.toNat 0x08)
    let old := getReg s (almR a.toNat 0x0C)
    let slots := 2 ^ getf s (almR a.toNat 0x10) 20 16
    (fn ≠ 0 → almOwner s a.toNat ≠ fn.val → exec (.almDoorbell fn a tail) s = .next s) ∧
    ((fn = 0 ∨ almOwner s a.toNat = fn.val) →
      (getb s (almR a.toNat 0x10) 31 = true → (tail - old).toNat ≤ slots - (old - head).toNat → tail ≠ old →
        exec (.almDoorbell fn a tail) s = .next (setReg s (almR a.toNat 0x0C) tail)) ∧
      ((getb s (almR a.toNat 0x10) 31 = false ∨ (slots - (old - head).toNat < (tail - old).toNat)) →
        ∃ t, exec (.almDoorbell fn a tail) s = .next t ∧ getf t (almR a.toNat 0x1C) 15 0 = 0x0325 ∧
          getb t (almR a.toNat 0x20) 3 = true ∧ getReg t (almR a.toNat 0x0C) = old ∧
          onlyRegsAndMessages s t (fun o => o = almR a.toNat 0x1C ∨ o = almR a.toNat 0x20)))

/-- ALM_CFG.ENABLE (R129, R131): set, it checks that the ring buffer is a live handle open to the owner and large enough,
and starts intake; otherwise ENABLE stays 0 with the refusal in LAST_CODE. Cleared, it stops intake and changes nothing
already taken. -/
def Sys2Proof.Claims.AlmEnable : Prop :=
  ∀ (s : State) (a : AlmIx) (cfg : Word), a ≠ 0 → 4 ≤ fld cfg.toNat 20 16 → fld cfg.toNat 20 16 ≤ 16 →
    fld cfg.toNat 12 8 ≤ 16 →
    (getb s (almR a.toNat 0x10) 31 = false → cfg.getLsbD 31 = true →
      (∀ h, openHandle s (fld cfg.toNat 12 8) (getReg s (almR a.toNat 0x14)).toNat = some h →
        128 * 2 ^ fld cfg.toNat 20 16 ≤ h.size →
        ∃ t, exec (.almEnable 0 a cfg) s = .next t ∧ getb t (almR a.toNat 0x10) 31 = true ∧
          getf t (almR a.toNat 0x10) 20 16 = fld cfg.toNat 20 16 ∧ almOwner t a.toNat = fld cfg.toNat 12 8 ∧
          getb t (almR a.toNat 0x10) 30 = cfg.getLsbD 30 ∧ onlyRegs s t (· = almR a.toNat 0x10)) ∧
      ((∀ h, openHandle s (fld cfg.toNat 12 8) (getReg s (almR a.toNat 0x14)).toNat = some h →
          h.size < 128 * 2 ^ fld cfg.toNat 20 16) →
        ∃ t, exec (.almEnable 0 a cfg) s = .next t ∧ getb t (almR a.toNat 0x10) 31 = false ∧
          getf t (almR a.toNat 0x1C) 15 0 = 0x0303 ∧
          onlyRegs s t (fun o => o = almR a.toNat 0x10 ∨ o = almR a.toNat 0x1C))) ∧
    (cfg.getLsbD 31 = false → ∃ t, exec (.almEnable 0 a cfg) s = .next t ∧ getb t (almR a.toNat 0x10) 31 = false ∧
      (getAlm t a.toNat).subs = (getAlm s a.toNat).subs ∧ (getAlm t a.toNat).next = (getAlm s a.toNat).next ∧
      (∀ o, o ≠ almR a.toNat 0x10 → getReg t o = getReg s o) ∧ t.mem = s.mem ∧ t.tiles = s.tiles)

/-- ALM_CTRL.RESET of a disabled idle almanac zeroes HEAD, TAIL and the sixteen count registers (R130); ABORT completes
every descriptor that has not started with CANCELLED and adds to no flag (R229); a host write of a count register is what
later starts read, unless a COUNT committed to it in the same cycle (R145). -/
def Sys2Proof.Claims.AlmControlAndCounts : Prop :=
  ∀ (s : State) (fn : Fn) (a : AlmIx), (fn = 0 ∨ almOwner s a.toNat = fn.val) →
    (getb s (almR a.toNat 0x10) 31 = false → ((getAlm s a.toNat).subs.any fun sb => sb.runs.any Run.going) = false →
      ∃ t, exec (.almReset fn a) s = .next t ∧ getReg t (almR a.toNat 0x08) = 0 ∧ getReg t (almR a.toNat 0x0C) = 0 ∧
        (∀ n, n < 16 → getReg t (almR a.toNat (0x40 + 4 * n)) = 0) ∧ (getAlm t a.toNat).subs = [] ∧
        (getAlm t a.toNat).next = 0 ∧ (getAlm t a.toNat).halted = s.seamFailed ∧
        t = { s with regs := t.regs, alms := t.alms } ∧ (∀ b, b ≠ a.toNat → getAlm t b = getAlm s b) ∧
        ∀ o, o ≠ almR a.toNat 0x08 → o ≠ almR a.toNat 0x0C → (∀ n, n < 16 → o ≠ almR a.toNat (0x40 + 4 * n)) →
          getReg t o = getReg s o) ∧
    (∃ t, exec (.almAbort fn a) s = .next t ∧
      (∀ d sb x r, d.alm = a → findDesc s d = some (sb, x, r) → r.phase = .waiting →
        ∀ sb' x' r', findDesc t d = some (sb', x', r') → r'.phase = .finished ∧ r'.code = 0x0324) ∧
      (∀ f, f < 65536 → getReg t (flagR f) = getReg s (flagR f)) ∧ t.handles = s.handles ∧
      (∀ b, b ≠ a.toNat → getAlm t b = getAlm s b)) ∧
    (∀ (n : BitVec 4) (v : Word),
      ((n.toNat, s.cycle) ∉ (getAlm s a.toNat).countCommits →
        exec (.almCountWrite fn a n v) s = .next (setReg s (almR a.toNat (0x40 + 4 * n.toNat)) v)) ∧
      ((n.toNat, s.cycle) ∈ (getAlm s a.toNat).countCommits → exec (.almCountWrite fn a n v) s = .next s))

/-- SUBMISSION_READ (R125, R126, R133, R158): with nothing between NEXT and TAIL, or while halted, nothing is read. NEXT moves
past a whole submission before TAIL; a refused one is recorded in ALM_REFUSAL, LAST_CODE and
REFUSED and touches no flag and no tile; one larger than the ring halts the almanac. -/
def Obligations.SubmissionRead : Prop :=
  ∀ (s : State) (a : AlmIx), getb s (almR a.toNat 0x10) 31 = true → getf s 0x600008 63 61 ≤ 2 →
    let al := getAlm s a.toNat
    let avail := ((getReg s (almR a.toNat 0x0C)).toNat + 2 ^ 32 - al.next) % 2 ^ 32
    let h := ringSlot s a.toNat al.next
    let n := 1 + ceilDiv (hViews h) 4 + hDescs h
    ((avail = 0 ∨ al.halted = true) → exec (.submissionRead a) s = .next s) ∧
    (al.halted = false → avail ≠ 0 → 2 ^ getf s (almR a.toNat 0x10) 20 16 < n →
      ∃ t, exec (.submissionRead a) s = .next t ∧ (getAlm t a.toNat).halted = true ∧
        getf t (almR a.toNat 0x1C) 15 0 = 0x0311 ∧ getb t (almR a.toNat 0x20) 2 = true ∧ t.mem = s.mem) ∧
    (al.halted = false → n ≤ 2 ^ getf s (almR a.toNat 0x10) 20 16 → n ≤ avail →
      (validate s (readCand s a.toNat al.next) = none →
        ∃ t, exec (.submissionRead a) s = .next t ∧ (getAlm t a.toNat).next = (al.next + n) % 2 ^ 32 ∧
          t.handles = s.handles ∧ ∀ b, b ≠ a.toNat → getAlm t b = getAlm s b) ∧
      (∀ q, validate s (readCand s a.toNat al.next) = some q →
        ∃ t, exec (.submissionRead a) s = .next t ∧ (getAlm t a.toNat).next = (al.next + n) % 2 ^ 32 ∧
          getReg t (almR a.toNat 0x24) = BitVec.ofNat 32 (q.idx % 2 ^ 16 * 2 ^ 16 + q.code) ∧
          getf t (almR a.toNat 0x1C) 15 0 = q.code % 2 ^ 16 ∧ getb t (almR a.toNat 0x20) 1 = true ∧
          (∀ f, f < 65536 → getReg t (flagR f) = getReg s (flagR f)) ∧ t.tiles = s.tiles)) ∧
    (al.halted = false → n ≤ 2 ^ getf s (almR a.toNat 0x10) 20 16 → avail < n → exec (.submissionRead a) s = .next s)

/-! Starts, placement and ends. -/

/-- DESCRIPTOR_START (R140 to R145, R160, R170, R185, R187, R223): a waiting descriptor that is ready, whose wakes have come
and that a tile has a thread and contexts for, starts with its counts read from the registers, on that tile or on the tiles
that its units have been placed on ahead; one that is not ready does not start; one whose slot has changed in the ring fails
with the code for it, and one whose count register exceeds MAX with its own. -/
def Sys2Proof.Claims.DescriptorStart : Prop :=
  ∀ (s : State) (d : DescRef) (t : TileIx) (sb : Sub) (x : BitVec 1024) (r : Run), findDesc s d = some (sb, x, r) →
    (r.phase ≠ .waiting ∨ r.ready = none ∨ (∃ n, n < dWaits x ∧ n ∉ r.woke) →
      exec (.descriptorStart d t none) s = .next s) ∧
    (r.phase = .waiting → r.ready.isSome = true → (∀ n, n < dWaits x → n ∈ r.woke) → dTransit x = 0 →
      r.code = 0 → twinHolds s d.alm.toNat = false → swapChoice s sb x = [] →
      (takesThread x = false ∨ t.val ∈ r.tiles ∨
        (r.tiles = [] ∧ fieldOnly s sb x d.alm.toNat = false ∧ t.val ∈ preferredTiles s sb x [])) →
      (ringSlot s d.alm.toNat (descSlot sb d.idx.toNat) ≠ x →
        ∃ u sb' r', exec (.descriptorStart d t none) s = .next u ∧ findDesc u d = some (sb', x, r') ∧ r'.code = 0x0323 ∧
          u = { s with alms := u.alms }) ∧
      (ringSlot s d.alm.toNat (descSlot sb d.idx.toNat) = x →
        let reg := fun n => (getReg s (almR d.alm.toNat (0x40 + 4 * n))).toNat
        (countsExceed x reg = true →
          ∃ u sb' r', exec (.descriptorStart d t none) s = .next u ∧ findDesc u d = some (sb', x, r') ∧
            r'.code = 0x0321 ∧ u = { s with alms := u.alms }) ∧
        (countsExceed x reg = false →
          ∃ u sb' r', exec (.descriptorStart d t none) s = .next u ∧ findDesc u d = some (sb', x, r') ∧
            r'.phase = .running ∧ r'.counts = loopCounts x reg ∧ r'.startCycle = some s.cycle ∧
            (takesThread x = true → r.tiles = [] →
              r'.tiles = [t.val] ∧ (d, contextNeed sb x) ∈ (getTile u t.val).threads) ∧
            (r.tiles ≠ [] → r'.tiles = r.tiles ∧ r'.unitsPlaced = r.unitsPlaced ∧ u.tiles = s.tiles) ∧
            u = { s with alms := u.alms, tiles := u.tiles } ∧ ∀ w, w ≠ t.val → getTile u w = getTile s w)))

/-- UNIT_PLACEMENT (R89, R170, R185, R187, R188) gives a unit to a tile that has the descriptor already, or to another that
the engine prefers with a thread and contexts free while SPREAD allows more: the sequencer builds it there, with the areas
that it chooses; areas that do not fit the working reserve or meet each other place nothing. A unit of an MMA is a pass of the
descriptor's semiring, formats and options, of one k-block, and within one 32 × 32 block. RUN_AHEAD_READ lets the contexts of
a sealed input's slot read ahead on a tile that the waiting descriptor's units are placed on. -/
def Sys2Proof.Claims.PlacementAndRunAhead : Prop :=
  ∀ (s : State) (d : DescRef) (t : TileIx) (sb : Sub) (x : BitVec 1024) (r : Run), findDesc s d = some (sb, x, r) →
    (r.phase = .running → r.code = 0 → unitCounts s sb x r = some r.counts) ∧
    (∀ (unit : Nat) (areas : Areas) (counts : List Nat), unitCounts s sb x r = some counts → takesThread x = true →
      unit < unitCount s sb x counts → (∀ p ∈ r.unitsPlaced, p.1 ≠ unit) →
      let w := buildUnit s (runViews sb x { r with counts := counts }) d x counts unit (getTile s t.val).built areas
      (areasFit s w = false → exec (.unitPlacement d unit t none areas) s = .next s) ∧
      (dFamily x = 1 → ∃ p, w.pass = some p ∧ p.fields.semiring.toNat = fld (dFw x 0) 2 0 ∧
        p.fields.accFmt.toNat = fld (dFw x 0) 6 3 ∧ p.fields.aFmt.toNat = vFmt (slotView (runViews sb x { r with counts := counts }) x 0) ∧
        p.fields.strict = bitOf (dFw x 0) 7 ∧ p.fields.inf = bitOf (dFw x 0) 8 ∧ p.fields.mExt ≤ 32 ∧ p.fields.nExt ≤ 32 ∧
        p.kLen ≤ dFw x 4 ∧ p.fields.outBase = areas.out ∧ p.fields.aRing = areas.a ∧ p.fields.bRing = areas.b) ∧
      (areasFit s w = true → (∀ p, w.pass = some p → passOk p.fields = true) →
        (t.val ∈ r.tiles →
          ∃ u sb' r', exec (.unitPlacement d unit t none areas) s = .next u ∧ findDesc u d = some (sb', x, r') ∧
            r' = { r with unitsPlaced := r.unitsPlaced ++ [(unit, t.val)] } ∧
            (getTile u t.val).units = (getTile s t.val).units ++ [w] ∧ u = { s with alms := u.alms, tiles := u.tiles } ∧
            ∀ v, v ≠ t.val → getTile u v = getTile s v) ∧
        (t.val ∉ r.tiles → r.tiles.length + (fieldsOf s d).length < tileLimit s sb x counts →
          fieldOnly s sb x d.alm.toNat = false → t.val ∈ preferredTiles s sb x r.tiles →
          ∃ u sb' r', exec (.unitPlacement d unit t none areas) s = .next u ∧ findDesc u d = some (sb', x, r') ∧
            r'.tiles = r.tiles ++ [t.val] ∧ r'.unitsPlaced = r.unitsPlaced ++ [(unit, t.val)] ∧
            (d, contextNeed sb x) ∈ (getTile u t.val).threads ∧
            (getTile u t.val).units = (getTile s t.val).units ++ [w] ∧ u = { s with alms := u.alms, tiles := u.tiles }) ∧
        (t.val ∉ r.tiles → tileLimit s sb x counts ≤ r.tiles.length + (fieldsOf s d).length →
          exec (.unitPlacement d unit t none areas) s = .next s))) ∧
    (∀ (slot : BitVec 2) (v : Use) (h : Handle), r.phase = .waiting →
      v ∈ usesOf x (maxCounts x) → v.role.isOut = false → v.slot = slot.toNat →
      vHandle (viewAt sb v.view) ∈ (sb.views.filter vSealed).map vHandle →
      findHandle s (vHandle (viewAt sb v.view)) = some h → h.kind = 0 →
      (t.val ∈ r.tiles → (slot.toNat, t.val) ∉ r.runAhead →
        ∃ u sb' r', exec (.runAheadRead d slot t) s = .next u ∧ findDesc u d = some (sb', x, r') ∧
          r'.runAhead = r.runAhead ++ [(slot.toNat, t.val)] ∧ u = { s with alms := u.alms }) ∧
      (t.val ∉ r.tiles → exec (.runAheadRead d slot t) s = .next s))

/-- DESCRIPTOR_COMMIT (R160) outside twin mode: the count register takes a COUNT's value, a pin that a MOVE TIER set or
removed takes effect (R194), a signal adds to its flag, and the descriptor finishes with OK. DESCRIPTOR_FAIL commits nothing and signals nothing, and the descriptor finishes with the
code of its failure. -/
def Sys2Proof.Claims.DescriptorCommitAndFail : Prop :=
  ∀ (s : State) (d : DescRef) (sb : Sub) (x : BitVec 1024) (r : Run), findDesc s d = some (sb, x, r) →
    (r.phase = .computed → r.code = 0 → r.preempted = false → isTwinned s d.alm.toNat = false →
      ∃ t, exec (.descriptorCommit d) s = .next t ∧ finishedWith t d 0 ∧
        (dFamily x = 6 → ∀ v, r.countValue = some v →
          getReg t (almR d.alm.toNat (0x40 + 4 * fld (dFw x 0) 3 0)) = BitVec.ofNat 32 v) ∧
        (dSignals x = 1 → flagVal t (dSigFlag x 0) = (flagVal s (dSigFlag x 0) + dSigAdd x 0) % 2 ^ 32) ∧
        (∀ f, f < 65536 → (∀ n, n < dSignals x → f ≠ dSigFlag x n) → flagVal t f = flagVal s f) ∧
        (r.pinNew = none → t.handles = s.handles) ∧
        (∀ id p h, r.pinNew = some (id, p) → findHandle s id = some h → ∃ h', findHandle t id = some h' ∧ h'.pin = p) ∧
        t.groupTiles = s.groupTiles ∧ t.pending = s.pending) ∧
    ((r.phase = .running ∨ r.phase = .computed) → r.code ≠ 0 →
      ∃ t, exec (.descriptorFail d) s = .next t ∧ finishedWith t d r.code ∧ t.seqs = s.seqs ∧
        (∀ f, f < 65536 → flagVal t f = flagVal s f) ∧
        (∀ b n, b < 256 → n < 16 → getReg t (almR b (0x40 + 4 * n)) = getReg s (almR b (0x40 + 4 * n))) ∧
        t.handles = s.handles ∧ t.pending = s.pending) ∧
    ((r.phase = .running ∨ r.phase = .computed) → r.code = 0 → exec (.descriptorFail d) s = .next s)

/-- DESCRIPTOR_RESTART (R161): a restartable fault of a descriptor restarted fewer than three times starts it again from
its first iteration, where its ring slot, in a handle of memory, still holds it; the fourth such fault, and any other,
ends the attempt with the fault's code. -/
def Sys2Proof.Claims.DescriptorRestart : Prop :=
  ∀ (s : State) (d : DescRef) (sb : Sub) (x : BitVec 1024) (r : Run), findDesc s d = some (sb, x, r) →
    (r.phase = .running ∨ r.phase = .computed) → r.code = 0 →
    (∀ c : BitVec 16, (c = 0x0F01 ∨ c = 0x0F03) → r.restarts < 3 →
      ringSlot s d.alm.toNat (descSlot sb d.idx.toNat) = x →
      (∀ h, findHandle s (getReg s (almR d.alm.toNat 0x14)).toNat = some h → h.kind = 0) →
      ∃ t sb' r', exec (.descriptorRestart d c) s = .next t ∧ findDesc t d = some (sb', x, r') ∧ r'.phase = .running ∧
        r'.restarts = r.restarts + 1 ∧ r'.code = 0 ∧ r'.tiles = [] ∧ r'.unitsPlaced = [] ∧ r'.summary = Summary.zero ∧
        r'.counts = r.counts ∧ t.mem = s.mem ∧ (∀ f, f < 65536 → flagVal t f = flagVal s f)) ∧
    (∀ c : BitVec 16, c ≠ 0 → (3 ≤ r.restarts ∨ (c ≠ 0x0F01 ∧ c ≠ 0x0F03)) →
      ∃ t sb' r', exec (.descriptorRestart d c) s = .next t ∧ findDesc t d = some (sb', x, r') ∧ r'.code = c.toNat ∧
        r'.phase = r.phase ∧ t = { s with alms := t.alms })

/-- The 128 bytes of a completion record (R163): almanac, KIND and STATUS in the first word, RESTARTS and INDEX in the
second, then SUB_POS, the two details, TAG and the four times, each little-endian at its place. -/
def Sys2Proof.Claims.CompletionRecordLayout : Prop :=
  ∀ (alm kind status restarts idx pos dh doff tag sm em sc ec : Nat) (rb tally : List Byte),
    alm < 256 → kind < 256 → status < 65536 → restarts < 65536 → idx < 65536 → pos < 2 ^ 32 → dh < 2 ^ 32 →
    doff < 2 ^ 64 → tag < 2 ^ 64 → sm < 2 ^ 64 → em < 2 ^ 64 → sc < 2 ^ 64 → ec < 2 ^ 64 →
    rb.length = 32 → tally.length = 32 →
    let b := record128 alm kind status restarts idx pos dh doff tag sm em sc ec rb tally
    let at_ := fun i n => leNat ((b.drop i).take n)
    b.length = 128 ∧ at_ 0 2 = status ∧ at_ 2 1 = kind ∧ at_ 3 1 = alm ∧ at_ 4 2 = idx ∧ at_ 6 2 = restarts ∧
    at_ 8 4 = pos ∧ at_ 12 4 = dh ∧ at_ 16 8 = doff ∧ at_ 24 8 = tag ∧ at_ 32 8 = sm ∧ at_ 40 8 = em ∧ at_ 48 8 = sc ∧
    at_ 56 8 = ec ∧ (b.drop 64).take 32 = rb ∧ b.drop 96 = tally

/-! The families' bodies. -/

/-- MMA, FOLD, VEC and the three MOVEs (R146 to R152): a started descriptor of the family whose work meets no failure has
its outputs written and has computed; nothing outside its outputs changes. -/
def Sys2Proof.Claims.ComputeBodies : Prop :=
  ∀ (s : State) (d : DescRef) (sb : Sub) (x : BitVec 1024) (r : Run), bodyDue s d sb x r →
    let v := runViews sb x r
    (dFamily x = 1 → workGood s (bodyMma s v x r.counts) → memoryOnly s (bodyMma s v x r.counts) →
      ∃ t, exec (.mma d) s = .next t ∧ bodyDone s t d x (bodyMma s v x r.counts)) ∧
    (dFamily x = 2 → workGood s (bodyFold s v x r.counts).1 → memoryOnly s (bodyFold s v x r.counts).1 →
      ∃ t, exec (.fold d) s = .next t ∧ bodyDone s t d x (bodyFold s v x r.counts).1 ∧
        ∃ sb' r', findDesc t d = some (sb', x, r') ∧ r'.seqNew = (bodyFold s v x r.counts).2 ∧ t.seqs = s.seqs) ∧
    (let w := (bodyVec s v x r.counts d fun i => match vecTile r i with
      | some t => getb s (tileR t 0x80) 31
      | none => false)
     dFamily x = 3 → workGood s w.1 → memoryOnly s w.1 → w.2 = none →
      ∃ t, exec (.vec d) s = .next t ∧ bodyDone s t d x w.1) ∧
    (∀ c, (c, dVariant x) ∈ [(Instr.moveCopy d, 0), (Instr.gather d, 1), (Instr.scatter d, 2)] → dFamily x = 4 →
      workGood s (bodyMove s v x r.counts) → memoryOnly s (bodyMove s v x r.counts) →
      ∃ t, exec c s = .next t ∧ bodyDone s t d x (bodyMove s v x r.counts))

/-- REDUCE, COUNT and TALLY (R153, R154): as the other bodies; COUNT SET carries FW1 to its commit, COUNT LOAD the element
it reads and COUNT ADD nothing yet, and TALLY keeps its digest for the record. -/
def Sys2Proof.Claims.ReduceCountTallyBodies : Prop :=
  ∀ (s : State) (d : DescRef) (sb : Sub) (x : BitVec 1024) (r : Run), bodyDue s d sb x r →
    let v := runViews sb x r
    (∀ c, (c, dVariant x) ∈ [(Instr.reduceSum d, 0), (Instr.reduceMax d, 1), (Instr.reduceMin d, 2)] → dFamily x = 5 →
      workGood s (bodyReduce s v x r.counts) → memoryOnly s (bodyReduce s v x r.counts) →
      ∃ t, exec c s = .next t ∧ bodyDone s t d x (bodyReduce s v x r.counts)) ∧
    (dFamily x = 6 → workGood s (bodyCount s v x r.counts) → (bodyCount s v x r.counts).writes = [] →
      ∀ c val, (c, dVariant x, val) ∈ [(Instr.countSet d, 0, some (dFw x 1)),
          (Instr.countLoad d, 1, some (readElem s (viewElem (fun _ => 32) (slotView v x 0) 0 0 0))),
          (Instr.countAdd d, 2, none)] →
        ∃ t sb' r', exec c s = .next t ∧ findDesc t d = some (sb', x, r') ∧ r'.phase = .computed ∧ r'.code = 0 ∧
          r'.countValue = val ∧ t.mem = s.mem ∧ ∀ o, getReg t o = getReg s o) ∧
    (dFamily x = 10 → workGood s (bodyTally s v x r.counts).1 → memoryOnly s (bodyTally s v x r.counts).1 →
      ∃ t, exec (.tally d) s = .next t ∧ bodyDone s t d x (bodyTally s v x r.counts).1 ∧
        ∃ sb' r', findDesc t d = some (sb', x, r') ∧ r'.tally = (bodyTally s v x r.counts).2)

/-- FENCE (R214) and TRANSIT (R154): at module scope, or with no module written since the last pool-scope FENCE, a FENCE
completes at once, and a TRANSIT where it would start; a pool-scope FENCE sends one zero-length read to every module
written, fails with the code for it when a read ends in error, and completes when the last has returned. What had been
written before it was issued is done with only at its completion. -/
def Sys2Proof.Claims.FenceAndTransit : Prop :=
  ∀ (s : State) (d : DescRef) (sb : Sub) (x : BitVec 1024) (r : Run), bodyDue s d sb x r →
    isTwinned s d.alm.toNat = false →
    (dFamily x = 9 → r.pinNew = none → ∃ t, exec (.transit d) s = .next t ∧ finishedWith t d 0 ∧ t.handles = s.handles ∧
      t.groupTiles = s.groupTiles) ∧
    (dFamily x = 7 → r.fenceIssued = none →
      ((fld (dFw x 0) 0 0 = 0 ∨ fenceTargets s = []) → r.pinNew = none →
        ∃ t, exec (.fence d) s = .next t ∧ finishedWith t d 0 ∧ t.handles = s.handles) ∧
      (fld (dFw x 0) 0 0 = 1 → fenceTargets s ≠ [] →
        ∃ t sb' r', exec (.fence d) s = .next t ∧ t.sent = s.sent ++ (fenceTargets s).map Sent.fenceRead ∧
          t.pool = s.pool ∧ findDesc t d = some (sb', x, r') ∧ r'.fencePending = fenceTargets s ∧
          r'.fenceIssued = some s.pool.writeNo ∧ r'.phase = .running ∧ t.mem = s.mem ∧ t.regs = s.regs)) ∧
    (dFamily x = 7 → ∀ m : BitVec 6, m.toNat ∈ r.fencePending →
      (∃ t sb' r', exec (.fenceReadReturn d m false) s = .next t ∧ findDesc t d = some (sb', x, r') ∧ r'.code = 0x0502 ∧
        r'.fencePending = [] ∧ t.pool = s.pool ∧ t.mem = s.mem ∧ t.regs = s.regs) ∧
      ((∀ k ∈ r.fencePending, k = m.toNat) →
        ∃ t, exec (.fenceReadReturn d m true) s = .next t ∧ finishedWith t d 0 ∧
          ∀ n, r.fenceIssued = some n → n ≤ s.pool.writeNo → ∀ p ∈ t.pool.written, n ≤ p.2) ∧
      ((∃ k ∈ r.fencePending, k ≠ m.toNat) →
        ∃ t sb' r', exec (.fenceReadReturn d m true) s = .next t ∧ findDesc t d = some (sb', x, r') ∧
          r'.fencePending = r.fencePending.filter (· != m.toNat) ∧ t = { s with alms := t.alms }))

end
section
open Sys2Proof Sys2Proof.Machine Sys2Proof.Claims

/-! Synchronisation. -/

/-- Barrier objects from the host and from other modules (R217, R218, R222): a write of ALM_BAR_CFGb takes LOCAL, HOME and
MODULES while ENABLE is 0 and enables the object; ENABLE written to 0 clears its counts and fails its waiters. A host
arrival counts one participant, the last one of a phase sends this module's arrival to HOME, and a host arrival on an
object that is off is discarded. A module arrival at a module that is not HOME is returned, one short of MODULES is kept,
and a release adds 1 to GENERATION. -/
def Sys2Proof.Claims.BarrierObjects : Prop :=
  ∀ (s : State) (b : BitVec 8),
    let cfg := barCfgR b.toNat
    let x := getBar s b.toNat
    (∀ v : Word, getb s cfg 31 = false → fld v.toNat 30 24 ≤ 64 → fld v.toNat 16 0 ≤ 65536 →
      ¬ (v.getLsbD 31 = true ∧ fld v.toNat 23 18 = ownId s ∧ fld v.toNat 30 24 = 0) →
      ∃ t, exec (.barrierConfigWrite b v) s = .next t ∧ getb t cfg 31 = v.getLsbD 31 ∧
        getf t cfg 30 24 = fld v.toNat 30 24 ∧ getf t cfg 23 18 = fld v.toNat 23 18 ∧
        getf t cfg 16 0 = fld v.toNat 16 0 ∧ onlyRegs s t (· = cfg)) ∧
    (∀ v : Word, getb s cfg 31 = true → v.getLsbD 31 = false →
      ∃ t, exec (.barrierConfigWrite b v) s = .next t ∧ getb t cfg 31 = false ∧ (getBar t b.toNat).count = 0 ∧
        (getBar t b.toNat).phase = 0 ∧ (getBar t b.toNat).released = 0 ∧ (getBar t b.toNat).waiters = [] ∧
        (∀ o, o ≠ cfg → getReg t o = getReg s o) ∧ t.mem = s.mem ∧
        ∀ d q, (d, q) ∈ x.waiters → ∀ sb y r, findDesc s d = some (sb, y, r) → r.phase = .running → r.code = 0 →
          ∃ sb' r', findDesc t d = some (sb', y, r') ∧ r'.code = 0x0501) ∧
    (∀ v : Word, (v.getLsbD 0 = false ∨ barOn s b.toNat = false) → exec (.almBarArrive b v) s = .next s) ∧
    (∀ v : Word, v.getLsbD 0 = true → barOn s b.toNat = true → x.held = [] → x.phase < x.released + 2 →
      (x.count + 1 ≠ getf s cfg 16 0 →
        exec (.almBarArrive b v) s = .next (setBar s b.toNat { x with count := x.count + 1 })) ∧
      (x.count + 1 = getf s cfg 16 0 → barHome s b.toNat ≠ ownId s →
        ∃ t, exec (.almBarArrive b v) s = .next t ∧
          t.sent = s.sent ++ [Sent.moduleArrival (barHome s b.toNat) b.toNat (decide (x.phase % 2 = 1))] ∧
          getBar t b.toNat = { x with count := 0, phase := x.phase + 1 } ∧ t = { s with bars := t.bars, sent := t.sent })) ∧
    (∀ (source : BitVec 6) (parity : Bool), source.toNat ≠ ownId s → barHome s b.toNat ≠ ownId s →
      exec (.moduleArrival b source parity) s = .next { s with sent := s.sent ++ [Sent.arrivalReturned source.toNat b.toNat] }) ∧
    (∀ (source : BitVec 6) (parity : Bool), source.toNat ≠ ownId s → barHome s b.toNat = ownId s → getb s cfg 31 = true →
      x.held = [] → (x.arrivals.filter fun p => p.2 == parity).length + 1 < getf s cfg 30 24 →
      exec (.moduleArrival b source parity) s =
        .next (setBar s b.toNat { x with arrivals := x.arrivals ++ [(source.toNat, parity)] })) ∧
    (∀ parity : Bool, getb s cfg 31 = true → x.held = [] → x.waiters = [] → x.released < x.phase →
      (parity = decide (x.released % 2 = 1) →
        exec (.barrierRelease b parity) s = .next (setBar s b.toNat { x with released := x.released + 1 })) ∧
      (parity ≠ decide (x.released % 2 = 1) → exec (.barrierRelease b parity) s = .next s)) ∧
    (∀ (parity : Bool) (d : DescRef) (sb : Sub) (y : BitVec 1024) (r : Run), getb s cfg 31 = true → x.held = [] →
      x.waiters = [(d, x.released)] → x.released < x.phase → parity = decide (x.released % 2 = 1) →
      findDesc s d = some (sb, y, r) → r.phase = .running → r.code = 0 → r.preempted = false →
      isTwinned s d.alm.toNat = false →
      ∃ t, exec (.barrierRelease b parity) s = .next t ∧ finishedWith t d 0 ∧
        (getBar t b.toNat).released = x.released + 1 ∧ (getBar t b.toNat).waiters = [])

/-- BARRIER descriptors (R219, R220, R222): on an object that is off, the descriptor fails with BARRIER_DISABLED. On one
that is on, arrive-and-wait arrives and waits for its phase, arrive arrives and completes, and wait waits for the phase
that its arrive was counted in, or completes where that is released. An arrival two phases ahead is held. -/
def Sys2Proof.Claims.BarrierDescriptors : Prop :=
  ∀ (s : State) (d : DescRef) (sb : Sub) (y : BitVec 1024) (r : Run), findDesc s d = some (sb, y, r) →
    dFamily y = 8 → r.phase = .running → r.code = 0 → r.preempted = false → r.barPhase = none → r.barHeld = false →
    isTwinned s d.alm.toNat = false →
    let b := fld (dFw y 0) 7 0
    let x := getBar s b
    (∀ c, (c, dVariant y) ∈ [(Instr.barrierArriveAndWait d, 0), (Instr.barrierArrive d, 1), (Instr.barrierWait d, 2)] →
      barOn s b = false →
      ∃ t sb' r', exec c s = .next t ∧ findDesc t d = some (sb', y, r') ∧ r'.code = 0x0501 ∧ t = { s with alms := t.alms }) ∧
    (barOn s b = true → x.held = [] →
      (∀ c, (c, dVariant y) ∈ [(Instr.barrierArriveAndWait d, 0), (Instr.barrierArrive d, 1)] → x.released + 2 ≤ x.phase →
        ∃ t sb' r', exec c s = .next t ∧ findDesc t d = some (sb', y, r') ∧ r'.barHeld = true ∧ r'.phase = .running ∧
          getBar t b = { x with held := [some d] } ∧ t = { s with alms := t.alms, bars := t.bars }) ∧
      (x.phase < x.released + 2 → x.count + 1 ≠ getf s (barCfgR b) 16 0 →
        (dVariant y = 0 →
          ∃ t sb' r', exec (.barrierArriveAndWait d) s = .next t ∧ findDesc t d = some (sb', y, r') ∧
            r'.barPhase = some x.phase ∧ r'.phase = .running ∧
            getBar t b = { x with count := x.count + 1, waiters := x.waiters ++ [(d, x.phase)] } ∧
            t = { s with alms := t.alms, bars := t.bars }) ∧
        (dVariant y = 1 →
          ∃ t, exec (.barrierArrive d) s = .next t ∧ finishedWith t d 0 ∧ getBar t b = { x with count := x.count + 1 })) ∧
      (dVariant y = 2 → ∀ p q, sb.runs[d.idx.toNat - dPred y 0]? = some p → p.barPhase = some q →
        (x.released ≤ q →
          ∃ t sb' r', exec (.barrierWait d) s = .next t ∧ findDesc t d = some (sb', y, r') ∧ r'.barPhase = some q ∧
            r'.phase = .running ∧ getBar t b = { x with waiters := x.waiters ++ [(d, q)] } ∧
            t = { s with alms := t.alms, bars := t.bars }) ∧
        (q < x.released → ∃ t, exec (.barrierWait d) s = .next t ∧ finishedWith t d 0 ∧ getBar t b = x)))

/-- What reaches one flag in one cycle (R211 to R213): the written value, where the host writes, plus every addition,
modulo 2^32, those of the cycle that came before the write included; a host's write shows the host as its setter where no
addition came before it. The flags of other numbers, the handles and memory are untouched, and a function outside the flag's
range changes nothing. -/
def Sys2Proof.Claims.FlagUpdates : Prop :=
  ∀ (s : State) (f : BitVec 16),
    let only := fun (t : State) => (∀ o, o ≠ flagR f.toNat → getReg t o = getReg s o) ∧
      t = { s with regs := t.regs, setters := t.setters, alms := t.alms, flagAdds := t.flagAdds }
    (∀ (host : Option (Fn × Word)) (adds : List FlagAdd),
      (∀ h, host = some h → flagInRange s h.1.val f.toNat = true) →
      (∀ a ∈ adds, ∀ fn, a.by_ = Setter.host fn → flagInRange s fn.val f.toNat = true) →
      ∃ t, exec (.flagUpdate f host adds) s = .next t ∧
        flagVal t f.toNat =
          (((host.map fun h => h.2.toNat + (addedNow s f.toNat).getD 0).getD (flagVal s f.toNat)) +
            (adds.map fun a => a.amount.toNat).sum) % 2 ^ 32 ∧ only t) ∧
    (∀ (fn : Fn) (v : Word), flagInRange s fn.val f.toNat = true →
      (addedNow s f.toNat = none → ∃ t, exec (.almFlagWrite fn f v) s = .next t ∧ getReg t (flagR f.toNat) = v ∧
        setterWord t f.toNat = 3 * 2 ^ 28 + fn.val ∧
        (∀ d sb x r n, findDesc s d = some (sb, x, r) → n < 2 → n < dWaits x → r.phase = .waiting → r.regd n = true →
          dWaitFlag x n = f.toNat → waitMet v.toNat (dWaitTarget x n) = true →
          ∃ sb' r', findDesc t d = some (sb', x, r') ∧ r'.held n = true) ∧ only t) ∧
      (∀ n, addedNow s f.toNat = some n → ∃ t, exec (.almFlagWrite fn f v) s = .next t ∧
        getReg t (flagR f.toNat) = v + BitVec.ofNat 32 n ∧ setterWord t f.toNat = setterWord s f.toNat ∧ only t) ∧
      (∃ t, exec (.almFlagAddWrite fn f v) s = .next t ∧ getReg t (flagR f.toNat) = getReg s (flagR f.toNat) + v ∧
        (s.flagAdds = [] → v ≠ 0 → t.flagAdds = [(f.toNat, v.toNat)]) ∧ only t)) ∧
    (∀ (fn : Fn) (v : Word), flagInRange s fn.val f.toNat = false →
      exec (.almFlagWrite fn f v) s = .next s ∧ exec (.almFlagAddWrite fn f v) s = .next s)

/-- Wakes, registration and the wait-stall timer (R211, R223, R228): the wake of a wait that held in an earlier
cycle reaches its descriptor once; a wait of an armed descriptor registers while its unit has room and holds where its flag meets it; a
timer that has run out is logged, sets ALM_EVENT.STALL and fills the stall report, once for its descriptor. -/
def Sys2Proof.Claims.WakesAndStalls : Prop :=
  ∀ (s : State) (d : DescRef) (sb : Sub) (x : BitVec 1024) (r : Run), findDesc s d = some (sb, x, r) →
    (∀ n : Bool, r.phase = .waiting → b2n n < dWaits x → r.woke.contains (b2n n) = false →
      (∀ c, r.heldAt (b2n n) = some c → c < s.cycle →
        ∃ t sb' r', exec (.wakeArrival d n) s = .next t ∧ findDesc t d = some (sb', x, r') ∧
          r' = { r with woke := r.woke ++ [b2n n] } ∧ t = { s with alms := t.alms }) ∧
      ((∀ c, r.heldAt (b2n n) = some c → s.cycle ≤ c) → exec (.wakeArrival d n) s = .next s)) ∧
    (∀ n : Bool, r.phase = .waiting → r.armed = true → b2n n < dWaits x → r.regd (b2n n) = false →
      unitWaits s (flagUnit (dWaitFlag x (b2n n))) < unitCapacity →
      ∃ t sb' r', exec (.waitReregistration d n) s = .next t ∧ findDesc t d = some (sb', x, r') ∧ r'.regd (b2n n) = true ∧
        (waitMet (flagVal s (dWaitFlag x (b2n n))) (dWaitTarget x (b2n n)) = true → r'.held (b2n n) = true) ∧
        t = { s with alms := t.alms }) ∧
    (let a := d.alm.toNat
     let e := getf s (almR a 0x10) 25 21
     ((e = 31 ∨ r.stallReported = true ∨ stallRuns r x = false) → exec (.waitStall d) s = .next s) ∧
     (e ≠ 31 → r.stallReported = false → stallRuns r x = true →
       (r.stallElapsed + (s.cycle - r.stallFrom) < 1280 * 2 ^ min 26 e → exec (.waitStall d) s = .next s) ∧
       (1280 * 2 ^ min 26 e ≤ r.stallElapsed + (s.cycle - r.stallFrom) →
         ∃ t sb' r', exec (.waitStall d) s = .next t ∧ findDesc t d = some (sb', x, r') ∧
           r' = { r with stallReported := true } ∧ getb t (almR a 0x20) 4 = true ∧
           logged s t 0 0x0503 (d.pos.toNat * 2 ^ 32 + d.idx.toNat * 2 ^ 16 + (stallReport s x r).1)
             (a * 2 ^ 32 + (stallReport s x r).2) ∧
           (getb s (almR a 0x20) 4 = false → get64 t (almR a 0x28) =
             d.pos.toNat * 2 ^ 32 + d.idx.toNat * 2 ^ 16 + (stallReport s x r).1) ∧
           (getb s (almR a 0x20) 4 = true → get64 t (almR a 0x28) = get64 s (almR a 0x28)) ∧
           t.mem = s.mem ∧ ∀ f, f < 65536 → flagVal t f = flagVal s f)))

/-- Twin mode (R248 to R252): ENABLE sends this module's masks and enters pairing; the partner's masks, equal and naming
this module, move it to running, and unequal ones leave it pairing with TWIN_CONFIG; ENABLE cleared withdraws the masks, and
a partner that has withdrawn its own is paired with no more. A partner's tally equal to this
module's lets the descriptor commit; a different one fails it and halts the twin, as does a partner that is lost. -/
def Obligations.TwinMode : Prop :=
  ∀ s : State,
    (∀ v : Word, getb s Reg.twinCtrl 31 = false → v.getLsbD 31 = true →
      (∀ e ∈ s.pool.twinHeard, e.1 ≠ fld v.toNat 21 16) →
      ∃ t, exec (.twinEnable v) s = .next t ∧ getb t Reg.twinCtrl 31 = true ∧ twinState t = 1 ∧
        getf t Reg.twinCtrl 21 16 = fld v.toNat 21 16 ∧ getf t Reg.twinCtrl 4 0 = fld v.toNat 4 0 ∧
        Sent.twinMasks (fld v.toNat 21 16) (twinMaskRegs s) ∈ t.sent ∧ get64 t Reg.twinDiverge = 0 ∧
        get64 t Reg.twinDivergeAt = 0 ∧
        onlyRegsAndMessages s t (fun o => o = Reg.twinCtrl ∨ o = Reg.twinStatus ∨ o = Reg.twinDiverge ∨
          o = Reg.twinDiverge + 4 ∨ o = Reg.twinDivergeAt ∨ o = Reg.twinDivergeAt + 4)) ∧
    (∀ v : Word, getb s Reg.twinCtrl 31 = true → v.getLsbD 31 = false →
      ∃ t, exec (.twinEnable v) s = .next t ∧ getb t Reg.twinCtrl 31 = false ∧ twinState t = 0 ∧
        Sent.twinMasks (twinPartner s) [] ∈ t.sent ∧ t.alms = s.alms) ∧
    (∀ (source partner : BitVec 6), source.toNat = twinPartner s →
      exec (.twinMasksArrival source partner []) s = .next { s with pool := { s.pool with
        twinHeard := s.pool.twinHeard.filter fun e => e.1 != source.toNat } }) ∧
    (∀ (source partner : BitVec 6) (masks : List Word), twinState s = 1 → source.toNat = twinPartner s → masks ≠ [] →
      ∃ t, exec (.twinMasksArrival source partner masks) s = .next t ∧
        ((partner.toNat = ownId s ∧ masks.map (·.toNat) = twinMaskRegs s) →
          twinState t = 2 ∧ getf t Reg.twinStatus 15 0 = 0) ∧
        (¬ (partner.toNat = ownId s ∧ masks.map (·.toNat) = twinMaskRegs s) →
          twinState t = 1 ∧ getf t Reg.twinStatus 15 0 = 0x0602) ∧
        (∀ o, o ≠ Reg.twinStatus → getReg t o = getReg s o) ∧ t.alms = s.alms ∧ t.mem = s.mem) ∧
    (∀ (d : DescRef) (sb : Sub) (x : BitVec 1024) (r : Run) (own parts : TallyParts), findDesc s d = some (sb, x, r) →
      getb s Reg.twinCtrl 31 = true → r.parts = some own → r.phase = .computed → r.code = 0 → r.preempted = false →
      r.twinSent.isSome = true → r.twinOk = false →
      (own.tally = parts.tally → get64 s Reg.twinCompared + 1 < 2 ^ 64 →
        ∃ t, exec (.partnerTallyArrival d parts) s = .next t ∧ finishedWith t d 0 ∧
          get64 t Reg.twinCompared = get64 s Reg.twinCompared + 1) ∧
      (own.tally ≠ parts.tally →
        ∃ t sb' r', exec (.partnerTallyArrival d parts) s = .next t ∧ findDesc t d = some (sb', x, r') ∧
          r'.code = 0x0601 ∧ twinState t = 3 ∧ getf t Reg.twinStatus 15 0 = 0x0601 ∧ t.mem = s.mem ∧
          (∀ f, f < 65536 → flagVal t f = flagVal s f) ∧
          (twinState s ≠ 3 → get64 t Reg.twinDiverge =
            d.alm.toNat * 2 ^ 56 + d.idx.toNat * 2 ^ 40 + d.pos.toNat))) ∧
    (∀ (d : DescRef) (sb : Sub) (x : BitVec 1024) (r : Run) (c : Nat), findDesc s d = some (sb, x, r) →
      r.twinSent = some c → r.phase = .computed → r.code = 0 → r.twinOk = false → isTwinned s d.alm.toNat = true →
      c + timeoutCycles (getf s Reg.twinCtrl 4 0) ≤ s.cycle →
      ∃ t sb' r', exec (.twinPartnerLost d) s = .next t ∧ findDesc t d = some (sb', x, r') ∧ r'.code = 0x0603 ∧
        twinState t = 3 ∧ getf t Reg.twinStatus 15 0 = 0x0603 ∧ t.mem = s.mem ∧
        (twinState s ≠ 3 → get64 t Reg.twinDivergeAt = 7 * 2 ^ 61))

end
section
open Sys2Proof Sys2Proof.Machine Sys2Proof.Claims

/-! Streams, placement and groups. -/

/-- TILE_STM_ARM, STOP and RESERVE (R169, R175 to R178, R183): an arming the rules allow takes the next ARM_SEQ, at once
on an idle context (its first transfer in the next cycle; one that
moves nothing is done at once) and into the shadow of a busy one; with a shadow standing it is
refused as busy, and one the rules forbid as invalid. STOP ends the active arming with STREAM_STOPPED and its shadow with
it, and discards a shadow that stands alone with a record of its own. DIRECT changes at
once where the contexts it moves are idle, and is held otherwise. -/
def Obligations.DirectArmings : Prop :=
  ∀ (s : State) (t : TileIx),
    let x := getf s (tileR t.val 0x408) 5 0
    let c := ctxOf s t.val x
    (∀ v : Word, (c.shadow = none ∨ c.active.isSome = true) →
      ((directOf s t.val ≤ x ∨ 2 ≤ v.toNat ∨ armingOk s (stagedArming s t.val (v.getLsbD 0)) = false) →
        ∃ u, exec (.tileStmArm t v) s = .next u ∧ getf u (tileR t.val 0x450) 15 0 = 0x0401 ∧
          getf u (tileR t.val 0x450) 31 16 = getf s (tileR t.val 0x450) 31 16 ∧ onlyRegs s u (· = tileR t.val 0x450)) ∧
      (x < directOf s t.val → v.toNat < 2 → armingOk s (stagedArming s t.val (v.getLsbD 0)) = true →
        let a := { stagedArming s t.val (v.getLsbD 0) with
          seq := (c.seq + 1) % 2 ^ 16, issued := armFirst (stagedArming s t.val (v.getLsbD 0)) }
        (c.shadow.isSome = true →
          ∃ u, exec (.tileStmArm t v) s = .next u ∧ getf u (tileR t.val 0x450) 15 0 = 0x0402 ∧
            onlyRegs s u (· = tileR t.val 0x450)) ∧
        (c.shadow = none → c.active.isSome = true →
          ∃ u, exec (.tileStmArm t v) s = .next u ∧ getf u (tileR t.val 0x450) 15 0 = 0 ∧
            getf u (tileR t.val 0x450) 31 16 = (c.seq + 1) % 2 ^ 16 ∧ (ctxOf u t.val x).active = c.active ∧
            (ctxOf u t.val x).shadow = some a ∧ u = { s with regs := u.regs, tiles := u.tiles } ∧
            (∀ w, w ≠ t.val → getTile u w = getTile s w) ∧ ∀ o, o ≠ tileR t.val 0x450 → getReg u o = getReg s o) ∧
        (c.shadow = none → c.active = none → armIssued a = false →
          ∃ u, exec (.tileStmArm t v) s = .next u ∧ getf u (tileR t.val 0x450) 15 0 = 0 ∧
            getf u (tileR t.val 0x450) 31 16 = (c.seq + 1) % 2 ^ 16 ∧
            (ctxOf u t.val x).active = some { a with first := s.cycle + 1 } ∧ (ctxOf u t.val x).shadow = none ∧
            u = { s with regs := u.regs, tiles := u.tiles } ∧ (∀ w, w ≠ t.val → getTile u w = getTile s w) ∧
            ∀ o, o ≠ tileR t.val 0x450 → getReg u o = getReg s o) ∧
        (c.shadow = none → c.active = none → armIssued a = true →
          (∀ h, findHandle s a.recHandle = some h → h.kind = 0) →
          ∃ u, exec (.tileStmArm t v) s = .next u ∧ getf u (tileR t.val 0x450) 15 0 = 0 ∧
            getf u (tileR t.val 0x450) 31 16 = (c.seq + 1) % 2 ^ 16 ∧ (ctxOf u t.val x).active = none ∧
            (ctxOf u t.val x).shadow = none ∧ flagVal u a.flag = (flagVal s a.flag + a.add) % 2 ^ 32 ∧
            ∀ o, o ≠ tileR t.val 0x450 → o ≠ flagR a.flag → getReg u o = getReg s o))) ∧
    (∀ v : Word, (v.getLsbD 0 = false → exec (.tileStmStop t v) s = .next s) ∧
      (∀ a, v.getLsbD 0 = true → c.active = some a → a.ended = false →
        ∃ u, exec (.tileStmStop t v) s = .next u ∧
          ctxOf u t.val x = { c with
            active := some { a with ended := true, code := 0x0403, detail := 0 }
            shadow := c.shadow.map fun b => { b with ended := true, code := 0x0403 } } ∧
          u = { s with tiles := u.tiles } ∧ ∀ w, w ≠ t.val → getTile u w = getTile s w) ∧
      (∀ b, v.getLsbD 0 = true → c.active = none → c.shadow = some b →
        (∀ h, findHandle s b.recHandle = some h → h.kind = 0 ∧ 32 * b.recIndex + 32 ≤ h.size) →
        ∃ u, exec (.tileStmStop t v) s = .next u ∧ ctxOf u t.val x = { c with shadow := none } ∧
          (∀ h, findHandle s b.recHandle = some h → leNat (rdBytes u.mem (memKey h.id (32 * b.recIndex)) 2) = 0x0403) ∧
          (b.recHandle = 0 → u.mem = s.mem) ∧ (∀ o, getReg u o = getReg s o) ∧
          ∀ w, w ≠ t.val → getTile u w = getTile s w)) ∧
    (∀ v : Word, let w := v.toNat % 128
      (64 < w → exec (.tileStmReserveWrite t v) s = .next s) ∧
      (w ≤ 64 → directFree s t.val w = true →
        ∃ u, exec (.tileStmReserveWrite t v) s = .next u ∧ directOf u t.val = w ∧ (getTile u t.val).directWanted = none ∧
          u = { s with regs := u.regs, tiles := u.tiles } ∧ ∀ o, o ≠ tileR t.val 0x404 → getReg u o = getReg s o) ∧
      (w ≤ 64 → directFree s t.val w = false →
        exec (.tileStmReserveWrite t v) s = .next (modTile s t.val fun y => { y with directWanted := some w }))) ∧
    (∀ w, (getTile s t.val).directWanted = some w → w ≤ 64 →
      (directFree s t.val w = true →
        ∃ u, exec (.directReserveApplied t) s = .next u ∧ directOf u t.val = w ∧ (getTile u t.val).directWanted = none ∧
          u = { s with regs := u.regs, tiles := u.tiles } ∧ ∀ o, o ≠ tileR t.val 0x404 → getReg u o = getReg s o) ∧
      (directFree s t.val w = false → exec (.directReserveApplied t) s = .next s))

/-- The transfers of an arming (R172, R173, R177, R180 to R183): one issues a cycle with at most 8 outstanding; its bytes go
to their own place; a transfer that cannot be made ends the arming, an uncorrectable granule with that granule's offset. When
every transfer has completed the record is written and, with OK only, the signal is added, and the shadow becomes active in
the cycle after. -/
def Sys2Proof.Claims.ArmingTransfers : Prop :=
  ∀ (s : State) (t : TileIx),
    let y := getTile s t.val
    ((y.issueCycle = some s.cycle ∨ 8 ≤ outstandingOf s t.val ∨ readyCarriers s t.val = []) →
      exec (.granuleTransferIssue t) s = .next s) ∧
    (∀ (x : BitVec 6) (a : Arming) (id k : Nat) (h : Handle), y.issueCycle ≠ some s.cycle → outstandingOf s t.val < 8 →
      (y.getCtx x.toNat).active = some a → a.issued = some id → findHandle s a.src = some h →
      otherHome s h (armSrc a id) t.val = none → readyCarriers s t.val = [(k, .direct x)] → k < 4 →
      ∃ u, exec (.granuleTransferIssue t) s = .next u ∧
        (ctxOf u t.val x.toNat).active = some { a with issued := armNext a id, outstanding := a.outstanding ++ [id] } ∧
        (getTile u t.val).issueCycle = some s.cycle ∧ (∀ z, z ≠ x.toNat → ctxOf u t.val z = ctxOf s t.val z) ∧
        u = { s with tiles := u.tiles } ∧ ∀ w, w ≠ t.val → getTile u w = getTile s w) ∧
    (∀ (x : BitVec 6) (a : Arming) (id : Nat) (h g : Handle), (ctxOf s t.val x.toNat).active = some a →
      findHandle s a.src = some h → findHandle s a.dst = some g → h.kind = 0 → g.kind = 0 →
      let come := onTheWay s t.val (.direct x) id none = false
      (id ∉ a.outstanding ∨ ¬ come → exec (.granuleArrival t (.direct x) id) s = .next s) ∧
      (come → id ∈ a.outstanding → rangeLost h (armSrc a id) (armSrc a id + armLen a id - 1) = false →
        rangeLost g (armDst a id) (armDst a id + armLen a id - 1) = false →
        badGranule s h.id (armSrc a id) (armLen a id) = none → badPart s g (armDst a id) (armLen a id) = none →
        ∃ u, exec (.granuleArrival t (.direct x) id) s = .next u ∧
          u.mem = wrBytes s.mem (memKey g.id (armDst a id)) (rdBytes s.mem (memKey h.id (armSrc a id)) (armLen a id)) ∧
          (ctxOf u t.val x.toNat).active =
            some { a with outstanding := a.outstanding.filter (· != id), bytes := a.bytes + armLen a id } ∧
          (∀ o, getReg u o = getReg s o) ∧ u.handles = s.handles ∧ u.alms = s.alms ∧
          ∀ w, w ≠ t.val → getTile u w = getTile s w) ∧
      (come → id ∈ a.outstanding → a.ended = false →
        rangeLost h (armSrc a id) (armSrc a id + armLen a id - 1) = true →
        ∃ u b, exec (.granuleArrival t (.direct x) id) s = .next u ∧ (ctxOf u t.val x.toNat).active = some b ∧
          b.ended = true ∧ b.code = 0x080B ∧ b.outstanding = a.outstanding.filter (fun i => decide (i < id)) ∧
          u = { s with tiles := u.tiles }) ∧
      (come → id ∈ a.outstanding → a.ended = false →
        rangeLost h (armSrc a id) (armSrc a id + armLen a id - 1) = false →
        rangeLost g (armDst a id) (armDst a id + armLen a id - 1) = false →
        (badGranule s h.id (armSrc a id) (armLen a id)).isSome = true →
        ∃ u b, exec (.granuleArrival t (.direct x) id) s = .next u ∧ (ctxOf u t.val x.toNat).active = some b ∧
          b.ended = true ∧ b.code = 0x0C03 ∧ b.detail = armSrc a id / 64 * 64 ∧ u.mem = s.mem)) ∧
    (∀ (x : BitVec 6) (a : Arming), let c := ctxOf s t.val x.toNat
      c.active = some a →
      ((a.outstanding ≠ [] ∨ (a.ended = false ∧ armIssued a = false)) → exec (.armingDone t x) s = .next s) ∧
      (a.outstanding = [] → (a.ended = true ∨ armIssued a = true) → c.shadow = none →
        (∀ h, findHandle s a.recHandle = some h → h.kind = 0 ∧ 32 * a.recIndex + 32 ≤ h.size) →
        ∃ u, exec (.armingDone t x) s = .next u ∧ (ctxOf u t.val x.toNat).active = none ∧
          (∀ h, findHandle s a.recHandle = some h → rdBytes u.mem (memKey h.id (32 * a.recIndex)) 32 =
            leBytes 4 (a.seq * 2 ^ 16 + a.code) ++ leBytes 4 (x.toNat * 2 ^ 11 + t.val) ++ leBytes 8 a.bytes ++
              leBytes 8 a.detail ++ leBytes 8 s.cycle) ∧
          (a.recHandle = 0 → u.mem = s.mem) ∧
          (a.code = 0 → flagVal u a.flag = (flagVal s a.flag + a.add) % 2 ^ 32) ∧
          (a.code ≠ 0 → flagVal u a.flag = flagVal s a.flag) ∧
          ∀ o, o ≠ flagR a.flag → getReg u o = getReg s o)) ∧
    (∀ (x : BitVec 6) (a : Arming), let c := ctxOf s t.val x.toNat
      c.shadow = some a →
      (c.active.isSome = true → exec (.shadowArmingActive t x) s = .next s) ∧
      (c.active = none → c.recordCycle.getD 0 < s.cycle → armIssued a = false →
        ∃ u, exec (.shadowArmingActive t x) s = .next u ∧ ctxOf u t.val x.toNat =
          { c with shadow := none, active := some { a with first := s.cycle } } ∧ u = { s with tiles := u.tiles } ∧
          ∀ w, w ≠ t.val → getTile u w = getTile s w) ∧
      (c.active = none → c.recordCycle.getD 0 < s.cycle → armIssued a = true → a.code = 0 →
        (∀ h, findHandle s a.recHandle = some h → h.kind = 0) →
        ∃ u, exec (.shadowArmingActive t x) s = .next u ∧ (ctxOf u t.val x.toNat).shadow = none ∧
          (ctxOf u t.val x.toNat).active = none ∧ flagVal u a.flag = (flagVal s a.flag + a.add) % 2 ^ 32 ∧
          ∀ o, o ≠ flagR a.flag → getReg u o = getReg s o))

/-- The stream engine's order (R172) and the descriptor sequencer's contexts (R106, R107, R168, R173, R174, R184, R185). Of
the classes with a transfer ready the lowest-numbered is served, unless a class has waited 256 cycles. A context of a unit is
among them only where no k-step that has still to enter and no output area still to be read needs the bytes that the transfer
would write, and with the class of its descriptor: 0 with LOOP, else 1 once it has started; ahead of the start only in a slot
that reads ahead from sealed handles that are no window, with class 3. A granule that has come puts each of its elements in
its place of the ring, and the elements of a window handle come in order; one that cannot be corrected fails the descriptor. An
output area is free once its last granule has been read. -/
def Sys2Proof.Claims.SequencerContexts : Prop :=
  (∀ (now : Nat) (waits : List (Nat × Nat)) (l : List (Nat × Carrier)) (k : Nat), servedClass now waits l = some k →
    (∃ c, (k, c) ∈ l) ∧
    ((∀ w ∈ waits, now < w.2 + 256) → ∀ e ∈ l, e.1 < 4 → k ≤ e.1) ∧
    ((∃ w ∈ waits, w.2 + 256 ≤ now ∧ w.1 < 4 ∧ ∃ e ∈ l, e.1 = w.1) → ∃ w ∈ waits, w.1 = k ∧ w.2 + 256 ≤ now)) ∧
  ∀ (s : State) (t : TileIx),
    let y := getTile s t.val
    (∀ k no slot, (k, Carrier.fill no slot) ∈ readyCarriers s t.val →
      ∃ u ∈ y.units, ∃ f ∈ u.fills, u.no = no ∧ f.slot = slot ∧ mayFill y u f = true ∧
        ∃ sb x r, findDesc s u.owner = some (sb, x, r) ∧
          ((r.phase = .running ∧ r.code = 0 ∧ k = if dLoop x then 0 else 1) ∨
           (r.phase = .waiting ∧ (viewSlot slot, t.val) ∈ r.runAhead ∧
             (∀ p ∈ f.places, runAheadHandle s sb p.handle = true) ∧ k = if dLoop x then 0 else 3))) ∧
    (∀ (no slot n : Nat) (u : BuiltUnit) (f : Fill) (x : Nat × Nat), fillOf y no slot = some (u, f) →
      (transfersOf f.places)[n]? = some x → f.remote = none → onTheWay s t.val (.fill no slot) n none = false →
      let ps := broughtBy f.places x
      (n ∉ f.outstanding → exec (.granuleArrival t (.fill no slot) n) s = .next s) ∧
      ((∃ p ∈ ps, fromWindow s p.handle = true) → f.outstanding.head? ≠ some n →
        exec (.granuleArrival t (.fill no slot) n) s = .next s) ∧
      (n ∈ f.outstanding → (∀ p ∈ ps, fromWindow s p.handle = false) → readFails s (ps.map Place.elem) = none →
        u.work ≠ .other →
        ∃ w, exec (.granuleArrival t (.fill no slot) n) s = .next w ∧
          (getTile w t.val).store = ps.foldl (putPlace s f) y.store ∧ w.mem = s.mem ∧ (∀ o, getReg w o = getReg s o) ∧
          w.alms = s.alms ∧ (∀ v, v ≠ t.val → getTile w v = getTile s v) ∧
          ∃ u' f', fillOf (getTile w t.val) no slot = some (u', f') ∧
            f' = { f with outstanding := f.outstanding.filter (· != n) }) ∧
      (∀ c h o sb d r, n ∈ f.outstanding → (∀ p ∈ ps, fromWindow s p.handle = false) →
        readFails s (ps.map Place.elem) = some (c, h, o) → findDesc s u.owner = some (sb, d, r) → r.going = true →
        r.code = 0 →
        ∃ w sb' r', exec (.granuleArrival t (.fill no slot) n) s = .next w ∧ findDesc w u.owner = some (sb', d, r') ∧
          r'.code = c ∧ (getTile w t.val).store = y.store ∧ w.mem = s.mem)) ∧
    (∀ (o : OutArea), y.outputs = [o] → o.outstanding = [o.count - 1] → o.issued = o.count → 0 < o.count →
      exec (.granuleArrival t (.out o.no o.slot) (o.count - 1)) s =
        .next (setTile s t.val { y with outputs := [] }) ∨
      onTheWay s t.val (.out o.no o.slot) (o.count - 1) none = true)

/-- Groups (R189, R190, R482): a write that breaks a limit is ignored, one to a group that an unfinished submission names
is held, and any other takes effect at once: the group then has as many eligible tiles as it asks for, no tile twice, in one compact
block, and the tiles of a loop group are loop tiles, each from the end of its last pass and invocation on; a disabled group
holds none. A held write takes effect once nothing names the group. That a compact block is the tiles with the fewest hops to
one of them is the model's reading (log entry 119). -/
def Sys2Proof.Claims.GroupWrites : Prop :=
  ∀ (s : State) (g : BitVec 8) (v : Word),
    let r := groupR g.toNat
    let w := BitVec.ofNat 32 (v.toNat &&& 0xC00007FF)
    let same := getb s r 31 = v.getLsbD 31 ∧ getb s r 30 = v.getLsbD 30 ∧ getf s r 10 0 = fld v.toNat 10 0
    ((g = 0 ∨ 1024 < fld v.toNat 10 0 ∨ 512 < loopTotal s g.toNat v.toNat) → exec (.cmnGroupWrite g v) s = .next s) ∧
    (g ≠ 0 → fld v.toNat 10 0 ≤ 1024 → loopTotal s g.toNat v.toNat ≤ 512 →
      (groupNamed s g.toNat = true → ∃ t, exec (.cmnGroupWrite g v) s = .next t ∧ (g.toNat, v.toNat) ∈ t.groupHeld ∧
        (∀ e ∈ t.groupHeld, e.1 = g.toNat → e.2 = v.toNat) ∧ t = { s with groupHeld := t.groupHeld }) ∧
      (groupNamed s g.toNat = false → v.getLsbD 31 = true → ¬ same →
        ∃ t, exec (.cmnGroupWrite g v) s = .next t ∧ getReg t r = w ∧ (∀ e ∈ t.groupHeld, e.1 ≠ g.toNat) ∧
          (groupTilesOf t g.toNat).Nodup ∧ t.mem = s.mem ∧ t.handles = s.handles ∧
          (∃ c, groupTilesOf t g.toNat = nearestTo c (groupTilesOf t g.toNat).length (groupEligible (releaseGroup s g.toNat))) ∧
          (v.getLsbD 30 = true → ∀ u ∈ groupTilesOf t g.toNat, u < 1152 →
            (tileBetween (getTile s u) = true → tileState t u = 1) ∧
            (tileBetween (getTile s u) = false → (getTile t u).preempt = true ∧ (getTile t u).loopDue = true)) ∧
          (v.getLsbD 30 = false → getb s r 30 = false →
            (groupTilesOf t g.toNat).length = min (fld v.toNat 10 0) (groupEligible s).length ∧
            (∀ u ∈ groupTilesOf t g.toNat, u ∈ groupEligible s) ∧
            (∀ o, o ≠ r → getReg t o = getReg s o) ∧
            t = { s with regs := t.regs, groupTiles := t.groupTiles, groupHeld := t.groupHeld, free := t.free })) ∧
      (groupNamed s g.toNat = false → v.getLsbD 31 = false →
        ∃ t, exec (.cmnGroupWrite g v) s = .next t ∧ getReg t r = w ∧ groupTilesOf t g.toNat = [] ∧
          (loopGroup s g.toNat = true → ∀ u ∈ groupTilesOf s g.toNat, u < 1152 → tileState s u = 1 → tileState t u = 0) ∧
          t = { s with regs := t.regs, tiles := t.tiles, groupTiles := t.groupTiles, groupHeld := t.groupHeld })) ∧
    (∀ tiles : List Nat, (s.groupHeld.find? fun p => p.1 == g.toNat) = some (g.toNat, v.toNat) →
      (groupNamed s g.toNat = true → exec (.heldGroupWriteEffect g tiles) s = .next s) ∧
      (groupNamed s g.toNat = false → v.getLsbD 31 = true → v.getLsbD 30 = false → getb s r 30 = false → ¬ same →
        (tiles ≠ nearestTo (tiles.headD 0) (min (fld v.toNat 10 0) (groupEligible s).length) (groupEligible s) →
          exec (.heldGroupWriteEffect g tiles) s = .next s) ∧
        (tiles = nearestTo (tiles.headD 0) (min (fld v.toNat 10 0) (groupEligible s).length) (groupEligible s) →
        ∃ t, exec (.heldGroupWriteEffect g tiles) s = .next t ∧ getReg t r = w ∧ groupTilesOf t g.toNat = tiles ∧
          (∀ e ∈ t.groupHeld, e.1 ≠ g.toNat) ∧
          t = { s with regs := t.regs, groupTiles := t.groupTiles, groupHeld := t.groupHeld })))

/-- Migration (R195 to R197), 1 ms after the epoch began: with MIGRATE set a page that one tile has used PROMOTE × 64 times
starts to move one tier toward it where that tile has room, with REMOTE set one that another module has used so for
REMOTE_EPOCHS epochs starts to move there, and with both clear nothing does; a new epoch begins, with nothing counted. The
remap, once every granule of the page has been copied, puts the page at its new place, counts the move and changes no
byte. -/
def Sys2Proof.Claims.PageMigration : Prop :=
  ∀ s : State,
    (∀ counts : List PageCount, s.cycle < s.engine.epochStart + 1250000 → exec (.migrationEpochEnd counts) s = .next s) ∧
    (∀ counts : List PageCount, s.engine.epochStart + 1250000 ≤ s.cycle →
      getb s Reg.placePolicy 31 = false → getb s Reg.placePolicy 30 = false →
      ∃ t, exec (.migrationEpochEnd counts) s = .next t ∧ t = { s with engine := t.engine } ∧
        t.engine.epochStart = s.cycle ∧ t.engine.byTile = [] ∧ t.engine.byModule = [] ∧ t.engine.cache = s.engine.cache) ∧
    (∀ (counts : List PageCount) (id j tile n : Nat) (h : Handle), s.engine.epochStart + 1250000 ≤ s.cycle →
      getb s Reg.placePolicy 31 = true → getb s Reg.placePolicy 30 = false → countedPages s counts = [(id, j)] →
      mayMigrate s id j = true → findHandle s id = some h → hotTile (pageTotals s counts id j).1 = some (tile, n) →
      let up := (placeOf s h j).tier - 1
      64 * max 1 (getf s Reg.placePolicy 7 0) ≤ n → 1 ≤ (placeOf s h j).tier → (placeOf s h j).tier ≤ 2 →
      inService s tile = true → usedPages s tile up 0 < tilePages s up →
      ∃ t, exec (.migrationEpochEnd counts) s = .next t ∧
        t.copies = s.copies ++ [⟨h.id, j, ⟨ownId s, up, tile⟩, tile, none, 0, [], s.cycle⟩] ∧
        t = { s with copies := t.copies, engine := t.engine }) ∧
    (∀ (counts : List PageCount) (id j m : Nat), s.engine.epochStart + 1250000 ≤ s.cycle →
      getb s Reg.placePolicy 31 = false → getb s Reg.placePolicy 30 = true → countedPages s counts = [(id, j)] →
      mayMigrate s id j = true → remoteHot s (pageTotals s counts id j).2 = [m] →
      let old := ((((smGet [] (pageKey id j) s.engine.epochRuns).find? fun p => p.1 == m).map (·.2)).getD 0)
      ∃ t, exec (.migrationEpochEnd counts) s = .next t ∧
        smGet [] (pageKey id j) t.engine.epochRuns = [(m, 1 + old)] ∧
        (1 + old < max 1 (getf s Reg.placePolicy 23 16) → t = { s with engine := t.engine }) ∧
        (max 1 (getf s Reg.placePolicy 23 16) ≤ 1 + old → ∃ c, t.copies = s.copies ++ [c] ∧ c.handle = id ∧ c.page = j ∧
          c.dest = ⟨m, 2, 0⟩ ∧ c.start = s.cycle ∧ t = { s with copies := t.copies, engine := t.engine, free := t.free })) ∧
    (∀ (id : Word) (page : Nat) (c : PageCopy) (h : Handle),
      (s.copies.find? fun c => c.handle == id.toNat && c.page == page) = some c → findHandle s id.toNat = some h →
      ((c.issued < pageGranules h page ∨ c.outstanding ≠ []) → exec (.pageRemap id page) s = .next s) ∧
      (pageGranules h page ≤ c.issued → c.outstanding = [] → c.dest.tier ≤ 2 → s.host.waiting = [] →
        ∃ t, exec (.pageRemap id page) s = .next t ∧ placeOf t h page = c.dest ∧ c ∉ t.copies ∧
          get64 t Reg.migrated = (get64 s Reg.migrated + 1) % 2 ^ 64 ∧
          (∀ o, o ≠ Reg.migrated → o ≠ Reg.migrated + 4 → getReg t o = getReg s o) ∧
          t = { s with regs := t.regs, places := t.places, copies := t.copies })) ∧
    (∀ (id : Word) (page : Nat), (s.copies.find? fun c => c.handle == id.toNat && c.page == page) = none →
      exec (.pageRemap id page) s = .next s)

/-- MOVE TIER (R192 to R194, R196, R282, R398): it waits while a page may not move; RELEASE and PIN leave their pin to the
commit; a page that does not lie in the named tier is copied there first, and the work is done once no copy of its own is under
way; a pin whose space has been taken fails with PIN_FAILED and sets none, and a buffer with a lost page fails with
PAGE_LOST. -/
def Sys2Proof.Claims.TierMoves : Prop :=
  ∀ (s : State) (d : DescRef) (sb : Sub) (x : BitVec 1024) (r : Run) (h : Handle), bodyDue s d sb x r → dFamily x = 4 →
    dVariant x = 3 →
    let w := dFw x 3
    let id := vHandle (slotView (runViews sb x r) x 0)
    let tier := fld w 1 0
    let pin : Pin := ⟨tier, bitOf w 2, dAffinity x⟩
    findHandle s id = some h → h.kind = 0 → 0 ∉ r.counts → s.copies = [] →
    let mayMove := ∀ j, j < pagesOf h.size → pageFree s (some d) id j = true
    let done := fun (t : State) (p : Option (Nat × Option Pin)) => t.handles = s.handles ∧ t.places = s.places ∧
      t.mem = s.mem ∧ ∃ sb' r', findDesc t d = some (sb', x, r') ∧ r'.phase = .computed ∧ r'.code = 0 ∧ r'.pinNew = p
    (r.tierBegun = true → bitOf w 3 = true → ∃ t, exec (.moveTier d) s = .next t ∧ done t (some (id, some pin))) ∧
    (r.tierBegun = false →
      ((¬ mayMove ∨ (tier = 2 ∧ memState s ≠ 2)) → exec (.moveTier d) s = .next s) ∧
      (mayMove → tier ≠ 2 → h.lost ≠ [] → ∃ t sb' r', exec (.moveTier d) s = .next t ∧
        findDesc t d = some (sb', x, r') ∧ r'.code = 0x080B ∧ t = { s with alms := t.alms }) ∧
      (h.lost = [] →
        (mayMove → tier = 3 → bitOf w 3 = false → bitOf w 4 = true →
          ∃ t, exec (.moveTier d) s = .next t ∧ done t (some (id, none))) ∧
        (mayMove → tier = 3 → bitOf w 3 = true → bitOf w 4 = false →
          ∃ t, exec (.moveTier d) s = .next t ∧ done t (some (id, some pin))) ∧
        (mayMove → tier = 2 → memState s = 2 → bitOf w 3 = true → bitOf w 4 = false → heldNear s id = false →
          ((∀ j ∈ livePages h, placeOf s h j = ⟨ownId s, 2, 0⟩) →
            ∃ t, exec (.moveTier d) s = .next t ∧ done t (some (id, some pin))) ∧
          (∀ j, livePages h = [j] → (placeOf s h j).module = ownId s → (placeOf s h j).tier ≤ 1 → lpddrRoom s = true →
            ∃ t c sb' r', exec (.moveTier d) s = .next t ∧ t.copies = [c] ∧ c.handle = h.id ∧ c.page = j ∧
              c.dest = ⟨ownId s, 2, 0⟩ ∧ c.owner = some d ∧ findDesc t d = some (sb', x, r') ∧ r'.phase = .running ∧
              r'.tierBegun = true ∧ t = { s with alms := t.alms, copies := t.copies })) ∧
        (mayMove → tier ≤ 1 → bitOf w 3 = true → bitOf w 4 = false →
          freePages s (pinTiles s (dAffinity x) (bitOf w 2)) tier h.id < pagesOf h.size →
          ∃ t, exec (.moveTier d) s = .next t ∧ findHandle t id = some { h with pin := none } ∧ t.mem = s.mem ∧
            t.places = s.places ∧ ∃ sb' r', findDesc t d = some (sb', x, r') ∧ r'.code = 0x0406)))

/-- The Hedgerow (R198, R199). A route by columns or rows first goes from any tile to any other in as many hops as their
columns and rows lie apart. While commands wait nothing moves; in a core cycle no input queue ever comes to hold more than 16
flits. A flit handed to a tile waits behind those before it on its channel. -/
def Sys2Proof.Claims.HedgerowRoutesAndQueues : Prop :=
  (∀ (a b : TileIx) (rowFirst : Bool), a ≠ b →
    let l := routeTiles b.val rowFirst 68 a.val
    l.getLast? = some b.val ∧ l.length = tileHops a.val b.val ∧ ∀ v ∈ l, v < 1152) ∧
  (∀ s t : State, s.pending = [] → s.mgmt.tileResetJob = none → (∀ k, (smGet [] k s.hedge.queues).length ≤ 16) →
    step s = .next t → ∀ k, (smGet [] k t.hedge.queues).length ≤ 16) ∧
  (∀ (s : State) (f : Flit), smGet [] (4 * f.src + f.ch) (hedgeSend s f).hedge.waiting =
    smGet [] (4 * f.src + f.ch) s.hedge.waiting ++ [f])

/-- Seam links and multicast (R201 to R204, R463): a replay counts on its sender up to 255 and keeps the link for 8 cycles;
after 16 in a row that failed the link waits for its retraining, whose end records lost flits as LINK_FAULT, one failed half
as LINK_DEGRADED_SEAM, and two as SEAM_FAILED, which halts every almanac. The first send for a tree entry opens a stream; a
granule that has been read goes to all receivers together once all have credited it, a lone receiver without credit counts
the cycle, and a receiver beyond HDG_LAG_THRESH is recorded once. -/
def Sys2Proof.Claims.SeamLinksAndMulticast : Prop :=
  ∀ (s : State) (t : TileIx),
    (∀ dir, crossesSeam t.val dir = false → exec (.seamReplay t dir) s = .next s ∧
      ∀ n lost, exec (.linkRetrainEnd t dir n lost) s = .next s) ∧
    (∀ dir, crossesSeam t.val dir = true →
      let k := linkOf t.val dir
      let failed := k ∈ s.hedge.failed ∨ 16 ≤ smGet 0 k s.hedge.replays
      (k ∈ s.hedge.failed → exec (.seamReplay t dir) s = .next s) ∧
      (k ∉ s.hedge.failed → smGet 0 k s.hedge.replays < 16 →
        (∃ u, exec (.seamReplay t dir) s = .next u ∧
          getf u (tileR t.val 0x820) (dirShift dir + 7) (dirShift dir) =
            min 255 (getf s (tileR t.val 0x820) (dirShift dir + 7) (dirShift dir) + 1) ∧
          smGet 0 k u.hedge.replays = smGet 0 k s.hedge.replays + 1 ∧ smGet 0 k u.hedge.busy = s.cycle + 8 ∧
          u = { s with regs := u.regs, hedge := u.hedge } ∧ ∀ o, o ≠ tileR t.val 0x820 → getReg u o = getReg s o) ∧
        ∀ n lost, exec (.linkRetrainEnd t dir n lost) s = .next s) ∧
      (k ∉ s.hedge.failed → 16 ≤ smGet 0 k s.hedge.replays →
        ∃ u, exec (.seamReplay t dir) s = .next u ∧ k ∈ u.hedge.failed ∧ u = { s with hedge := u.hedge }) ∧
      (failed →
        (∃ u, exec (.linkRetrainEnd t dir 0 false) s = .next u ∧ k ∉ u.hedge.failed ∧
          smGet 0 k u.hedge.replays = 0 ∧ u = { s with hedge := u.hedge }) ∧
        (∃ u, exec (.linkRetrainEnd t dir 0 true) s = .next u ∧ logged s u 3 0x0F03 t.val (dirNumber dir) ∧
          u.alms = s.alms ∧ u.mem = s.mem) ∧
        (∃ u, exec (.linkRetrainEnd t dir 1 false) s = .next u ∧ logged s u 4 0x0F11 t.val (dirNumber dir) ∧
          k ∈ u.hedge.half ∧ u.alms = s.alms ∧ u.mem = s.mem ∧ getb u Reg.alertCause 6 = true) ∧
        (∃ u, exec (.linkRetrainEnd t dir 2 false) s = .next u ∧ logged s u 4 0x0F12 t.val (dirNumber dir) ∧
          u.seamFailed = true ∧ k ∈ u.hedge.failed ∧ u.mem = s.mem ∧
          (∀ a, a < 256 → (getAlm u a).halted = true ∧ getf u (almR a 0x1C) 15 0 = 0x0F12 ∧ getb u (almR a 0x20) 2 = true) ∧
          ∀ d sb x r, findDesc s d = some (sb, x, r) → (r.phase = .running ∨ r.phase = .computed) → r.code = 0 →
            ∃ sb' r', findDesc u d = some (sb', x, r') ∧ r'.code = 0x0F12))) ∧
    (∀ (entry : BitVec 6) (route : DWord) (d : DescRef) (slot : BitVec 3) (credits : List Nat),
      (treeReceivers route.toNat = [] → exec (.multicastGranuleSend t entry route d slot credits) s = .next s) ∧
      (∀ u, treeReceivers route.toNat ≠ [] → ((getTile s t.val).streams.find? fun m => m.entry == entry.toNat) = none →
        openStream (setRoute s t.val entry.toNat route.toNat) t.val entry.toNat d slot.toNat
          (treeReceivers route.toNat) = some u →
        exec (.multicastGranuleSend t entry route d slot credits) s = .next u ∧
          (∃ m ∈ (getTile u t.val).streams, m.entry = entry.toNat ∧ m.owner = d ∧ m.slot = slot.toNat ∧ m.next = 0 ∧
            m.loaded = false ∧ m.credits = [] ∧ m.lagged = []) ∧
          (∃ p ∈ (getTile s t.val).threads, p.1 = d) ∧ u.mem = s.mem ∧ u.sent = s.sent)) ∧
    (∀ (entry : BitVec 6) (route : DWord) (d : DescRef) (slot : BitVec 3) (m : Stream), treeReceivers route.toNat ≠ [] →
      ((getTile s t.val).streams.find? fun m => m.entry == entry.toNat) = some m →
      let rs := treeReceivers (smGet 0 entry.toNat (getTile s t.val).routes)
      let send := exec (.multicastGranuleSend t entry route d slot []) s
      (m.loaded = false → send = .next s) ∧
      (m.loaded = true → (∀ r ∈ rs, r ∈ granted s t.val m) →
        ∃ u, send = .next u ∧ u.sent = s.sent ++ [Sent.granule t.val entry.toNat m.next rs] ∧ u.mem = s.mem ∧
          u.regs = s.regs ∧ u.alms = s.alms) ∧
      (∀ w, m.loaded = true → m.heldBy = none → rs.filter (fun r => !(granted s t.val m).contains r) = [w] →
        ∃ u, send = .next u ∧ get64 u (tileR w 0x830) = (get64 s (tileR w 0x830) + 1) % 2 ^ 64 ∧ u.sent = s.sent ∧
          u.mem = s.mem ∧ ∀ o, o ≠ tileR w 0x830 → o ≠ tileR w 0x834 → getReg u o = getReg s o) ∧
      (m.loaded = true → 2 ≤ (rs.filter fun r => !(granted s t.val m).contains r).length →
        ∃ u, send = .next u ∧ u = { s with tiles := u.tiles })) ∧
    (∀ (entry : BitVec 6) (w : TileIx) (m : Stream),
      ((getTile s t.val).streams.find? fun m => m.entry == entry.toNat) = some m →
      let th := getf s (tileR t.val 0x824) 31 0
      ((th = 0 ∨ w.val ∈ m.lagged ∨ m.heldBy = none) → exec (.mcastLag t entry w) s = .next s) ∧
      (∀ n c, m.heldBy = some (w.val, n, c) → (n ≤ th → exec (.mcastLag t entry w) s = .next s) ∧
        (th ≠ 0 → th < n → w.val ∉ m.lagged →
          let word := 2 ^ 31 + entry.toNat * 2 ^ 21 + w.val / 32 * 2 ^ 15 + w.val % 32 * 2 ^ 10
          ∃ u, exec (.mcastLag t entry w) s = .next u ∧ logged s u 0 0x0405 t.val word ∧
            (getb s (tileR t.val 0x828) 31 = false → getReg u (tileR t.val 0x828) = BitVec.ofNat 32 word) ∧
            (getb s (tileR t.val 0x828) 31 = true → getReg u (tileR t.val 0x828) = getReg s (tileR t.val 0x828)) ∧
            (∃ m' ∈ (getTile u t.val).streams, m'.entry = entry.toNat ∧ w.val ∈ m'.lagged) ∧ u.mem = s.mem ∧
            u.alms = s.alms)))

end
section
open Sys2Proof Sys2Proof.Machine Sys2Proof.Claims

/-! Host link, windows and pools. -/

/-- The host link and its functions (R255 to R261, R264): once ROM boot has ended a settled link shows its speed, width and
the replays met, and its corrected errors reach AER; one that is slower or narrower than full is recorded, and below
8 GT/s or ×8 only the recovery personality is served, without virtual functions. Configuration space gives each function
what the spec lists, keeps what the host writes within a field's limits and clears AER's errors where 1 is written. D3hot
and AtomicOps are as PCIe has them, and an unmasked vector sends the message it held if its condition still stands. -/
def Sys2Proof.Claims.HostLinkAndVectors : Prop :=
  ∀ s : State,
    (∀ (speed : BitVec 4) (width : BitVec 5) (flit : Bool) (replays : Nat) (corrected : BitVec 16),
      (s.power.romBooted = false → exec (.linkSettled speed width flit replays corrected) s = .next s) ∧
      (s.power.romBooted = true →
        ∃ t, exec (.linkSettled speed width flit replays corrected) s = .next t ∧
        getf t Reg.hostLink 27 24 = speed.toNat ∧
        getf t Reg.hostLink 23 19 = width.toNat ∧ getb t Reg.hostLink 28 = flit ∧
        getf t Reg.hostLink 15 0 = min 0xFFFF (getf s Reg.hostLink 15 0 + replays) ∧
        configField t 0 .aerCorrected = (configField s 0 .aerCorrected ||| corrected.toNat) ∧
        t.mem = s.mem ∧ t.alms = s.alms ∧
        (6 ≤ speed.toNat → 16 ≤ width.toNat →
          t = { s with regs := t.regs, host := { s.host with degraded := false, config := t.host.config } } ∧
          ∀ o, o ≠ Reg.hostLink → getReg t o = getReg s o) ∧
        ((speed.toNat < 6 ∨ width.toNat < 16) → logged s t 0 0x080C (ownId s) 0) ∧
        (3 ≤ speed.toNat → 8 ≤ width.toNat → isNormal t = isNormal s ∧ t.host.vfActive = s.host.vfActive) ∧
        ((speed.toNat < 3 ∨ width.toNat < 8) →
          isNormal t = false ∧ t.host.degraded = true ∧ t.host.vfActive = false))) ∧
    (∀ fn : Fn, configInfo s fn.val .deviceId = (if fn.val = 0 then 0xB152 else 0xB153) ∧
      configInfo s fn.val .noSoftReset = 1 ∧ configInfo s fn.val .payloadMax = 512 ∧
      configInfo s fn.val .firstVfOffset = (if s.host.ari then 1 else 8) ∧
      (Capability.doe ∈ capabilities fn.val ↔ fn.val = 0) ∧ Capability.aer ∈ capabilities fn.val) ∧
    (∀ (fn : Fn) (d3 : Bool) (writes : List (CfgField × DWord)), ∃ t,
      exec (.dStateChange fn d3 writes) s = .next t ∧ (fn.val ∈ t.host.d3hot ↔ d3 = true) ∧
      (∀ m, m ≠ fn.val → (m ∈ t.host.d3hot ↔ m ∈ s.host.d3hot)) ∧
      (∀ (g : Fn) (f : CfgField), (g = fn → ∀ w ∈ writes, w.1 ≠ f) → configField t g.val f = configField s g.val f) ∧
      (∀ f v, writes = [(f, v)] → configField t fn.val f =
        if f = .aerCorrected then (configField s fn.val f &&& (2 ^ 16 - 1 - v.toNat % 2 ^ 16))
        else configKeeps fn.val f v.toNat) ∧
      t = { s with host := { s.host with d3hot := t.host.d3hot, config := t.host.config } }) ∧
    (∀ fn : Fn, exec (.atomicopRequest fn) s = .next { s with sent := s.sent ++ [Sent.unsupportedRequest] }) ∧
    (∀ (fn : Fn) (vec : BitVec 9),
      ((vectorCount fn.val ≤ vec.toNat ∨ fn.val ∈ s.host.d3hot) → exec (.vectorUnmask fn vec) s = .next s) ∧
      (vec.toNat < vectorCount fn.val → fn.val ∉ s.host.d3hot →
        ∃ t, exec (.vectorUnmask fn vec) s = .next t ∧ msixMasked t fn.val vec.toNat = false ∧
          msixPending t fn.val vec.toNat = false ∧
          t.sent = (if msixPending s fn.val vec.toNat && vectorCond fn.val vec.toNat s
            then s.sent ++ [Sent.msix fn.val vec.toNat] else s.sent) ∧
          t = { s with sent := t.sent, host := { s.host with msix := t.host.msix,
                                                             personalityMsg := t.host.personalityMsg } }))

/-- Handle windows and the pool aperture (R266 to R268): ENABLE binds a window to a live handle open to the function with
OFFSET inside it, or reports why not. Through a bound window an access reaches the handle's bytes; past the end, through
a disabled window or in a lost page it reads 0xFF and sets its mark, a write to a read-only window is discarded, and an
access to a page that is being copied waits for it (R197). An aperture request is served for a member of the formed pool
only, and in the recovery personality BAR2 reads all ones (R265). -/
def Sys2Proof.Claims.HandleWindows : Prop :=
  ∀ (s : State) (fn : Fn) (w : BitVec 8), w.toNat < windowCount fn.val →
    let r := winR fn.val w.toNat 4
    let id := getf s (winR fn.val w.toNat 0) 31 0
    let at_ := winOffset s fn.val w.toNat
    (∀ v : Word, getb s r 31 = false → v.getLsbD 31 = true →
      (openHandle s fn.val id = none → ∃ t, exec (.windowEnable fn w v) s = .next t ∧ getb t r 31 = false ∧
        getf t r 15 0 = 0x0303 ∧ onlyRegs s t (· = r)) ∧
      (∀ h, openHandle s fn.val id = some h →
        (h.size ≤ at_ → ∃ t, exec (.windowEnable fn w v) s = .next t ∧ getb t r 31 = false ∧ getf t r 15 0 = 0x0302 ∧
          onlyRegs s t (· = r)) ∧
        (at_ < h.size → ∃ t, exec (.windowEnable fn w v) s = .next t ∧ getb t r 31 = true ∧ getf t r 15 0 = 0 ∧
          onlyRegs s t (· = r)))) ∧
    (∀ v : Word, getb s r 31 = true → v.getLsbD 31 = false →
      ∃ t, exec (.windowEnable fn w v) s = .next t ∧ getb t r 31 = false ∧ onlyRegs s t (· = r)) ∧
    (∀ y : BitVec 28, fn.val ∉ s.host.d3hot → isNormal s = true →
      (∀ n, 1 ≤ n → n ≤ 4096 → (getb s r 31 = false ∨ findHandle s id = none) →
        ∃ t, exec (.windowAccess fn w y (.read n)) s = .next t ∧ t.host.readBytes = List.replicate n 0xFF ∧
          getb t r 17 = true ∧ t = { s with regs := t.regs, host := { s.host with readBytes := t.host.readBytes } } ∧
          ∀ o, o ≠ r → getReg t o = getReg s o) ∧
      (∀ h, getb s r 31 = true → findHandle s id = some h → h.kind = 0 →
        let off := at_ + y.toNat
        (∀ acc, 1 ≤ accLength acc → accLength acc ≤ 4096 → getb s r 30 = false → pageHeld s h off (accLength acc) = true →
          exec (.windowAccess fn w y acc) s =
            .next { s with host := { s.host with waiting := s.host.waiting ++ [(fn.val, w.toNat, y.toNat, acc)] } }) ∧
        (∀ n, 1 ≤ n → n ≤ 4096 → off + n ≤ h.size → rangeLost h off (off + n - 1) = false →
          badGranule s h.id off n = none → pageHeld s h off n = false →
          exec (.windowAccess fn w y (.read n)) s =
            .next { s with host := { s.host with readBytes := rdBytes s.mem (memKey h.id off) n } }) ∧
        (∀ n, 1 ≤ n → n ≤ 4096 → h.size ≤ off → pageHeld s h off n = false →
          ∃ t, exec (.windowAccess fn w y (.read n)) s = .next t ∧ t.host.readBytes = List.replicate n 0xFF ∧
            getb t r 17 = true ∧ t.mem = s.mem ∧ ∀ o, o ≠ r → getReg t o = getReg s o) ∧
        (∀ l : List Byte, 1 ≤ l.length → l.length ≤ 4096 → getb s r 30 = true →
          pageHeld s h off l.length = false →
          ∃ t, exec (.windowAccess fn w y (.write l)) s = .next t ∧ getb t r 16 = true ∧ onlyRegs s t (· = r)) ∧
        (∀ l : List Byte, 1 ≤ l.length → l.length ≤ 4096 → getb s r 30 = false → off + l.length ≤ h.size →
          rangeLost h off (off + l.length - 1) = false → badPart s h off l.length = none →
          pageHeld s h off l.length = false →
          ∃ t, exec (.windowAccess fn w y (.write l)) s = .next t ∧ t.mem = wrBytes s.mem (memKey h.id off) l ∧
            (∀ o, getReg t o = getReg s o) ∧ t.handles = s.handles ∧ t.host = s.host) ∧
        (byteLost h off = true → off < h.size → badGranule s h.id off 1 = none →
          pageHeld s h off 1 = false →
          ∃ t, exec (.windowAccess fn w y (.read 1)) s = .next t ∧ t.host.readBytes = [0xFF] ∧ getb t r 18 = true ∧
            t.mem = s.mem ∧ ∀ o, o ≠ r → getReg t o = getReg s o))) ∧
    (∀ (from_ : Option (BitVec 6)) (hid : Word) (off : Nat) (acc : Access),
      (isNormal s = false → ∀ n, acc = .read n → exec (.apertureRequest from_ hid off acc) s =
        .next { s with host := { s.host with readBytes := List.replicate n 0xFF } }) ∧
      (isNormal s = true → (∀ m, from_ = some m → isMember s m.toNat = false ∨ m.toNat = ownId s) ∨ (poolState s ≠ 2 ∧ poolState s ≠ 3) ∨
          findHandle s hid.toNat = none →
        exec (.apertureRequest from_ hid off acc) s = .next { s with sent := s.sent ++ [Sent.unsupportedRequest] }) ∧
      (∀ m h n, isNormal s = true → from_ = some m → acc = .read n → isMember s m.toNat = true → m.toNat ≠ ownId s → poolState s = 2 →
        findHandle s hid.toNat = some h → h.kind = 0 → off + n ≤ h.size → (∀ i, i < n → byteLost h (off + i) = false) →
        badGranule s h.id off n = none →
        exec (.apertureRequest from_ hid off acc) s =
          .next { s with host := { s.host with readBytes := rdBytes s.mem (memKey h.id off) n } }))

/-- Forming and joining a pool (R276 to R278, R283): FORM waits for DONE and then greets every other VALID entry; answers
that match are kept and others excluded; when all have answered, 16 or more members that reached each other form, fewer
return to unformed with POOL_SIZE, and a module alone in its table forms a pool of one. JOIN admits the module where the
steward's digest matches. -/
def Obligations.PoolFormation : Prop :=
  ∀ s : State,
    ((poolState s ≠ 0 ∨ isNormal s = false) → exec .form s = .next s) ∧
    (poolState s = 0 → isNormal s = true →
      (memState s = 3 → ∃ t, exec .form s = .next t ∧ poolState t = 0 ∧ getf t Reg.poolStatus 15 0 = 0x0C02 ∧
        onlyRegsAndMessages s t (· = Reg.poolStatus)) ∧
      (memState s ≠ 3 → peerValid s (ownId s) = false →
        ∃ t, exec .form s = .next t ∧ poolState t = 0 ∧ getf t Reg.poolStatus 15 0 = 0x0807 ∧
          onlyRegsAndMessages s t (· = Reg.poolStatus)) ∧
      (memState s ≠ 3 → peerValid s (ownId s) = true →
        (donePin s = false → ∃ t, exec .form s = .next t ∧ poolState t = 1 ∧ t.pool = { s.pool with formWait := true }) ∧
        (donePin s = true → duplicateId s = false →
          ∃ t, exec .form s = .next t ∧ poolState t = 1 ∧ t.pool.formWait = false ∧ t.pool.formAt = s.cycle ∧
            t.pool.answered = [] ∧ t.pool.excluded = [] ∧ t.mem = s.mem ∧
            ∀ i ∈ otherPeers s, Sent.greeting i (ownId s) (ownDigest s) ∈ t.sent) ∧
        (donePin s = true → duplicateId s = true →
          ∃ t, exec .form s = .next t ∧ poolState t = 5 ∧ getf t Reg.poolStatus 15 0 = 0x0806))) ∧
    (∀ (source id : BitVec 6) (digest : DWord) (admitted : Bool), (takesPart s = false ∨ memState s = 3) →
      exec (.poolGreeting source id digest admitted) s = .next s) ∧
    (∀ (source id : BitVec 6) (digest : DWord) (admitted : Bool), takesPart s = true →
      peerValid s source.toNat = true → source.toNat ≠ ownId s → memState s ≠ 3 →
      (poolState s = 1 → s.pool.formWait = false → source.toNat ∉ s.pool.answered → source.toNat ∉ s.pool.excluded →
        (id = source → digest.toNat = ownDigest s →
          exec (.poolGreeting source id digest admitted) s =
            .next { s with pool := { s.pool with answered := s.pool.answered ++ [source.toNat] } }) ∧
        ((id ≠ source ∨ digest.toNat ≠ ownDigest s) →
          ∃ t, exec (.poolGreeting source id digest admitted) s = .next t ∧ poolState t = 1 ∧
            t.pool = { s.pool with excluded := s.pool.excluded ++ [source.toNat] } ∧
            getf t Reg.poolStatus 15 0 = 0x0807 ∧ logged s t 0 0x0807 source.toNat 0)) ∧
      (poolState s = 2 → isMember s source.toNat = false → id = source → digest.toNat = ownDigest s →
        (s.pool.stewardLost = true ∨ (stewardId s ≠ ownId s ∧ admitted = false)) →
        exec (.poolGreeting source id digest admitted) s =
          .next { s with sent := s.sent ++ [Sent.greeting source.toNat (ownId s) (ownDigest s)] }) ∧
      (poolState s = 2 → isMember s source.toNat = false → id = source → digest.toNat = ownDigest s →
        s.pool.stewardLost = false → (stewardId s = ownId s ∨ admitted = true) →
        ∃ t, exec (.poolGreeting source id digest admitted) s = .next t ∧ poolState t = 2 ∧
          memberList t = (List.range 64).filter (fun i => isMember s i || i == source.toNat) ∧
          stewardId t = stewardId s ∧ deputyId t = deputyId s ∧
          Sent.greeting source.toNat (ownId s) (ownDigest s) ∈ t.sent)) ∧
    (∀ (lists : List (Nat × BitVec 64)) (late : Bool), poolState s = 1 → s.pool.formWait = false →
      let l := (List.range 64).filter fun i => i == ownId s || s.pool.answered.contains i
      ((∃ i ∈ otherPeers s, i ∉ s.pool.answered ∧ i ∉ s.pool.excluded) →
        (late = false ∨ s.cycle < s.pool.formAt + formTimeout s) → exec (.formationEnd lists late) s = .next s) ∧
      (otherPeers s = [] → ∃ t, exec (.formationEnd lists late) s = .next t ∧ poolState t = 2 ∧
        memberList t = [ownId s] ∧ stewardId t = ownId s ∧ onlyRegsAndMessages s t (fun o =>
          o = Reg.poolStatus ∨ o = Reg.poolStatus + 4 ∨ o = Reg.poolMembers ∨ o = Reg.poolMembers + 4)) ∧
      (otherPeers s ≠ [] → (∀ i ∈ otherPeers s, i ∈ s.pool.answered ∨ i ∈ s.pool.excluded) →
        (∀ i ∈ l, i ≠ ownId s → ∃ p, (lists.find? fun p => p.1 == i) = some p ∧
          ∀ j ∈ l, j ≠ i → p.2.getLsbD j = true) →
        ∃ t, exec (.formationEnd lists late) s = .next t ∧
          (l.length < 16 → poolState t = 0 ∧ getf t Reg.poolStatus 15 0 = 0x0805) ∧
          (16 ≤ l.length → poolState t = 2 ∧ memberList t = l ∧ stewardId t = l.headD 0))) ∧
    (∀ replies : List (Nat × DWord), (poolState s = 0 ∨ poolState s = 5) → isNormal s = true → memState s ≠ 3 →
      peerValid s (ownId s) = true → duplicateId s = false → (∀ p ∈ replies, p.1 < 64) →
      ∃ t, exec (.join replies) s = .next t ∧ t.mem = s.mem ∧
        (∀ i ∈ otherPeers s, Sent.greeting i (ownId s) (ownDigest s) ∈ t.sent) ∧
        (∀ st d rest, replies = (st, d) :: rest →
          (d.toNat = ownDigest s → poolState t = 2 ∧ stewardId t = st ∧
            memberList t = (List.range 64).filter fun i => i == ownId s || (replies.map (·.1)).contains i) ∧
          (d.toNat ≠ ownDigest s → poolState t = poolState s ∧ getf t Reg.poolStatus 15 0 = 0x0807 ∧
            logged s t 0 0x0807 st 0)))

/-- Leaving a pool and losing members (R280, R282, R285): LEAVE is refused while window handles or bound windows stand;
when its work has ended and its pages have moved the module shows left. A request that fails is retried, a member
unreachable for LOST_MS is removed with its pages lost and its roles passed on, a member that leaves in order loses no page, and a module that learns of its own
removal is isolated and loses its pages. -/
def Obligations.PoolMembership : Prop :=
  ∀ s : State,
    (poolState s ≠ 2 → exec .leave s = .next s) ∧
    (poolState s = 2 → leaveBusy s = true → ∃ t, exec .leave s = .next t ∧ poolState t = 2 ∧
      getf t Reg.poolStatus 15 0 = 0x0804 ∧ onlyRegsAndMessages s t (· = Reg.poolStatus)) ∧
    (poolState s = 2 → leaveBusy s = false → ∃ t, exec .leave s = .next t ∧ poolState t = 3 ∧
      onlyRegsAndMessages s t (· = Reg.poolStatus + 4)) ∧
    (poolState s ≠ 3 → exec .leavePagesMoved s = .next s) ∧
    (poolState s = 3 → (s.alms.any fun p => p.2.subs.any fun sb => !sb.finished) = false →
      (memberList s).filter (· != ownId s) ≠ [] →
      ∃ t, exec .leavePagesMoved s = .next t ∧ poolState t = 4 ∧ memberList t = [] ∧ t.mem = s.mem ∧
        t.handles = s.handles ∧ ∀ h ∈ s.handles, isWindow h = false → ∀ j ∈ livePages h, (placeOf t h j).module ≠ ownId s) ∧
    (∀ m : BitVec 6, (isMember s m.toNat = false ∨ m.toNat = ownId s) → ∀ ok,
      exec (.peerRequestRetry m ok) s = .next s) ∧
    (∀ m : BitVec 6, isMember s m.toNat = true → m.toNat ≠ ownId s →
      (∃ t, exec (.peerRequestRetry m true) s = .next t ∧ (∀ c, (m.toNat, c) ∉ t.pool.unreachable) ∧
        t = { s with pool := { s.pool with unreachable := t.pool.unreachable } }) ∧
      (∃ t, exec (.peerRequestRetry m false) s = .next t ∧ t.sent = s.sent ++ [Sent.retry m.toNat] ∧
        (∃ c, (m.toNat, c) ∈ t.pool.unreachable) ∧
        t = { s with sent := t.sent, pool := { s.pool with unreachable := t.pool.unreachable } }) ∧
      (∀ rep, (removalDue s m.toNat = false ∨ s.pool.stewardLost = true) →
        exec (.moduleRemoval m rep false) s = .next s) ∧
      (∀ rep, (poolState s = 2 ∨ poolState s = 3) →
        ∃ t, exec (.moduleRemoval m rep true) s = .next t ∧ memberList t = (memberList s).filter (· != m.toNat) ∧
          poolState t = poolState s ∧ t.mem = s.mem ∧ t.alms = s.alms ∧
          (∀ h ∈ s.handles, ∃ h' ∈ t.handles, h'.id = h.id ∧ h'.lost = h.lost) ∧
          (m.toNat = stewardId s → s.pool.stewardLost = false → stewardId t = deputyId s ∧
            getf t Reg.poolStatus 15 0 = 0x0809 ∧ logged s t 0 0x0809 (deputyId s) 0) ∧
          (m.toNat ≠ stewardId s → stewardId t = stewardId s ∧ getReg t Reg.logHead = getReg s Reg.logHead)) ∧
      (∀ rep, (poolState s = 2 ∨ poolState s = 3) → s.pool.stewardLost = false → removalDue s m.toNat = true → fencesOn s m.toNat = [] →
        (∀ b, b < 256 → getb s (barCfgR b) 31 = true → barHome s b ≠ m.toNat) →
        ∃ t, exec (.moduleRemoval m rep false) s = .next t ∧ memberList t = (memberList s).filter (· != m.toNat) ∧
          poolState t = poolState s ∧ t.mem = s.mem ∧ t.alms = s.alms ∧
          (∀ h ∈ s.handles, isWindow h = false → ∃ h' ∈ t.handles, h'.id = h.id ∧
            ∀ j ∈ livePages h, (placeOf s h j).module = m.toNat → j ∈ h'.lost) ∧
          (m.toNat ≠ stewardId s → m.toNat ≠ deputyId s → logged s t 0 0x0808 m.toNat 0 ∧
            getf t Reg.poolStatus 15 0 = 0x0808 ∧ stewardId t = stewardId s ∧ deputyId t = deputyId s) ∧
          (m.toNat = stewardId s → rep = false → stewardId t = deputyId s ∧ getf t Reg.poolStatus 15 0 = 0x0809 ∧
            getReg t Reg.logHead = getReg s Reg.logHead + 2) ∧
          (m.toNat = stewardId s → rep = true → t.pool.stewardLost = true ∧ getf t Reg.poolStatus 15 0 = 0x080A ∧
            getReg t Reg.logHead = getReg s Reg.logHead + 2)) ∧
      ((poolState s = 2 ∨ poolState s = 3) →
        ∃ t, exec (.removalNotice m) s = .next t ∧ poolState t = 5 ∧ getf t Reg.poolStatus 15 0 = 0x0808 ∧
          memberList t = [] ∧ t.mem = s.mem ∧ t.alms = s.alms ∧
          ∀ h ∈ s.handles, isWindow h = false → ∃ h' ∈ t.handles, h'.id = h.id ∧
            ∀ j ∈ livePages h, (placeOf s h j).module = ownId s → j ∈ h'.lost))

end
namespace Sys2Proof.Claims
open Sys2Proof Sys2Proof.Machine

/-- An event of a port: its LNK_EVENT bit is set, and it is logged in class 0 with the port, the lane or slot and the
meridian count (R459). -/
def portEvented (s t : State) (p bit code x : Nat) : Prop :=
  getb t (lnkR p 0x18) bit = true ∧ logged s t 0 code (p + 256 * x) s.meridian.cycleNo

/-- A front-end instruction's whole effect: the core becomes `c` with the next PC and one more cycle, SAT is raised where
`sat` holds, and nothing else of the module changes. -/
def fecDid (s t : State) (p : Nat) (c : Core) (sat : Prop) : Prop :=
  let c0 := (getPort s p).core
  let r := lnkR p 0x104
  (getPort t p).core = { c with pc := c0.next.pc, repLeft := c0.next.repLeft, cycles := c0.cycles + 1 } ∧
  { getPort t p with core := c0 } = getPort s p ∧ (∀ q, q ≠ p → getPort t q = getPort s q) ∧
  (getb t r 30 = true ↔ (sat ∨ getb s r 30 = true)) ∧ getf t r 29 0 = getf s r 29 0 ∧ getb t r 31 = getb s r 31 ∧
  t = { s with regs := t.regs, ports := t.ports } ∧ ∀ o, o ≠ r → getReg t o = getReg s o

/-- An accumulator takes a value, clamped to the 56-bit range (R301). -/
def fecAcc (c : Core) (i : Nat) (v : Int) : Core :=
  { c with acc := smSet 0 i (BitVec.ofInt 56 (max (-(2 ^ 55)) (min v (2 ^ 55 - 1)))) c.acc }

/-- The value lies outside the 56-bit range. -/
def fecOver (v : Int) : Prop := v < -(2 ^ 55) ∨ 2 ^ 55 - 1 < v

end Sys2Proof.Claims

section
open Sys2Proof Sys2Proof.Machine Sys2Proof.Claims

/-! Instrument lanes. -/

/-- Enabling and synchronising a link (R289 to R291, R293, R294): ENABLE with good parameters starts CGS and with bad ones
reports PORT_CONFIG; four K28.5 take a lane into use and four complements invert it, in resync once SYNCO has been low for 5 frames and 9
octets; an alignment sequence that agrees
names the logical lanes and one that does not sends the link to resync; the lanes are released together where the last
arrived in time. -/
def Obligations.LinkBringUp : Prop :=
  ∀ (s : State) (p : PortIx),
    let n := p.toNat
    (∀ (tx : Bool) (v : DWord), linkOn s n false = false → linkOn s n true = false → v.getLsbD 63 = true →
      ∃ t, exec (.linkEnable p tx v) s = .next t ∧ (linkParams t n tx).lanes = fld v.toNat 43 40 ∧
        (linkParams t n tx).m = fld v.toNat 39 36 + 1 ∧ (linkParams t n tx).f = fld v.toNat 35 32 + 1 ∧
        (linkParams t n tx).k = fld v.toNat 51 47 + 1 ∧ (linkParams t n tx).np = fld v.toNat 27 24 + 1 ∧
        (paramsOk t n tx = true → linkOn t n tx = true ∧ getf t (lnkR n 0x14) 7 0 = 0 ∧
          (if tx then txState t n else rxState t n) = 1) ∧
        (paramsOk t n tx = false → linkOn t n tx = false ∧ getf t (lnkR n 0x14) 7 0 = 0x0F) ∧
        t.mem = s.mem ∧ ∀ q, q ≠ n → getPort t q = getPort s q) ∧
    (∀ (tx : Bool) (v : DWord), linkOn s n tx = true →
      (v.getLsbD 63 = true → exec (.linkEnable p tx v) s = .next s) ∧
      (v.getLsbD 63 = false → ∃ t, exec (.linkEnable p tx v) s = .next t ∧ linkOn t n tx = false ∧
        (if tx then txState t n else rxState t n) = 0)) ∧
    (∀ (l : BitVec 3) (c : Bool), rxState s n ≠ 1 → (rxState s n ≠ 4 ∨
      laneOctets s n (s.cycle - (getPort s n).rxSince) < 5 * (linkParams s n false).f + 9) →
      exec (.laneCgs p l c) s = .next s) ∧
    (∀ l : BitVec 3, (rxState s n = 1 ∨ (rxState s n = 4 ∧
      5 * (linkParams s n false).f + 9 ≤ laneOctets s n (s.cycle - (getPort s n).rxSince))) → getb s Reg.instclk 31 = true →
      getb s (laneR n l.toNat) 31 = false → getb s (laneR n l.toNat) 30 = false →
      (∃ t, exec (.laneCgs p l true) s = .next t ∧ getb t (lnkR n 0x1C) (4 * l.toNat) = true ∧ rxState t n = 1 ∧
        ((getPort t n).lane l.toNat).inverted = true ∧
        ∀ o, o ≠ lnkR n 0x1C → o ≠ lnkR n 0x14 → getReg t o = getReg s o) ∧
      (getb s (laneR n l.toNat) 29 = false → (lanesInUse s n).length < (linkParams s n false).lanes →
        ∃ t, exec (.laneCgs p l false) s = .next t ∧ getb t (laneR n l.toNat) 29 = true ∧
          rxState t n = (if (getPort s n).lmfcAligned = true ∧
            (lanesInUse s n).length + 1 = (linkParams s n false).lanes then 2 else 1) ∧
          ∀ o, o ≠ laneR n l.toNat → o ≠ lnkR n 0x14 → getReg t o = getReg s o)) ∧
    (∀ xs : List LaneIlas, rxState s n = 2 → (xs.map (·.lane)).Nodup →
      (∀ i, i ∈ lanesInUse s n ↔ ∃ x ∈ xs, x.lane.toNat = i) →
      let c := linkParams s n false
      ((∀ x ∈ xs, ilasOk c x = true) → (xs.map (·.lid)).Nodup → xs.length = c.lanes →
        ∃ t, exec (.ilasCheck p xs) s = .next t ∧ rxState t n = 2 ∧ t.mem = s.mem ∧
          ∀ x ∈ xs, ((getPort t n).lane x.lane.toNat).logical = some (x.lid - c.lidBase) ∧
            getf t (laneR n x.lane.toNat) 28 24 = x.lid % 32) ∧
      ((∃ x ∈ xs, ilasOk c x = false) →
        ∃ t, exec (.ilasCheck p xs) s = .next t ∧ rxState t n = 4 ∧ lanesInUse t n = [] ∧
          portEvented s t n 1 0x0903 0 ∧ t.mem = s.mem)) ∧
    (∀ (l : List Nat) (first last : Nat), rxState s n = 2 → l.length = (lanesInUse s n).length →
      (∀ i ∈ lanesInUse s n, ((getPort s n).lane i).logical.isSome = true) → first ∈ l → last ∈ l →
      (∀ a ∈ l, first ≤ a ∧ a ≤ last) →
      ∃ t, exec (.laneRelease p l) s = .next t ∧ getf t (lnkR n 0x14) 23 16 = min 255 (last - first) ∧
        getf t (lnkR n 0x14) 15 8 = min 255 last ∧
        (last - first ≤ 256 → last ≤ getf s (lnkR n 0x10) 12 8 * (linkParams s n false).f → rxState t n = 3 ∧
          t = { s with regs := t.regs, ports := t.ports } ∧ (∀ o, o ≠ lnkR n 0x14 → getReg t o = getReg s o) ∧
          getPort t n = { getPort s n with rxSince := s.cycle } ∧ ∀ q, q ≠ n → getPort t q = getPort s q) ∧
        ((256 < last - first ∨ getf s (lnkR n 0x10) 12 8 * (linkParams s n false).f < last) → rxState t n = 4 ∧
          portEvented s t n 2 0x090D 0))

/-- SYSREF and SYNCI (R295, R296): ARM arms one alignment in one-shot mode, after which events are ignored; in continuous
mode an event off an LMFC boundary is recorded and, with SYSREF_REALIGN, resynchronises the port. A transmit link whose
SYNCI is high goes from K28.5 to its alignment sequence of four multiframes, with LIDs from LID_BASE, at the first LMFC
boundary, and then to data; SYNCI low for 5 frames and 9 octets brings it back to K28.5. -/
def Obligations.SysrefAndSync : Prop :=
  ∀ s : State,
    (∀ v : Word, ∃ t, exec (.sysrefArm v) s = .next t ∧ getb t Reg.sysref 31 = v.getLsbD 31 ∧
      t.sysrefArmed = (v.getLsbD 30 || s.sysrefArmed) ∧ t = { s with regs := t.regs, sysrefArmed := t.sysrefArmed } ∧
      ∀ o, o ≠ Reg.sysref → getReg t o = getReg s o) ∧
    (∀ off : BitVec 8, getb s Reg.instclk 31 = false → exec (.sysrefEvent off) s = .next s) ∧
    (∀ off : BitVec 8, getb s Reg.instclk 31 = true → getb s Reg.sysref 31 = false →
      (s.sysrefArmed = false → exec (.sysrefEvent off) s = .next s) ∧
      (s.sysrefArmed = true → ∃ t, exec (.sysrefEvent off) s = .next t ∧ t.sysrefArmed = false ∧
        getb t Reg.sysref 29 = true ∧
        (∀ p, p < 8 → (getPort t p).lmfcAligned = true ∧ (getPort t p).lmfcZero = s.cycle) ∧
        (∀ p : PortIx, rxState s p.toNat = 1 → (lanesInUse s p.toNat).length = (linkParams s p.toNat false).lanes →
          rxState t p.toNat = 2) ∧ t = { s with regs := t.regs, ports := t.ports, sysrefArmed := false })) ∧
    (∀ off : BitVec 8, getb s Reg.instclk 31 = true → getb s Reg.sysref 31 = true →
      ∃ t, exec (.sysrefEvent off) s = .next t ∧ t.mem = s.mem ∧
        (∀ p : PortIx, (linkOn s p.toNat false = true ∨ linkOn s p.toNat true = true) →
          (off.getLsbD p.toNat = false → (getPort t p.toNat).lmfcAligned = true) ∧
          (off.getLsbD p.toNat = true → getb t (lnkR p.toNat 0x18) 4 = true ∧
            (getb s (lnkR p.toNat 0x10) 19 = false → rxState t p.toNat = rxState s p.toNat ∧
              txState t p.toNat = txState s p.toNat) ∧
            (getb s (lnkR p.toNat 0x10) 19 = true → (getPort t p.toNat).lmfcAligned = true ∧
              (linkOn s p.toNat false = true → rxState t p.toNat = 4) ∧
              (linkOn s p.toNat true = true → txState t p.toNat = 1)))) ∧
        (∀ p : PortIx, linkOn s p.toNat false = false → linkOn s p.toNat true = false →
          getPort t p.toNat = getPort s p.toNat ∧ rxState t p.toNat = rxState s p.toNat) ∧
        (off = 0 → getReg t Reg.logHead = getReg s Reg.logHead)) ∧
    (∀ p : PortIx,
      (∃ t, exec (.synciRise p) s = .next t ∧ t = { s with ports := t.ports } ∧
        getPort t p.toNat = { getPort s p.toNat with synci := some ((getPort s p.toNat).synci.getD s.cycle) } ∧
        ∀ q, q ≠ p.toNat → getPort t q = getPort s q) ∧
      (∀ n, n < 5 * (linkParams s p.toNat true).f + 9 → exec (.synciLow p n) s = .next s) ∧
      (∀ n, 5 * (linkParams s p.toNat true).f + 9 ≤ n → (txState s p.toNat = 2 ∨ txState s p.toNat = 3) →
        ∃ t, exec (.synciLow p n) s = .next t ∧ txState t p.toNat = 1 ∧ rxState t p.toNat = rxState s p.toNat ∧
          portEvented s t p.toNat 7 0x090E 0 ∧ (getPort t p.toNat).synci = none ∧
          (∀ q, q ≠ p.toNat → getPort t q = getPort s q) ∧ t.mem = s.mem) ∧
      (∀ n, 5 * (linkParams s p.toNat true).f + 9 ≤ n → txState s p.toNat ≠ 2 → txState s p.toNat ≠ 3 →
        ∃ t, exec (.synciLow p n) s = .next t ∧ t = { s with ports := t.ports } ∧
          getPort t p.toNat = { getPort s p.toNat with synci := none } ∧
          ∀ q, q ≠ p.toNat → getPort t q = getPort s q) ∧
      (s.pending = [] → s.mgmt.tileResetJob = none → still s → (∀ e ∈ s.tiles, e.2.passes = []) →
        getb s Reg.instclk 31 = true →
        let q := linkParams s p.toNat true
        let x := getPort s p.toNat
        (∀ c, txState s p.toNat = 1 → x.synci = some c →
          (lmfcPassed { s with cycle := s.cycle + 1 } p.toNat true (max c x.txSince) = true →
            ∃ t, step s = .next t ∧ txState t p.toNat = 2 ∧
              Sent.ilas p.toNat 4 ((List.range q.lanes).map (ilasLane q)) ∈ t.sent) ∧
          (lmfcPassed { s with cycle := s.cycle + 1 } p.toNat true (max c x.txSince) = false →
            ∃ t, step s = .next t ∧ txState t p.toNat = 1)) ∧
        (txState s p.toNat = 2 →
          (4 * q.f * q.k ≤ laneOctets s p.toNat (s.cycle + 1 - x.txSince) →
            ∃ t, step s = .next t ∧ txState t p.toNat = 3) ∧
          (laneOctets s p.toNat (s.cycle + 1 - x.txSince) < 4 * q.f * q.k →
            ∃ t, step s = .next t ∧ txState t p.toNat = 2))))

/-- Lane faults and the instrument clock (R297 to R299): a lane that loses signal or lock goes down and its link to resync,
other ports untouched, and rejoins after 100 µs; 8 code errors in a microsecond or two misplaced /A/ resynchronise the
link; INSTCLK out of tolerance holds the links, their transmit lanes idle and SYNCO low, and loses LMFC alignment until 10 ms of
recovery. -/
def Obligations.LaneFaults : Prop :=
  ∀ s : State,
    (∀ (p : PortIx) (l : BitVec 3) (signal : Bool), let n := p.toNat
      getb s (laneR n l.toNat) 31 = false → getb s (laneR n l.toNat) 30 = false →
      ∃ t, exec (.laneDown p l signal) s = .next t ∧ getb t (laneR n l.toNat) (if signal then 31 else 30) = true ∧
        getb t (laneR n l.toNat) 29 = false ∧ getb t (lnkR n 0x1C) (4 * l.toNat) = false ∧
        portEvented s t n 0 0x0901 l.toNat ∧
        (getb s (laneR n l.toNat) 29 = true → (rxState s n = 2 ∨ rxState s n = 3) → rxState t n = 4) ∧
        (∀ q, q ≠ n → getPort t q = getPort s q) ∧ t.mem = s.mem) ∧
    (∀ (p : PortIx) (l : BitVec 3) (us : Nat), (us < 100 → exec (.laneRejoin p l us) s = .next s) ∧
      (100 ≤ us → ∃ t, exec (.laneRejoin p l us) s = .next t ∧ getf t (laneR p.toNat l.toNat) 31 30 = 0 ∧
        getf t (laneR p.toNat l.toNat) 29 0 = getf s (laneR p.toNat l.toNat) 29 0 ∧
        onlyRegs s t (· = laneR p.toNat l.toNat))) ∧
    (∀ (p : PortIx) (c : ResyncCause), rxState s p.toNat ≠ 3 → exec (.linkResync p c) s = .next s) ∧
    (∀ (p : PortIx) (l : BitVec 3) (k ns : Nat), rxState s p.toNat = 3 →
      (∃ t, exec (.linkResync p (.codeErrors l k ns)) s = .next t ∧ t.mem = s.mem ∧
        getf t (laneR p.toNat l.toNat) 15 0 = min (getf s (laneR p.toNat l.toNat) 15 0 + k) 65535 ∧
        (8 ≤ k → ns ≤ 1000 → rxState t p.toNat = 4 ∧ portEvented s t p.toNat 3 0x090E l.toNat) ∧
        ((k < 8 ∨ 1000 < ns) → rxState t p.toNat = 3 ∧ onlyRegs s t (· = laneR p.toNat l.toNat))) ∧
      (k < 2 → exec (.linkResync p (.misplacedA l k)) s = .next s) ∧
      (2 ≤ k → ∃ t, exec (.linkResync p (.misplacedA l k)) s = .next t ∧ rxState t p.toNat = 4 ∧
        portEvented s t p.toNat 3 0x090E l.toNat)) ∧
    (∀ (spread drift : Bool) (khz : BitVec 20), getb s Reg.instclk 31 = true →
      ∃ t, exec (.instclkFault spread drift khz) s = .next t ∧ getb t Reg.instclk 31 = false ∧
        getb t Reg.instclk 30 = spread ∧ getb t Reg.instclk 29 = drift ∧ getf t Reg.instclk 19 0 = khz.toNat ∧
        t.sysrefArmed = false ∧ getb t Reg.sysref 29 = false ∧ logged s t 0 0x0902 0 s.meridian.cycleNo ∧
        ∀ p : PortIx, (getPort t p.toNat).lmfcAligned = false ∧ pinSynco t p.toNat ≠ .high ∧
          (s.power.pwrOk = true → ∀ i, txLane t p.toNat i = .idle) ∧
          (linkOn s p.toNat false = true → rxState t p.toNat = 1) ∧
          (linkOn s p.toNat true = true → txState t p.toNat = 1)) ∧
    (∀ (khz : BitVec 20) (ms : Nat), getb s Reg.instclk 31 = false →
      (ms < 10 → exec (.instclkRecovery khz ms) s = .next s) ∧
      (10 ≤ ms → ∃ t, exec (.instclkRecovery khz ms) s = .next t ∧ getb t Reg.instclk 31 = true ∧
        getf t Reg.instclk 19 0 = khz.toNat ∧ onlyRegs s t (· = Reg.instclk)))

/-! Front-end cores. -/

/-- RUN, batches and invocations (R301, R303, R304, R306): RUN with a good batch length and frame ring clears the core and
runs it, and otherwise reports PORT_CONFIG. Samples enter Y whether or not the core runs, and a batch that
they complete makes or queues one invocation, the newer in favour of a waiting one with FEC_OVERRUN, none outside the window. An invocation starts with PC 0 and D7 set,
every other register kept. -/
def Obligations.FrontEndInvocations : Prop :=
  ∀ (s : State) (p : PortIx),
    let n := p.toNat
    let c := (getPort s n).core
    (∀ v : Word, getb s (fecR n) 31 = false → v.getLsbD 31 = true →
      let good := 0 < fld v.toNat 29 16 ∧ fld v.toNat 29 16 ≤ 8192 ∧ 0 < fld v.toNat 15 0 ∧
        (linkParams s n false).m * fld v.toNat 29 16 ≤ 8192 ∧ frameRingOk s n = true
      (good → ∃ t, exec (.fecRun p v) s = .next t ∧ getb t (fecR n) 31 = true ∧
        getf t (fecR n) 29 16 = fld v.toNat 29 16 ∧ getf t (fecR n) 15 0 = fld v.toNat 15 0 ∧
        (getPort t n).core = { c with acc := [], d := [], addr := [], frameNo := 0, emitted := false, waiting := none } ∧
        (∀ o, o ≠ fecR n → getReg t o = getReg s o) ∧ t = { s with regs := t.regs, ports := t.ports }) ∧
      (¬ good → ∃ t, exec (.fecRun p v) s = .next t ∧ getb t (fecR n) 31 = false ∧ getf t (lnkR n 0x14) 7 0 = 0x0F ∧
        onlyRegs s t (fun o => o = fecR n ∨ o = lnkR n 0x14))) ∧
    (∀ v : Word, getb s (fecR n) 31 = true → v.getLsbD 31 = false →
      ∃ t, exec (.fecRun p v) s = .next t ∧ getb t (fecR n) 31 = false ∧ (getPort t n).core.waiting = none) ∧
    (∀ first xs, rxState s n ≠ 3 → exec (.batchComplete p first xs) s = .next s) ∧
    (∀ (j : Nat) (cv : BitVec 4) (x : BitVec 16), rxState s n = 3 → cv.toNat < (linkParams s n false).m →
      let len := getf s (fecR n) 29 16
      let bits := (linkParams s n false).n
      len ≠ 0 → cv.toNat * len + j % len < 8192 →
      (∀ first, (first = none ∨ getb s (fecR n) 31 = false) →
        ∃ t, exec (.batchComplete p first [(cv, j, x)]) s = .next t ∧ t = { s with ports := t.ports } ∧
          (getPort t n).core = { c with y := (getPort t n).core.y } ∧
          smGet 0 (cv.toNat * len + j % len) (getPort t n).core.y =
            BitVec.ofNat 24 ((x.toNat % 2 ^ bits) <<< (24 - bits)) ∧
          ∀ i, i ≠ cv.toNat * len + j % len → smGet 0 i (getPort t n).core.y = smGet 0 i c.y) ∧
      (∀ first : Nat, getb s (fecR n) 31 = true →
      ∃ t, exec (.batchComplete p (some first) [(cv, j, x)]) s = .next t ∧
        smGet 0 (cv.toNat * len + j % len) (getPort t n).core.y =
          BitVec.ofNat 24 ((x.toNat % 2 ^ bits) <<< (24 - bits)) ∧
        (∀ i, i ≠ cv.toNat * len + j % len → smGet 0 i (getPort t n).core.y = smGet 0 i c.y) ∧ t.mem = s.mem ∧
        (inWindow s n (mtrPhase s) = true → (getPort t n).core.waiting = some (first % len, mtrStamp s) ∧
          (c.waiting.isSome = true → portEvented s t n 5 0x0909 0) ∧
          (c.waiting = none → t = { s with ports := t.ports })) ∧
        (inWindow s n (mtrPhase s) = false → (getPort t n).core.waiting = c.waiting ∧ t = { s with ports := t.ports }))) ∧
    ((c.waiting = none ∨ c.running = true) → exec (.fecInvocation p) s = .next s) ∧
    (∀ pos st, c.waiting = some (pos, st) → c.running = false →
      ∃ t, exec (.fecInvocation p) s = .next t ∧ (getPort t n).core =
          { c with running := true, pc := 0, cycles := 0, batch := some (pos, st), waiting := none, repLeft := 0,
                   d := smSet 0 7 (BitVec.ofNat 24 pos) c.d } ∧
        t = { s with ports := t.ports } ∧ ∀ q, q ≠ n → getPort t q = getPort s q)

/-- The front-end arithmetic (R301, R302, R307): the accumulator instructions take the exact result clamped to the 56-bit
range and raise SAT where it was clamped; RND rounds to 24 bits, ties to even; memory operands are post-modified; each
takes one cycle and changes nothing else. MAC2 with an odd XR or YR names no pair and stops. A core executes the
instruction that its program holds at PC, and none while it runs no invocation. -/
def Obligations.FrontEndArithmetic : Prop :=
  ∀ (s : State) (p : PortIx),
    let n := p.toNat
    let c := (getPort s n).core
    let w := c.word
    (∀ (d2 s2 x y : BitVec 2) (d3 s3 : BitVec 3) (i6 : BitVec 6) (i24 : BitVec 24) (i13 : BitVec 13) (i16 : BitVec 16)
      (i11 : BitVec 11) (par : Parity), ∀ e ∈ [(Instr.fecNop p, 0x00), (.fecEnd p, 0x01), (.rep p i6 i16, 0x02),
          (.clr p d2, 0x08), (.mac p d2 x y, 0x09), (.mac2 p d2 0 0, 0x0A), (.mac2 p d2 2 0, 0x0A), (.msu p d2 x y, 0x0B),
          (.macd p d2 s3 x, 0x0C), (.ldx p d3 x par, 0x10), (.ldy p d3 y, 0x11), (.sty p s3 y, 0x12), (.ldi p d3 i24, 0x13),
          (.adda p d2 s2, 0x18), (.sha p d2 i6, 0x19), (.rnd p d3 s2, 0x1A), (.mova p d2 s3, 0x1B), (.out p 0 s3, 0x20),
          (.emit p i11, 0x21), (.seta p d3 i13, 0x28), (.setm p d3 i13, 0x29), (.setn p d3 i13, 0x2A)],
      (c.running = false ∨ w.op ≠ e.2) → exec e.1 s = .next s) ∧
    (∀ dst xr yr, ¬ (xr.getLsbD 0 = false ∧ yr.getLsbD 0 = false) → exec (.mac2 p dst xr yr) s = .fault .noSuchPlace) ∧
    (c.running = true →
      (∀ dst : BitVec 2, w.op = 0x08 → w.dst = dst.toNat → ∃ t, exec (.clr p dst) s = .next t ∧ fecDid s t n (fecAcc c dst.toNat 0) False) ∧
      (∀ dst xr yr : BitVec 2, w.dst = dst.toNat → w.xr = xr.toNat → w.yr = yr.toNat →
        let prod := (xWord s n c xr.toNat).toInt * (yWord c yr.toNat).toInt
        let moved := (c.bump xr.toNat).bump (4 + yr.toNat)
        (w.op = 0x09 → ∃ t, exec (.mac p dst xr yr) s = .next t ∧
          fecDid s t n (fecAcc moved dst.toNat (c.getAcc dst.toNat + prod)) (fecOver (c.getAcc dst.toNat + prod))) ∧
        (w.op = 0x0B → ∃ t, exec (.msu p dst xr yr) s = .next t ∧
          fecDid s t n (fecAcc moved dst.toNat (c.getAcc dst.toNat - prod)) (fecOver (c.getAcc dst.toNat - prod)))) ∧
      (∀ dst xr yr : BitVec 2, xr.getLsbD 0 = false → yr.getLsbD 0 = false →
        w.op = 0x0A → w.dst = dst.toNat → w.xr = xr.toNat → w.yr = yr.toNat →
        let sum := c.getAcc dst.toNat + (xWord s n c xr.toNat).toInt * (yWord c yr.toNat).toInt +
          (xWord s n c (xr.toNat + 1)).toInt * (yWord c (yr.toNat + 1)).toInt
        ∃ t, exec (.mac2 p dst xr yr) s = .next t ∧ fecDid s t n
          (fecAcc ((((c.bump xr.toNat).bump (xr.toNat + 1)).bump (4 + yr.toNat)).bump (5 + yr.toNat)) dst.toNat sum)
          (fecOver sum)) ∧
      (∀ (dst : BitVec 2) (src : BitVec 3) (xr : BitVec 2),
        w.op = 0x0C → w.dst = dst.toNat → w.src = src.toNat → w.xr = xr.toNat →
        let sum := c.getAcc dst.toNat + (c.getD src.toNat).toInt * (xWord s n c xr.toNat).toInt
        ∃ t, exec (.macd p dst src xr) s = .next t ∧
          fecDid s t n (fecAcc (c.bump xr.toNat) dst.toNat sum) (fecOver sum)) ∧
      (∀ dst src : BitVec 2, w.op = 0x18 → w.dst = dst.toNat → w.src = src.toNat →
        let sum := c.getAcc dst.toNat + c.getAcc src.toNat
        ∃ t, exec (.adda p dst src) s = .next t ∧ fecDid s t n (fecAcc c dst.toNat sum) (fecOver sum)) ∧
      (∀ (dst : BitVec 2) (sh : BitVec 6), w.op = 0x19 → w.dst = dst.toNat → fld w.imm 5 0 = sh.toNat →
        (0 ≤ sh.toInt → let v := c.getAcc dst.toNat * 2 ^ sh.toInt.toNat
          ∃ t, exec (.sha p dst sh) s = .next t ∧ fecDid s t n (fecAcc c dst.toNat v) (fecOver v)) ∧
        (sh.toInt < 0 → ∃ t, exec (.sha p dst sh) s = .next t ∧
          fecDid s t n (fecAcc c dst.toNat (c.getAcc dst.toNat / 2 ^ (-sh.toInt).toNat)) False)) ∧
      (∀ (dst : BitVec 2) (src : BitVec 3), w.op = 0x1B → w.dst = dst.toNat → w.src = src.toNat →
        ∃ t, exec (.mova p dst src) s = .next t ∧
        fecDid s t n (fecAcc c dst.toNat ((c.getD src.toNat).toInt * 2 ^ 23)) False) ∧
      (∀ (dst : BitVec 3) (src : BitVec 2), w.op = 0x1A → w.dst = dst.toNat → w.src = src.toNat →
        ∃ t v, exec (.rnd p dst src) s = .next t ∧
        (∀ w : Int, (v * 2 ^ 23 - c.getAcc src.toNat).natAbs ≤ (w * 2 ^ 23 - c.getAcc src.toNat).natAbs) ∧
        ((v * 2 ^ 23 - c.getAcc src.toNat).natAbs * 2 = 2 ^ 23 → v % 2 = 0) ∧
        fecDid s t n (c.setD dst.toNat (BitVec.ofInt 24 (max (-(2 ^ 23)) (min v (2 ^ 23 - 1)))))
          (v < -(2 ^ 23) ∨ 2 ^ 23 - 1 < v)))

/-- The other front-end instructions (R302, R305, R307, R309): loads, stores and address registers; the loop cache's REP;
OUT into staging and EMIT, which writes the frame before it adds 1 to the ring's flag and waits only for an earlier frame
(R304); END, which applies the X writes
held during the invocation. A parity event in P stops the core. -/
def Obligations.FrontEndDataAndControl : Prop :=
  ∀ (s : State) (p : PortIx),
    let n := p.toNat
    let c := (getPort s n).core
    let w := c.word
    (∀ (slot : BitVec 10) (src : BitVec 3), 1020 ≤ slot.toNat → exec (.out p slot src) s = .fault .noSuchPlace) ∧
    (c.running = true →
      (∀ (dst : BitVec 3) (xr : BitVec 2), w.op = 0x10 → w.dst = dst.toNat → w.xr = xr.toNat →
        ∃ t, exec (.ldx p dst xr .none) s = .next t ∧
        fecDid s t n ((c.setD dst.toNat (xWord s n c xr.toNat)).bump xr.toNat) False) ∧
      (∀ (dst : BitVec 3) (yr : BitVec 2), w.op = 0x11 → w.dst = dst.toNat → w.yr = yr.toNat → ∃ t, exec (.ldy p dst yr) s = .next t ∧
        fecDid s t n ((c.setD dst.toNat (yWord c yr.toNat)).bump (4 + yr.toNat)) False) ∧
      (∀ (src : BitVec 3) (yr : BitVec 2), w.op = 0x12 → w.src = src.toNat → w.yr = yr.toNat → ∃ t, exec (.sty p src yr) s = .next t ∧
        fecDid s t n ({ c with y := smSet 0 (c.getAddr (4 + yr.toNat)).1 (c.getD src.toNat) c.y }.bump (4 + yr.toNat))
          False) ∧
      (∀ (dst : BitVec 3) (imm : BitVec 24), w.op = 0x13 → w.dst = dst.toNat → w.imm = imm.toNat → ∃ t, exec (.ldi p dst imm) s = .next t ∧
        fecDid s t n (c.setD dst.toNat imm) False) ∧
      (∀ (slot : BitVec 10) (src : BitVec 3), slot.toNat < 1020 →
        w.op = 0x20 → fld w.imm 9 0 = slot.toNat → w.src = src.toNat → ∃ t, exec (.out p slot src) s = .next t ∧
        fecDid s t n { c with o := smSet 0 slot.toNat (c.getD src.toNat) c.o } False) ∧
      (∀ (r : BitVec 3) (imm : BitVec 13), w.dst = r.toNat → fld w.imm 12 0 = imm.toNat →
        let a := c.getAddr r.toNat
        (w.op = 0x28 → ∃ t, exec (.seta p r imm) s = .next t ∧
          fecDid s t n (c.setAddr r.toNat (imm.toNat, a.2.1, a.2.2.1, a.2.2.2)) False) ∧
        (w.op = 0x29 → ∃ t, exec (.setm p r imm) s = .next t ∧
          fecDid s t n (c.setAddr r.toNat (a.1, a.1, imm.toNat, a.2.2.2)) False) ∧
        (w.op = 0x2A → ∃ t, exec (.setn p r imm) s = .next t ∧
          fecDid s t n (c.setAddr r.toNat (a.1, a.2.1, a.2.2.1, imm.toInt)) False)) ∧
      (w.op = 0 → (c.repLeft = 0 ∨ c.pc ≠ c.repLast) → ∃ t, exec (.fecNop p) s = .next t ∧
        (getPort t n).core = { c with pc := (c.pc + 1) % 4096, cycles := c.cycles + 1 }) ∧
      (w.op = 0 → c.repLeft ≠ 0 → c.pc = c.repLast → ∃ t, exec (.fecNop p) s = .next t ∧
        (getPort t n).core = { c with pc := if 1 < c.repLeft then c.repFirst else (c.pc + 1) % 4096,
                                      repLeft := c.repLeft - 1, cycles := c.cycles + 1 }) ∧
      (∀ (body : BitVec 6) (count : BitVec 16), c.repLeft = 0 → c.pc < 4096 →
        w.op = 2 → fld w.imm 21 16 = body.toNat → fld w.imm 15 0 = count.toNat →
        let k := if body = 0 then 64 else body.toNat
        (count = 0 → ∃ t, exec (.rep p body count) s = .next t ∧
          (getPort t n).core = { c with pc := (c.pc + k + 1) % 4096, cycles := c.cycles + 1 }) ∧
        (count ≠ 0 → ∃ t, exec (.rep p body count) s = .next t ∧
          (getPort t n).core = { c with repFirst := (c.pc + 1) % 4096, repLast := (c.pc + k) % 4096,
                                        repLeft := count.toNat, pc := (c.pc + 1) % 4096, cycles := c.cycles + 1 })) ∧
      (w.op = 1 → ∃ t, exec (.fecEnd p) s = .next t ∧ (getPort t n).core.running = false ∧ (getPort t n).core.heldX = [] ∧
        (getPort t n).core.acc = c.acc ∧ (getPort t n).core.d = c.d ∧ (getPort t n).core.addr = c.addr ∧
        getf t (lnkR n 0x104) 15 0 = min 0xFFFF (c.cycles + 1) ∧
        (∀ w v, (c.heldX.filter fun e => e.1 == w).getLast? = some (w, v) → getReg t (lnkR n (0x8000 + 4 * w)) = v) ∧
        (∀ o, o ≠ lnkR n 0x104 → (∀ e ∈ c.heldX, o ≠ lnkR n (0x8000 + 4 * e.1)) → getReg t o = getReg s o) ∧
        t = { s with regs := t.regs, ports := t.ports }) ∧
      (∀ (k : BitVec 11) (h : Handle), 1 ≤ k.toNat → k.toNat ≤ 1020 → w.op = 0x21 → fld w.imm 10 0 = k.toNat →
        findHandle s (getf s (lnkR n 0x108) 63 32) = some h → h.kind = 0 →
        4096 * 2 ^ getf s (lnkR n 0x108) 3 0 ≤ h.size →
        let slot := 4096 * (c.frameNo % 2 ^ getf s (lnkR n 0x108) 3 0)
        let st := match c.batch with
          | some b => b.2
          | none => 2 ^ 64 - 1
        ∃ t, exec (.emit p k) s = .next t ∧ (getPort t n).core.frameNo = c.frameNo + 1 ∧
          (getPort t n).core.emitted = true ∧ c.cycles < (getPort t n).core.cycles ∧
          (c.emitted = false → (getPort t n).core.cycles = c.cycles + 1) ∧
          t.mem = wrBytes s.mem (memKey h.id slot) (leBytes 8 st ++ leBytes 4 c.frameNo ++ leBytes 4 k.toNat ++
            ((List.range k.toNat).flatMap fun i => leBytes 4 (intBits 32 (smGet 0 i c.o).toInt))) ∧
          flagVal t (getf s (lnkR n 0x108) 31 16) = (flagVal s (getf s (lnkR n 0x108) 31 16) + 1) % 2 ^ 32 ∧
          ∀ o, o ≠ flagR (getf s (lnkR n 0x108) 31 16) → getReg t o = getReg s o) ∧
      (∀ k : BitVec 11, (k = 0 ∨ 1020 < k.toNat) → w.op = 0x21 → fld w.imm 10 0 = k.toNat →
        ∃ t, exec (.emit p k) s = .next t ∧ fecDid s t n c False) ∧
      (∀ (dst : BitVec 3) (xr : BitVec 2), w.op = 0x10 → w.dst = dst.toNat → w.xr = xr.toNat →
        ∃ t, exec (.ldx p dst xr .program) s = .next t ∧
        (getPort t n).core.running = false ∧ getb t (fecR n) 31 = false ∧ linkOn t n false = false ∧
        linkOn t n true = false ∧ t.mem = s.mem))

end
section
open Sys2Proof Sys2Proof.Machine Sys2Proof.Claims

/-! Output slots, the meridian and weight swaps. -/

/-- Output slots (R310 to R313): ENABLE checks residency, offset and bounds in that order; at its point a ready slot makes
its word the held code, one that is not ready takes its fallback with DEADLINE_MISS, and EXPECT rises by STEP either
way; of the slots of a converter that fire in one core cycle the highest stands; a held code enters the frames 64 cycles
after its firing, and until then those before it are carried. -/
def Sys2Proof.Claims.OutputSlots : Prop :=
  ∀ (s : State) (p : PortIx) (k : BitVec 5),
    let n := p.toNat
    let r := slotR n k.toNat
    let id := getf s (r 4) 31 0
    let off := getf s (r 8) 31 0
    (∀ v : Word, slotOn s n k.toNat = false → v.getLsbD 31 = true →
      ∃ t, exec (.slotEnable p k v) s = .next t ∧ getf t (r 0) 23 0 = fld v.toNat 23 0 ∧
        getf t (r 0) 27 24 = fld v.toNat 27 24 ∧ getb t (r 0) 30 = v.getLsbD 30 ∧
        (loopPin s id = none → slotOn t n k.toNat = false ∧ getf t (r 0x1C) 15 0 = 0x030A) ∧
        (loopPin s id ≠ none → (off % 4 ≠ 0 ∨ handleSize s id < off + 4) →
          slotOn t n k.toNat = false ∧ getf t (r 0x1C) 15 0 = 0x0302) ∧
        (loopPin s id ≠ none → off % 4 = 0 → off + 4 ≤ handleSize s id →
          slotOn t n k.toNat = true ∧ getf t (r 0x1C) 15 0 = 0) ∧
        (∀ o, o ≠ r 0 → o ≠ r 0x1C → getReg t o = getReg s o) ∧ t = { s with regs := t.regs, ports := t.ports }) ∧
    (∀ bad, (s.meridian.running = false ∨ unfired s n k.toNat s.meridian.cycleNo = false ∨
        mtrPhase s < getf s (r 0) 23 0) → exec (.slotFire p k bad) s = .next s) ∧
    (s.meridian.running = true → unfired s n k.toNat s.meridian.cycleNo = true → getf s (r 0) 23 0 ≤ mtrPhase s →
      let cv := getf s (r 0) 27 24
      let up := getReg s (r 0x10) + BitVec.ofNat 32 (getf s (r 0x0C) 31 16)
      let reached := waitMet (flagVal s (getf s (r 0x0C) 15 0)) (getf s (r 0x10) 31 0)
      (loopPin s id ≠ none → reached = true → (∀ h, findHandle s id = some h → h.kind = 0) →
        ∃ t, exec (.slotFire p k false) s = .next t ∧ getReg t (r 0x10) = up ∧
          (outranked s n cv k.toNat = false →
            smGet 0 cv (getPort t n).held = BitVec.ofNat 24 (handleNat s id off 3) ∧
            liveCode (getPort t n) cv (s.cycle + 64) = BitVec.ofNat 24 (handleNat s id off 3) ∧
            ∀ m, m < s.cycle + 64 → liveCode (getPort t n) cv m = liveCode (getPort s n) cv m) ∧
          (outranked s n cv k.toNat = true → (getPort t n).held = (getPort s n).held ∧
            (getPort t n).coming = (getPort s n).coming) ∧
          unfired t n k.toNat s.meridian.cycleNo = false ∧
          (∀ o, o ≠ r 0x10 → o ≠ r 0x18 → getReg t o = getReg s o) ∧
          t = { s with regs := t.regs, ports := t.ports }) ∧
      ((loopPin s id = none ∨ reached = false) →
        ∃ t, exec (.slotFire p k false) s = .next t ∧ getReg t (r 0x10) = up ∧
          (getb s (r 0) 30 = false → (getPort t n).held = (getPort s n).held) ∧
          (getb s (r 0) 30 = true → outranked s n cv k.toNat = false → smGet 0 cv (getPort t n).held = BitVec.ofNat 24 (getf s (r 0x14) 23 0)) ∧
          getf t (lnkR n 0x600) 15 0 = min 65535 (getf s (lnkR n 0x600) 15 0 + 1) ∧ getb t (lnkR n 0x600) 23 = true ∧
          getb t (lnkR n 0x18) 6 = true ∧ logged s t 0 0x0904 (n + 256 * k.toNat) s.meridian.cycleNo ∧ t.mem = s.mem ∧
          unfired t n k.toNat s.meridian.cycleNo = false)) ∧
    (∀ c : BitVec 4,
      let h := liveCode (getPort s n) c.toNat s.cycle
      let v := sentOf (linkParams s n true).n (linkParams s n true).np h
      ((txState s n ≠ 3 ∨ (linkParams s n true).m ≤ c.toNat) → exec (.heldCodeUpdate p c) s = .next s) ∧
      (txState s n = 3 → c.toNat < (linkParams s n true).m →
        ∃ t, exec (.heldCodeUpdate p c) s = .next t ∧ t.sent = s.sent ++ [Sent.daCode n c.toNat v] ∧
          smGet 0 c.toNat (getPort t n).sentCode = v ∧ liveCode (getPort t n) c.toNat s.cycle = h ∧ t = { s with sent := t.sent, ports := t.ports }))

/-- The meridian (R316, R318, R319, R321): a write of ENABLE with TICKS starts it off; the first tick 0 starts the count,
from 0 only after a POR or PIN; a tick of a cycle sets its phase; a cycle of exactly T ticks locks it, and one of another
length is recorded and, at ERR_LIMIT, loses it, as a missing tick does; D goes on in the lost state. A descriptor past its deadline ends with
TRANSIT_LATE. -/
def Obligations.MeridianCount : Prop :=
  ∀ s : State,
    let m := s.meridian
    (∀ v : DWord, getb s Reg.mtrCfg 63 = false → v.getLsbD 63 = true → 1 ≤ fld v.toNat 24 0 → fld v.toNat 24 0 ≤ 2 ^ 24 →
      ∃ t, exec (.mtrCfgWrite v) s = .next t ∧ getb t Reg.mtrCfg 63 = true ∧ mtrTicks t = fld v.toNat 24 0 ∧
        getf t Reg.mtrCfg 47 40 = fld v.toNat 47 40 ∧ getf t Reg.mtrCfg 39 32 = fld v.toNat 39 32 ∧ mtrState t = 0 ∧
        t.meridian.running = false ∧ t.meridian.cycleNo = m.cycleNo ∧
        t = { s with regs := t.regs, meridian := t.meridian }) ∧
    (∀ v : DWord, getb s Reg.mtrCfg 63 = false → v.getLsbD 63 = true → fld v.toNat 24 0 = 0 → mtrTicks s = 0 →
      ∃ t, exec (.mtrCfgWrite v) s = .next t ∧ getb t Reg.mtrCfg 63 = false ∧ mtrState t = mtrState s ∧
        t.meridian = m) ∧
    (∀ v : DWord, getb s Reg.mtrCfg 63 = true → v.getLsbD 63 = false →
      ∃ t, exec (.mtrCfgWrite v) s = .next t ∧ getb t Reg.mtrCfg 63 = false ∧ mtrState t = 0 ∧
        t.meridian.running = false ∧ t.meridian.cycleNo = m.cycleNo ∧ t.meridian.phase = mtrPhase s ∧
        t = { s with regs := t.regs, meridian := t.meridian }) ∧
    (∀ z bad, getb s Reg.mtrCfg 63 = false → exec (.meridianTick z bad) s = .next s) ∧
    (getb s Reg.mtrCfg 63 = true → m.running = false →
      (∀ z bad, ¬ (z = true ∧ m.prevZero = some false) →
        (mtrState s ≠ 3 → exec (.meridianTick z bad) s = .next { s with meridian := { m with prevZero := some z } }) ∧
        (mtrState s = 3 → ∃ t, exec (.meridianTick z bad) s = .next t ∧
          getReg t Reg.tickPeriod = BitVec.ofNat 32 (s.cycle - m.tickCycle) ∧
          (∀ o, o ≠ Reg.tickPeriod → getReg t o = getReg s o) ∧
          t = { s with regs := t.regs, meridian := { m with
            prevZero := some z, d := some (s.cycle - m.tickCycle), tickCycle := s.cycle } })) ∧
      (∀ bad, m.prevZero = some false → ∃ t, exec (.meridianTick true bad) s = .next t ∧ t.meridian.running = true ∧
        t.meridian.phase = 0 ∧ t.meridian.tick = 0 ∧ mtrState t = 1 ∧ t.mem = s.mem ∧
        t.meridian.cycleNo = if m.everStarted = true then (m.cycleNo + 1) % 2 ^ 40 else 0)) ∧
    (getb s Reg.mtrCfg 63 = true → m.running = true →
      (∀ z bad, ¬ (z = true ∧ m.prevZero = some false) → m.tick + 1 ≠ mtrTicks s → 1 ≤ mtrTicks s →
        ∃ t, exec (.meridianTick z bad) s = .next t ∧ t.meridian.tick = m.tick + 1 ∧
          t.meridian.phase = (m.tick + 1) * 2 ^ 24 / mtrTicks s ∧ t.meridian.cycleNo = m.cycleNo ∧
          t.meridian.d = some (s.cycle - m.tickCycle) ∧
          getReg t Reg.tickPeriod = BitVec.ofNat 32 (s.cycle - m.tickCycle) ∧
          t = { s with regs := t.regs, meridian := t.meridian } ∧ ∀ o, o ≠ Reg.tickPeriod → getReg t o = getReg s o) ∧
      (∀ bad, m.prevZero = some false → m.tick + 1 = mtrTicks s →
        ∃ t, exec (.meridianTick true bad) s = .next t ∧ t.meridian.cycleNo = (m.cycleNo + 1) % 2 ^ 40 ∧
          t.meridian.phase = 0 ∧ t.meridian.tick = 0 ∧ t.meridian.errors = 0 ∧
          getf t Reg.mtrStatus 24 0 = mtrTicks s ∧ mtrState t = (if mtrState s = 1 then 2 else mtrState s)) ∧
      (∀ z bad, ((z = true ∧ m.prevZero = some false ∧ m.tick + 1 ≠ mtrTicks s) ∨
          (¬ (z = true ∧ m.prevZero = some false) ∧ m.tick + 1 = mtrTicks s)) →
        ∃ t, exec (.meridianTick z bad) s = .next t ∧ t.meridian.cycleNo = (m.cycleNo + 1) % 2 ^ 40 ∧
          getb t Reg.mtrStatus 28 = true ∧ getf t Reg.mtrStatus 24 0 = (m.tick + 1) % 2 ^ 25 ∧
          t.meridian.errors = m.errors + 1 ∧
          (m.errors + 1 < max 1 (getf s Reg.mtrCfg 47 40) → mtrState t = mtrState s ∧ t.meridian.running = true) ∧
          (max 1 (getf s Reg.mtrCfg 47 40) ≤ m.errors + 1 → mtrState t = 3 ∧ t.meridian.running = false ∧
            getb t Reg.mtrStatus 27 = true))) ∧
    (∀ d, m.d = some d →
      ((m.running = false ∨ s.cycle < m.tickCycle + max 2 (getf s Reg.mtrCfg 39 32) * d) →
        exec .meridianLost s = .next s) ∧
      (m.running = true → m.tickCycle + max 2 (getf s Reg.mtrCfg 39 32) * d ≤ s.cycle →
        ∃ t, exec .meridianLost s = .next t ∧ mtrState t = 3 ∧ t.meridian = { m with phase := mtrPhase s, running := false } ∧
          getb t Reg.mtrStatus 27 = true ∧ logged s t 0 0x0906 0 m.cycleNo ∧ t.mem = s.mem ∧
          (∀ (p : PortIx) (k : BitVec 5), getReg t (slotR p.toNat k.toNat 0x10) = getReg s (slotR p.toNat k.toNat 0x10)))) ∧
    (∀ d sb x r, findDesc s d = some (sb, x, r) →
      (r.phase = .waiting → r.ready.isSome = true → pastDeadline s x r = true →
        ∃ t, exec (.transitLate d) s = .next t ∧ finishedWith t d 0x0905 ∧ (∀ f, f < 65536 → flagVal t f = flagVal s f)) ∧
      ((r.phase ≠ .waiting ∨ pastDeadline s x r = false) → exec (.transitLate d) s = .next s))

/-- Weight swaps (R322 to R324): ENABLE checks that both members are allocated, equal and resident on one loop group; a
write of SWAP_CYCLE arms the pair unless one is pending or the cycle has come; at the cycle ACTIVE inverts, and once no
descriptor reads the old member DRAINED is set and the flag signalled. -/
def Sys2Proof.Claims.WeightSwaps : Prop :=
  ∀ (s : State) (p : BitVec 4),
    let r := swapR p.toNat
    let a := getf s (r 4) 31 0
    let b := getf s (r 8) 31 0
    (∀ v : Word, getb s (r 0) 31 = false → v.getLsbD 31 = true →
      ∃ t, exec (.swapEnable p v) s = .next t ∧ onlyRegs s t (fun o => o = r 0 ∨ o = r 0x0C) ∧
        getf t (r 0) 15 0 = fld v.toNat 15 0 ∧ getb t (r 0) 16 = v.getLsbD 16 ∧
        ((findHandle s a = none ∨ findHandle s b = none) → getb t (r 0) 31 = false ∧ getf t (r 0x0C) 15 0 = 0x030A) ∧
        (∀ h g, findHandle s a = some h → findHandle s b = some g →
          (h.size ≠ g.size → getb t (r 0) 31 = false ∧ getf t (r 0x0C) 15 0 = 0x0302) ∧
          (h.size = g.size → (loopPin s a = none ∨ loopPin s a ≠ loopPin s b) →
            getb t (r 0) 31 = false ∧ getf t (r 0x0C) 15 0 = 0x030A) ∧
          (h.size = g.size → loopPin s a ≠ none → loopPin s a = loopPin s b →
            getb t (r 0) 31 = true ∧ getf t (r 0x0C) 15 0 = 0))) ∧
    (∀ c : DWord,
      (getb s (r 0) 29 = true → ∃ t, exec (.swapCycleWrite p c) s = .next t ∧ getf t (r 0x0C) 15 0 = 0x090B ∧
        onlyRegs s t (· = r 0x0C)) ∧
      (getb s (r 0) 29 = false → ∃ t, exec (.swapCycleWrite p c) s = .next t ∧
        getf t (r 0x10) 39 0 = fld c.toNat 39 0 ∧
        onlyRegs s t (fun o => o = r 0 ∨ o = r 0x0C ∨ o = r 0x10 ∨ o = r 0x14) ∧
        (fld c.toNat 39 0 ≤ s.meridian.cycleNo → getb t (r 0) 29 = false ∧ getf t (r 0x0C) 15 0 = 0x090C) ∧
        (s.meridian.cycleNo < fld c.toNat 39 0 → getb t (r 0) 29 = true ∧ getf t (r 0x0C) 15 0 = 0))) ∧
    ((getb s (r 0) 29 = false ∨ s.meridian.cycleNo < getf s (r 0x10) 39 0) → exec (.swapInversion p) s = .next s) ∧
    (getb s (r 0) 29 = true → getf s (r 0x10) 39 0 ≤ s.meridian.cycleNo →
      ∃ t, exec (.swapInversion p) s = .next t ∧ getb t (r 0) 30 = !getb s (r 0) 30 ∧ getb t (r 0) 29 = false ∧
        smGet 0 p.toNat t.swapOld = (if getb s (r 0) 30 = true then b else a) ∧
        (∀ o, o ≠ r 0 → getReg t o = getReg s o) ∧ t = { s with regs := t.regs, swapOld := t.swapOld }) ∧
    (let old := smGet 0 p.toNat s.swapOld
     ((old = 0 ∨ readsMember s old = true) → exec (.swapDrained p) s = .next s) ∧
     (old ≠ 0 → readsMember s old = false →
       ∃ t, exec (.swapDrained p) s = .next t ∧ getb t (r 0) 28 = true ∧
         flagVal t (getf s (r 0) 15 0) = (flagVal s (getf s (r 0) 15 0) + if getb s (r 0) 16 = true then 1 else 0) % 2 ^ 32 ∧
         (∀ o, o ≠ r 0 → o ≠ flagR (getf s (r 0) 15 0) → getReg t o = getReg s o) ∧ t.mem = s.mem))

/-! Programmable logic. -/

/-- Plot commands (R343 to R346): OFFLINE drains an online plot, with FORCE parks it at once and fails its units; RELEASE
opens a loaded plot's gates, and at the sixteenth edge of every tree the plot is online with its words latched; RESET
releases an online plot again. A command in another state changes only CODE. -/
def Sys2Proof.Claims.PlotCommands : Prop :=
  ∀ (s : State) (p : PlotIx),
    let n := p.toNat
    (∀ c ∈ [Instr.offline p, .offlineForce p, .release p, .plotReset p],
      (c = .offline p ∧ plotState s n ≠ 1) ∨ (c = .offlineForce p ∧ plotState s n ≠ 1 ∧ plotState s n ≠ 2) ∨
        (c = .release p ∧ plotState s n ≠ 5) ∨ (c = .plotReset p ∧ plotState s n ≠ 1) →
      ∃ t, exec c s = .next t ∧ getf t (pltR n 4) 15 0 = 0x0A01 ∧ plotState t n = plotState s n ∧
        onlyRegs s t (· = pltR n 4)) ∧
    (plotState s n = 1 → ∃ t, exec (.offline p) s = .next t ∧ plotState t n = 2 ∧ getf t (pltR n 4) 15 0 = 0 ∧
      (getPlot t n).waiting = [] ∧ (getPlot t n).accepted = (getPlot s n).accepted ∧
      (getPlot t n).units = (getPlot s n).units ∧ t.mem = s.mem) ∧
    ((plotState s n = 1 ∨ plotState s n = 2) → s.cfg.run = none →
      ∃ t, exec (.offlineForce p) s = .next t ∧ plotState t n = 3 ∧ getf t (pltR n 4) 15 0 = 0 ∧
        (getPlot t n).waiting = [] ∧ (getPlot t n).accepted = [] ∧ (getPlot t n).units = [] ∧ t.mem = s.mem ∧
        ∀ d k, (d, k) ∈ (getPlot s n).units → ∀ sb x r, findDesc s d = some (sb, x, r) → r.phase = .running → r.code = 0 →
          ∃ sb' r', findDesc t d = some (sb', x, r') ∧ r'.code = 0x0A02) ∧
    (plotState s n = 2 → s.cfg.run = none →
      ((getPlot s n).units = [] → (getPlot s n).accepted = [] →
        ∃ t, exec (.plotDrainEnd p) s = .next t ∧ plotState t n = 3 ∧ (∀ o, o ≠ pltR n 4 → getReg t o = getReg s o) ∧
          t = { s with regs := t.regs, plots := t.plots, fabric := t.fabric }) ∧
      (((getPlot s n).units ≠ [] ∨ (getPlot s n).accepted ≠ []) → exec (.plotDrainEnd p) s = .next s)) ∧
    (plotState s n = 5 → ∃ t, exec (.release p) s = .next t ∧ (getPlot t n).releasing = true ∧ plotState t n = 5 ∧
      getf t (pltR n 4) 15 0 = 0 ∧ (∀ o, o ≠ pltR n 4 → getReg t o = getReg s o) ∧
      (∀ e ∈ inFrames s Config.frameCells, e.1 / 2 ^ 14 = plotSite s n → ∀ k, k < 2 →
        ((e.1, e.2, k) ∈ t.fabric.flops ↔ ((cellSet s e.1 e.2).flop k).init = true)) ∧
      t = { s with regs := t.regs, plots := t.plots, fabric := t.fabric }) ∧
    (∀ edges : List Nat,
      (((getPlot s n).releasing = false ∨ ∃ e ∈ edges, e < 16) → exec (.plotOnline p edges) s = .next s) ∧
      ((getPlot s n).releasing = true → (∀ e ∈ edges, 16 ≤ e) →
        ∃ t, exec (.plotOnline p edges) s = .next t ∧ plotState t n = 1 ∧ (getPlot t n).releasing = false ∧
          (getPlot t n).resetRequest = false ∧ get64 t (pltR n 8) = (getPlot s n).words.1 % 2 ^ 64 ∧
          getReg t (pltR n 0x10) = BitVec.ofNat 32 (getPlot s n).words.2.1 ∧
          getReg t (pltR n 0x14) = BitVec.ofNat 32 (getPlot s n).words.2.2 ∧ t.mem = s.mem ∧ t.alms = s.alms)) ∧
    (plotState s n = 1 → ∃ t, exec (.plotReset p) s = .next t ∧ plotState t n = 1 ∧ (getPlot t n).releasing = true ∧
      (getPlot t n).resetRequest = true ∧ (getPlot t n).units = [] ∧ (getPlot t n).accepted = [] ∧
      (getPlot t n).waiting = [] ∧ getf t (pltR n 4) 15 0 = 0 ∧ t.mem = s.mem ∧ t.fabric.rams = s.fabric.rams)

/-- The logic ring in one core cycle (R328, R330, R331, R338), every element from the levels before the edge: a flip-flop
that is clocked takes its set-or-reset value, keeps its value without its clock enable, or takes its data; a DSP block's
pre-adder, multiplier and accumulator stages move on; where both ports of a block RAM write a bit on one clock port A's
value stands, and a port that reads gives the previous contents; an I/O cell of a bank that is not live keeps its
registers, and a delay moves by one tap. -/
def Sys2Proof.Claims.LogicRing : Prop :=
  ∀ s : State, s.pending = [] → s.mgmt.tileResetJob = none → s.cfg.tilesReleased = true →
    s.cfg.frames ≠ [] →
    ∃ t, step s = .next t ∧ t.cycle = s.cycle + 1 ∧
      (∀ e ∈ inFrames s Config.frameCells, ∀ k, k < 2 →
        let c := (cellSet s e.1 e.2).flop k
        let goes := clocked s e.1 c.tree = true
        ((goes → c.setReset = true → inputOf s (.cell e.1 e.2) (10 + k) = true →
            ((e.1, e.2, k) ∈ t.fabric.flops ↔ c.value = true)) ∧
          (goes → c.setReset = false → c.enable = true → inputOf s (.cell e.1 e.2) (8 + k) = false →
            ((e.1, e.2, k) ∈ t.fabric.flops ↔ level depth s (.flop e.1 e.2 k) = true)) ∧
          (goes → c.setReset = false → c.enable = false →
            ((e.1, e.2, k) ∈ t.fabric.flops ↔
              (if c.bypass = true then inputOf s (.cell e.1 e.2) (12 + k) else level depth s (.lut e.1 e.2 k)) = true)) ∧
          (¬ goes → ((e.1, e.2, k) ∈ t.fabric.flops ↔ level depth s (.flop e.1 e.2 k) = true)))) ∧
      (∀ e ∈ inFrames s Config.frameDsps, let c := dspSet s e.1 e.2
        let x := getDsp s e.1 e.2
        let y := getDsp t e.1 e.2
        (clocked s e.1 c.tree = false → y = x) ∧
        (clocked s e.1 c.tree = true → y.product = BitVec.ofInt 48 (factorOf x.pre * x.b.toInt) ∧
          (c.preAdd = true → y.pre = BitVec.ofInt 25 (sx 24 (inputsOf s (.dsp e.1 e.2) 0 24) +
            sx 24 (inputsOf s (.dsp e.1 e.2) 24 24))) ∧
          (c.wide = false → c.cascade = false → c.subtract = false → -2 ^ 55 ≤ x.acc.toInt + x.product.toInt →
            x.acc.toInt + x.product.toInt < 2 ^ 55 → y.acc.toInt = x.acc.toInt + x.product.toInt))) ∧
      (∀ e ∈ inFrames s Config.frameRams, ∀ b, b < 32768 →
        let new := (ramWord t e.1 e.2 (b / 64)).1.getLsbD (b % 64)
        (∀ v w, ramBit s e.1 e.2 0 b = some v → ramBit s e.1 e.2 1 b = some w →
          (ramSet s e.1 e.2 0).tree = (ramSet s e.1 e.2 1).tree → new = v) ∧
        (∀ v, ramBit s e.1 e.2 0 b = some v → ramBit s e.1 e.2 1 b = none → new = v) ∧
        (∀ v, ramBit s e.1 e.2 0 b = none → ramBit s e.1 e.2 1 b = some v → new = v) ∧
        (ramBit s e.1 e.2 0 b = none → ramBit s e.1 e.2 1 b = none →
          new = (ramWord s e.1 e.2 (b / 64)).1.getLsbD (b % 64))) ∧
      (∀ e ∈ inFrames s Config.frameRams, ∀ p, p < 2 → ∀ at_ v, ramUse s e.1 e.2 p = some (at_, v, false) →
        ramSecded s e.1 e.2 = false → (ramWord s e.1 e.2 (at_ / 64)).2 = 0 → ∀ j, j < (ramSet s e.1 e.2 p).width →
        (getRamPort t e.1 e.2 p).data.getLsbD j = (ramWord s e.1 e.2 (at_ / 64)).1.getLsbD (at_ % 64 + j)) ∧
      (∀ i, i < 288 → (bankLive s i = false → getIo t i = getIo s i) ∧
        (getIo t i).inTaps ≤ (getIo s i).inTaps + 1 ∧ (getIo s i).inTaps ≤ (getIo t i).inTaps + 1 ∧
        (getIo t i).outTaps ≤ (getIo s i).outTaps + 1 ∧ (getIo s i).outTaps ≤ (getIo t i).outTaps + 1)

/-- Ports, clocks, banks and field tiles (R333, R337, R347, R348, R355): an online plot accepts up to 32 requests, a host's
beyond them waiting in a queue of 256 and a tile's for a grant; any other plot denies them; a descriptor's come in the order of its views'
bytes (R168). A PLL shows its lock, a bank
its state from its measured VIO, and a field tile takes a group that is on, at once or when nothing names it. -/
def Obligations.PlotPortsBanksAndFieldTiles : Prop :=
  ∀ (s : State) (p : PlotIx),
    let n := p.toNat
    let x := getPlot s n
    (∀ addr acc, validRequest addr acc = true →
      (plotServes s n = true → x.waiting = [] → x.accepted.length < 32 →
        ∃ t, exec (.plotPortRequest p none addr acc) s = .next t ∧
          getPlot t n = { x with accepted := x.accepted ++ [⟨none, addr, acc, true, 0⟩] } ∧
          t.sent = s.sent ++ [Sent.plotRequest n addr acc] ∧ t = { s with plots := t.plots, sent := t.sent }) ∧
      (plotServes s n = true → 32 ≤ x.accepted.length → (x.waiting.filter fun w => w.source.isNone).length < 256 →
        ∃ t, exec (.plotPortRequest p none addr acc) s = .next t ∧
          getPlot t n = { x with waiting := x.waiting ++ [⟨none, addr, acc, true, 0⟩] } ∧ t = { s with plots := t.plots }) ∧
      ((plotServes s n = false ∨ (x.waiting ≠ [] ∧ 256 ≤ (x.waiting.filter fun w => w.source.isNone).length)) →
        ∃ t, exec (.plotPortRequest p none addr acc) s = .next t ∧ getb t (pltR n 4) 26 = true ∧ t.mem = s.mem ∧
          t.plots = s.plots ∧ (∀ o, o ≠ pltR n 4 → getReg t o = getReg s o) ∧
          ∀ k, acc = .read k → t.host.readBytes = List.replicate k 0xFF) ∧
      (∀ d sb y r, findDesc s d = some (sb, y, r) → r.phase = .running → r.code = 0 →
        (windowSlot s sb y r n addr (accLength acc) = none → exec (.plotPortRequest p (some d) addr acc) s = .next s) ∧
        (∀ v, windowSlot s sb y r n addr (accLength acc) = some v → plotServes s n = true →
          exec (.plotPortRequest p (some d) addr acc) s = .next (setPlot
            (modRun s d fun r => { r with windowNext := smSet 0 v (addr + accLength acc) r.windowNext })
            n { x with waiting := x.waiting ++ [⟨some d, addr, acc, true, 0⟩] })) ∧
        (∀ v, windowSlot s sb y r n addr (accLength acc) = some v → plotServes s n = false → ∃ t sb' r', exec (.plotPortRequest p (some d) addr acc) s = .next t ∧
          findDesc t d = some (sb', y, r') ∧ r'.code = 0x0A02 ∧ t = { s with alms := t.alms }))) ∧
    ((32 ≤ x.accepted.length ∨ plotServes s n = false ∨ x.waiting = []) → exec (.plotPortGrant p) s = .next s) ∧
    (∀ q rest, x.accepted.length < 32 → plotServes s n = true → x.waiting = q :: rest →
      (q.source = none ∨ rest = []) →
      ∃ t, exec (.plotPortGrant p) s = .next t ∧ (getPlot t n).accepted = x.accepted ++ [q] ∧
        (getPlot t n).waiting = rest ∧ t = { s with plots := t.plots, sent := t.sent }) ∧
    (x.accepted = [] → exec (.plotPortAcknowledge p) s = .next s) ∧
    (∀ q rest, x.accepted = q :: rest → ∃ t, exec (.plotPortAcknowledge p) s = .next t ∧
      getPlot t n = { x with accepted := rest } ∧ (∀ k, q.source = none → q.acc = .read k →
        t.host.readBytes.length = (if q.first = true then 0 else s.host.readBytes.length) + k + q.tail) ∧
      t = { s with plots := t.plots, free := t.free, host := { s.host with readBytes := t.host.readBytes } }) ∧
    (∀ (i : BitVec 2) (up : Bool), ∃ t, exec (.pllLockChange i up) s = .next t ∧
      getb t Reg.pll i.toNat = (up && pllUsed s i.toNat) ∧
      (∀ k, let w := declNat s.cfg.declaration (0x10 + 4 * k) 4
        fld w 7 0 = 3 → fld w 9 8 = i.toNat → treeRuns t k = (up && pllUsed s i.toNat)) ∧ onlyRegs s t (· = Reg.pll)) ∧
    (∀ (b : Fin 12) (mv : BitVec 16), let nom := getf s (bankR b.val) 29 28
      ∃ t, exec (.bankVioMeasurement b mv) s = .next t ∧ getf t (bankR b.val) 15 0 = mv.toNat ∧
        getf t (bankR b.val) 29 28 = nom ∧ t.mem = s.mem ∧ t.alms = s.alms ∧
        (nom = 0 → onlyRegs s t (· = bankR b.val)) ∧
        (nom ≠ 0 → mv.toNat < 300 → getf t (bankR b.val) 31 30 = 1) ∧
        (nom ≠ 0 → 300 ≤ mv.toNat → vioFits (nominalMv nom) mv.toNat = false → getf t (bankR b.val) 31 30 = 2 ∧
          (bitOf s.power.alertHold 5 = false → getb t Reg.alertCause 5 = true) ∧
          (getf s (bankR b.val) 31 30 ≠ 2 → logged s t 0 0x0A07 0 b.val) ∧
          (getf s (bankR b.val) 31 30 = 2 → getReg t Reg.logHead = getReg s Reg.logHead)) ∧
        (nom ≠ 0 → vioFits (nominalMv nom) mv.toNat = true → smGet 0 b.val s.banks ≠ 0 →
          smGet 0 b.val s.banks + 12500000 ≤ s.cycle + 1 → getf t (bankR b.val) 31 30 = 3)) ∧
    (∀ v : Word, let w := BitVec.ofNat 32 v.toNat &&& 0x800000FF
      (attachBad s v.toNat = true → ∃ t, exec (.pltFtGroupWrite p v) s = .next t ∧ getf t (pltR n 4) 15 0 = 0x0A08 ∧
        onlyRegs s t (· = pltR n 4)) ∧
      (attachBad s v.toNat = false → attachNamed s n v.toNat = true →
        ∃ t, exec (.pltFtGroupWrite p v) s = .next t ∧ getb t (pltR n 0x18) 30 = true ∧
          getPlot t n = { x with ftHeld := some v.toNat } ∧ (∀ o, o ≠ pltR n 0x18 → getReg t o = getReg s o)) ∧
      (attachBad s v.toNat = false → attachNamed s n v.toNat = false →
        ∃ t, exec (.pltFtGroupWrite p v) s = .next t ∧ getReg t (pltR n 0x18) = w ∧
          getPlot t n = { x with ftHeld := none } ∧ (∀ o, o ≠ pltR n 0x18 → getReg t o = getReg s o)) ∧
      (x.ftHeld = some v.toNat → attachNamed s n v.toNat = true → exec (.ftGroupWriteEffect p) s = .next s) ∧
      (x.ftHeld = some v.toNat → attachNamed s n v.toNat = false → attachBad s v.toNat = false →
        ∃ t, exec (.ftGroupWriteEffect p) s = .next t ∧ getReg t (pltR n 0x18) = w ∧
          getPlot t n = { x with ftHeld := none }))

end
namespace Sys2Proof.Claims
open Sys2Proof Sys2Proof.Machine

/-- A full load has failed (R376, R380): STATE 6 with the code, CFG_ERR_N asserted, DONE driven low, configuration memory
all zero. -/
def loadFailed (t : State) (code detail : Nat) : Prop :=
  cfgState t = 6 ∧ getf t Reg.cfgStatus 15 0 = code % 2 ^ 16 ∧ getb t Reg.cfgStatus 23 = true ∧
  getb t Reg.cfgStatus 24 = true ∧ getb t Reg.cfgStatus 25 = false ∧ get64 t Reg.cfgDetail = detail % 2 ^ 64 ∧
  t.cfg.frames = [] ∧ t.cfg.golden = []

/-- The running configuration command has ended with a code: BUSY 0, ENDED set. -/
def cfgEnded (t : State) (code : Nat) : Prop :=
  t.cfg.run = none ∧ getb t Reg.cfgCmdStatus 31 = false ∧ getb t Reg.cfgCmdStatus 28 = true ∧
  getf t Reg.cfgCmdStatus 15 0 = code % 2 ^ 16

end Sys2Proof.Claims

section
open Sys2Proof Sys2Proof.Machine Sys2Proof.Claims

/-! Configuration. -/

/-- The full load (R360, R362, R363, R375 to R380, R265): it stages from the source that CFG_SRC selects, verifies, writes
every frame, stops driving DONE once training has ended, begins release after DONE has been high for 10 µs, brings plots
with a design online, and at last the normal personality; a failure at any point leaves it failed with its code. -/
def Obligations.FullLoad : Prop :=
  ∀ s : State,
    let staged := s.cfg.staging
    (∀ nor, (cfgState s ≠ 0 ∨ s.power.romBooted = false) → exec (.fullLoadStart nor) s = .next s) ∧
    (∀ nor, cfgState s = 0 → s.power.romBooted = true →
      (getf s Reg.straps 9 8 = 0 → s.cfg.journalBegin = none →
        ∃ t, exec (.fullLoadStart nor) s = .next t ∧ loadFailed t 0x0B01 0) ∧
      (getf s Reg.straps 9 8 = 0 → s.cfg.journalBegin ≠ none → s.cfg.journalEnd = false →
        ∃ t, exec (.fullLoadStart nor) s = .next t ∧ loadFailed t 0x0B08 0) ∧
      (getf s Reg.straps 9 8 = 0 → s.cfg.journalBegin ≠ none → s.cfg.journalEnd = true →
        ∃ t, exec (.fullLoadStart nor) s = .next t ∧ cfgState t = 1 ∧ getb t Reg.cfgStatus 24 = true ∧
          ∀ i, i < s.cfg.storeBytes → i < 2 ^ 28 → rdByte t.cfg.staging i = rdByte s.cfg.store i) ∧
      (getf s Reg.straps 9 8 = 1 → (nor.signature = false ∨ nor.bfpt = false ∨ nor.addr4 = false) →
        ∃ t, exec (.fullLoadStart nor) s = .next t ∧ loadFailed t 0x0B0A 0 ∧ t.power.flashRstN = true) ∧
      (getf s Reg.straps 9 8 = 1 → nor.signature = true → nor.bfpt = true → nor.addr4 = true →
        ∃ t, exec (.fullLoadStart nor) s = .next t ∧ cfgState t = 1 ∧ t.power.flashRstN = true ∧
          getf t Reg.cfgFlash 31 29 = (if nor.octal then 4 else if nor.quad144 then 3 else if nor.quad114 then 2 else 1) ∧
          getf t Reg.cfgFlash 23 16 = if nor.octal then 200 else 133) ∧
      (getf s Reg.straps 9 8 = 2 → ∃ t, exec (.fullLoadStart nor) s = .next t ∧ cfgState t = 7 ∧
        getb t Reg.cfgStatus 24 = true ∧ onlyRegs s t (· = Reg.cfgStatus)) ∧
      (getf s Reg.straps 9 8 = 3 → ∃ t, exec (.fullLoadStart nor) s = .next t ∧ cfgState t = 7 ∧
        getb t Reg.cfgStatus 23 = true ∧ getf t Reg.cfgStatus 15 0 = 0x0002 ∧ onlyRegs s t (· = Reg.cfgStatus))) ∧
    (cfgState s = 1 → ∃ t, exec .imageHeaderStaged s = .next t ∧ match checkHeader s staged s.cfg.staged [1] with
      | some b => loadFailed t b.1 b.2
      | none => if norSmall s then loadFailed t 0x0B0A 0
        else t = { s with cfg := { s.cfg with loadPull := iPull staged } }) ∧
    (cfgState s = 1 → ∃ t, exec .imageStagingEnd s = .next t ∧ match verifyImage s staged s.cfg.staged [1] none with
      | some b => if s.cfg.nor.isSome && !s.cfg.reread && (b.1 == 0x0B07 || b.1 == 0x0B03) &&
            getf s Reg.cfgStatus 27 26 == 1 then cfgState t = 2 ∧ t.cfg.reread = true
          else loadFailed t b.1 b.2
      | none => if norSmall s then loadFailed t 0x0B0A 0 else cfgState t = 3 ∧ t.cfg.loadPull = iPull staged) ∧
    (∀ l, cfgState s = 2 → s.cfg.reread = true →
      ∃ t, exec (.flashDownshift l) s = .next t ∧ logged s t 0 0x0B0B 0 0 ∧ getf t Reg.cfgFlash 31 29 = 1 ∧
        getf t Reg.cfgFlash 23 16 = 50 ∧ getb t Reg.cfgFlash 28 = true ∧ (cfgState t = 3 ∨ cfgState t = 6)) ∧
    (cfgState s = 3 →
      (∃ t, exec (.frameWriteEnd none) s = .next t ∧ cfgState t = 4 ∧ t.cfg.framesWritten = true ∧
        t.cfg.golden = t.cfg.frames ∧ t.cfg.tag = iTag staged ∧ t.mem = s.mem ∧ t.alms = s.alms ∧
        ∀ p : PortIx, (getPort t p.toNat).core.running = false) ∧
      (∀ a, ∃ t, exec (.frameWriteEnd (some a)) s = .next t ∧ loadFailed t 0x0B09 a)) ∧
    (let ready := cfgState s = 4 ∧ s.cfg.framesWritten = true ∧ s.cfg.trainingEnded = true ∧ getb s Reg.cfgStatus 24 = true
     (¬ ready → exec .doneDriveRelease s = .next s) ∧
     (ready → ∃ t, exec .doneDriveRelease s = .next t ∧ getb t Reg.cfgStatus 24 = false ∧
       getb t Reg.cfgStatus 23 = false ∧ onlyRegs s t (· = Reg.cfgStatus))) ∧
    (∀ (high : Bool) (us : Nat), s.pool.formWait = false → s.cfg.run = none →
      ∃ t, exec (.doneHighTimer high us) s = .next t ∧ getb t Reg.cfgStatus 25 = (high && !getb s Reg.cfgStatus 24) ∧
        t.cfg.releaseBegun = (s.cfg.releaseBegun || (cfgState s == 4 && high && !getb s Reg.cfgStatus 24 &&
          decide (10 ≤ us) && s.cfg.framesWritten)) ∧
        (∀ o, o ≠ Reg.cfgStatus → getReg t o = getReg s o)) ∧
    ((cfgState s ≠ 4 ∨ s.cfg.releaseBegun = false) → exec .fullRelease s = .next s) ∧
    (cfgState s = 4 → s.cfg.releaseBegun = true → ∃ t, exec .fullRelease s = .next t ∧ cfgState t = 5 ∧
      t.cfg.tilesReleased = true ∧ get64 t Reg.imageTag = s.cfg.tag % 2 ^ 64 ∧ t.mem = s.mem ∧
      ∀ p : PlotIx, plotState t p.toNat = if (getPlot s p.toNat).design then 1 else 0) ∧
    ((cfgState s ≠ 5 ∨ s.host.degraded = true ∨ isNormal s = true) → exec .normalPersonality s = .next s) ∧
    (cfgState s = 5 → s.host.degraded = false → isNormal s = false →
      ∃ t, exec .normalPersonality s = .next t ∧ isNormal t = true ∧ t.host.vfActive = s.host.vfEnable ∧
        t.cfg.scanAt = 0 ∧ getb t Reg.gleanStatus 31 = getb s Reg.gleanCtrl 31)

/-- Configuration commands (R381, R382, R384 to R387, R390 to R392): a command that the state does not admit is refused
with its code and changes nothing else; VERIFY and COMMIT report the verification's first failure, LOAD_FULL and
LOAD_PARTIAL go on to their load where there is none; the presence-gated three wait; a reserved COMMAND is refused. -/
def Sys2Proof.Claims.ConfigurationCommands : Prop :=
  ∀ (s : State) (w : Word),
    let v := fun kinds plot => verifyImage s s.cfg.staging s.cfg.staged kinds plot
    let p := fld w.toNat 12 8
    (∀ c n, (c, n) ∈ [(Instr.verify (.reg w), 1), (.loadFull (.reg w), 2), (.loadPartial (.reg w), 3), (.commit (.reg w), 4),
        (.stageCopy (.reg w), 5), (.installKey (.reg w), 6), (.revokeKey (.reg w), 7), (.eraseStore (.reg w), 8)] →
      fld w.toNat 3 0 = n → ∀ code, cmdRefusal s n p = some code →
      ∃ t, exec c s = .next t ∧ getf t Reg.cfgCmdStatus 27 24 = n ∧ getf t Reg.cfgCmdStatus 15 0 = code ∧
        onlyRegs s t (· = Reg.cfgCmdStatus)) ∧
    (fld w.toNat 3 0 = 1 → cmdRefusal s 1 p = none → ∃ t, exec (.verify (.reg w)) s = .next t ∧
      cfgEnded t (((v [1, 2] none).map (·.1)).getD 0) ∧ t.mem = s.mem ∧ t.plots = s.plots ∧
      t.cfg = { s.cfg with run := none } ∧ cfgState t = cfgState s) ∧
    (fld w.toNat 3 0 = 2 → cmdRefusal s 2 p = none → ∃ t, exec (.loadFull (.reg w)) s = .next t ∧
      match v [1] none with
      | some b => loadFailed t b.1 b.2 ∧ cfgEnded t b.1
      | none => cfgState t = 3 ∧ getb t Reg.cfgCmdStatus 31 = true) ∧
    (fld w.toNat 3 0 = 3 → cmdRefusal s 3 p = none → ∃ t, exec (.loadPartial (.reg w)) s = .next t ∧
      match v [2] (some p) with
      | some b => cfgEnded t b.1 ∧ plotState t p = plotState s p ∧ getf t (pltR p 4) 15 0 = b.1 % 2 ^ 16
      | none => plotState t p = (if plotState s p = 1 ∨ plotState s p = 2 then 2 else 4) ∧
          getb t Reg.cfgCmdStatus 31 = true) ∧
    (fld w.toNat 3 0 = 4 → cmdRefusal s 4 p = none → ∃ t, exec (.commit (.reg w)) s = .next t ∧
      match v [1] none with
      | some b => cfgEnded t b.1 ∧ t.cfg.store = s.cfg.store ∧ t.cfg.journalBegin = s.cfg.journalBegin
      | none => getf t Reg.cfgNv 31 30 = 2 ∧ t.cfg.journalEnd = false ∧ getb t Reg.cfgCmdStatus 31 = true) ∧
    (fld w.toNat 3 0 = 5 → cmdRefusal s 5 p = none → ∃ t, exec (.stageCopy (.reg w)) s = .next t ∧
      t.cfg.staging = s.cfg.staging ∧
      match openHandle s 0 (getReg s Reg.stageSrc).toNat with
      | none => cfgEnded t 0x0303
      | some h => if h.size < (getReg s Reg.stageLen).toNat then cfgEnded t 0x0302
        else if 267386880 < (getReg s Reg.stageLen).toNat then cfgEnded t 0x0305
        else if getReg s Reg.stageLen = 0 then cfgEnded t 0
        else getb t Reg.cfgCmdStatus 31 = true ∧ ∃ r, t.cfg.run = some r ∧ r.command = 5) ∧
    (∀ c n, (c, n) ∈ [(Instr.installKey (.reg w), 6), (.revokeKey (.reg w), 7), (.eraseStore (.reg w), 8)] →
      fld w.toNat 3 0 = n → cmdRefusal s n p = none →
      ∃ t, exec c s = .next t ∧ t.mgmt.presence = some (0x10 + n, s.cycle, true) ∧ getb t Reg.cfgCmdStatus 31 = true ∧
        getb t Reg.cfgCmdStatus 30 = true ∧ t.cfg.keys = s.cfg.keys ∧ t.cfg.store = s.cfg.store) ∧
    ((fld w.toNat 3 0 = 0 ∨ 9 ≤ fld w.toNat 3 0) → ∃ t, exec (.reservedCfgCommand w) s = .next t ∧
      getf t Reg.cfgCmdStatus 15 0 = 0x0002 ∧ onlyRegs s t (· = Reg.cfgCmdStatus))

/-- What ends a configuration command, the stage window and the gleaner (R382, R385 to R389, R453): COMMIT, STAGE_COPY and
LOAD_PARTIAL end with their effect or their code; presence lets a waiting key command or ERASE_STORE act; a stage write is discarded while a command runs; a presence window that runs out ends
its command; the gleaner repairs a frame that differs from its golden copy and reports a critical one. -/
def Obligations.ConfigurationEnds : Prop :=
  ∀ s : State,
    (∀ r, s.cfg.run = some r → r.committing = true →
      (∃ t, exec (.commitEnd false) s = .next t ∧ cfgEnded t 0x0B0D ∧ t.cfg.store = s.cfg.store) ∧
      (∃ t, exec (.commitEnd true) s = .next t ∧ cfgEnded t 0 ∧ t.cfg.journalEnd = true ∧ getf t Reg.cfgNv 31 30 = 1 ∧
        t.cfg.storeBytes = iBytes s.cfg.staging ∧
        ∀ i, i < iBytes s.cfg.staging → rdByte t.cfg.store i = rdByte s.cfg.staging i)) ∧
    ((∀ r, s.cfg.run = some r → r.committing = false) → ∀ ok, exec (.commitEnd ok) s = .next s) ∧
    (∀ r, s.cfg.run = some r → r.command = 5 → ∀ h, findHandle s (getf s Reg.stageSrc 31 0) = some h → h.kind = 0 →
      let n := getf s Reg.stageLen 31 0
      (h.size < n → ∃ t, exec .stageCopyEnd s = .next t ∧ cfgEnded t 0x0302) ∧
      (n ≤ h.size → rangeLost h 0 (n - 1) = true → ∃ t, exec .stageCopyEnd s = .next t ∧ cfgEnded t 0x080B) ∧
      (n ≤ h.size → rangeLost h 0 (n - 1) = false → ∃ t, exec .stageCopyEnd s = .next t ∧ cfgEnded t 0 ∧
        ∀ i, i < n → rdByte t.cfg.staging i = rdByte s.mem (memKey h.id i))) ∧
    (∀ r, s.cfg.run = some r → r.command = 3 → r.plot < 32 → plotState s r.plot = 4 →
      (∃ t, exec (.partialLoadEnd none) s = .next t ∧ plotState t r.plot = 5 ∧ (getPlot t r.plot).design = true ∧
        (getPlot t r.plot).tag = iTag s.cfg.staging ∧ cfgEnded t 0) ∧
      (∀ a, ∃ t, exec (.partialLoadEnd (some a)) s = .next t ∧ plotState t r.plot = 0 ∧
        (getPlot t r.plot).design = false ∧ cfgEnded t 0x0B09)) ∧
    (∀ (off : BitVec 19) (size : Nat) (v : DWord), (size = 4 ∨ size = 8) → off.toNat % size = 0 →
      (cfgBusy s = true → ∃ t, exec (.stageWindowWrite off size v) s = .next t ∧ getb t Reg.cfgCmdStatus 29 = true ∧
        onlyRegs s t (· = Reg.cfgCmdStatus)) ∧
      (cfgBusy s = false → ∃ t, exec (.stageWindowWrite off size v) s = .next t ∧
        rdBytes t.cfg.staging (getf s Reg.stageBase 8 0 * 2 ^ 19 + off.toNat) size = leBytes size v.toNat ∧
        (∀ i, (i < getf s Reg.stageBase 8 0 * 2 ^ 19 + off.toNat ∨
            getf s Reg.stageBase 8 0 * 2 ^ 19 + off.toNat + size ≤ i) →
          rdByte t.cfg.staging i = rdByte s.cfg.staging i) ∧
        t = { s with cfg := { s.cfg with staging := t.cfg.staging, staged := t.cfg.staged } })) ∧
    (∀ r at_ b fell, s.cfg.run = some r → s.power.pwrOk = true → s.power.strapsPending = false → at_ < fell →
      fell + 62500000 ≤ s.cycle → s.cycle < at_ + 37500000000 →
      (s.mgmt.presence = some (0x16, at_, b) → ∃ t, exec (.presenceAsserted fell) s = .next t ∧ cfgEnded t 0 ∧
        findKey t r.slot = keyRecord s ∧ (∀ k, k ≠ r.slot → findKey t k = findKey s k) ∧ t.cfg.store = s.cfg.store) ∧
      (s.mgmt.presence = some (0x17, at_, b) → ∃ t, exec (.presenceAsserted fell) s = .next t ∧ cfgEnded t 0 ∧
        findKey t r.slot = none ∧ (∀ k, k ≠ r.slot → findKey t k = findKey s k) ∧ t.cfg.store = s.cfg.store) ∧
      (s.mgmt.presence = some (0x18, at_, b) → ∃ t, exec (.presenceAsserted fell) s = .next t ∧ cfgEnded t 0 ∧
        t.cfg.store = [] ∧ t.cfg.journalBegin = none ∧ getf t Reg.cfgNv 31 30 = 0 ∧ t.cfg.keys = s.cfg.keys)) ∧
    (∀ op at_ b, s.mgmt.presence = some (op, at_, b) →
      (s.cycle < at_ + 37500000000 → exec .presenceWindowExpiry s = .next s) ∧
      (at_ + 37500000000 ≤ s.cycle → ∃ t, exec .presenceWindowExpiry s = .next t ∧ t.mgmt.presence = none ∧
        t.cfg.keys = s.cfg.keys ∧ t.cfg.store = s.cfg.store ∧
        (0x16 ≤ op → op ≤ 0x18 → s.cfg.run ≠ none → cfgEnded t 0x0E01) ∧
        (op < 0x16 ∨ 0x18 < op → (getJob s 2).state = 1 ∨ (getJob s 2).state = 3 →
          (getJob t 2).state = 2 ∧ (getJob t 2).code = 0x0E01))) ∧
    (∀ (upset : List (BitVec 11)) (readable ok : Bool),
      (isNormal s = false → exec (.gleanerFrameRead upset readable ok) s = .next s) ∧
      (let a := scanFrame s.cfg.scanAt
       let old := smGet 0 a s.cfg.frames
       isNormal s = true → getb s Reg.gleanCtrl 31 = true → s.cfg.scanAt + 1 < 16384 + 34 * 14336 →
         (∀ p, sitePlot s (a / 2 ^ 14) = some p → plotState s p ≠ 4) →
        (upset = [] → readable = true → old = smGet 0 a s.cfg.golden →
          ∃ t, exec (.gleanerFrameRead upset readable ok) s = .next t ∧ t.cfg.scanAt = s.cfg.scanAt + 1 ∧
            smGet 0 a t.cfg.frames = old ∧ (∀ o, o ≠ Reg.gleanStatus → getReg t o = getReg s o)) ∧
        (readable = false → ∃ t, exec (.gleanerFrameRead upset readable ok) s = .next t ∧ logged s t 3 0x0B0F a 0 ∧
          t.cfg.scanAt = s.cfg.scanAt + 1) ∧
        (∀ i : BitVec 11, upset = [i] → readable = true → ok = true → old = smGet 0 a s.cfg.golden →
          ∃ t, exec (.gleanerFrameRead upset readable ok) s = .next t ∧ t.cfg.scanAt = s.cfg.scanAt + 1 ∧
            smGet 0 a t.cfg.frames = smGet 0 a s.cfg.golden ∧
            ((smGet allMatter a s.cfg.masks).testBit i.toNat = false →
              getf t Reg.gleanCounts 63 32 = min (2 ^ 32 - 1) (getf s Reg.gleanCounts 63 32 + 1)) ∧
            ((smGet allMatter a s.cfg.masks).testBit i.toNat = true → sitePlot s (a / 2 ^ 14) = none →
              getf t Reg.gleanCounts 31 0 = min (2 ^ 32 - 1) (getf s Reg.gleanCounts 31 0 + 1) ∧
              logged s t 0 0x0B0E a 0 ∧ getb t Reg.gleanLast 31 = true))))

end
namespace Sys2Proof.Claims
open Sys2Proof Sys2Proof.Machine

/-- Since when a package that is on the short refresh interval has read 80 °C or below: `none` for a package on the normal
interval. -/
def hotEntry (s : State) (p : Nat) : Option (Option Nat) := (s.lpddr.hot.find? fun e => e.1 == p).map (·.2)

/-- The table of a bank's rows and counts (R408). -/
def bankTable (s : State) (sub bank : Nat) : List (Nat × Nat) := smGet [] (16 * sub + bank) s.lpddr.tables

/-- The lowest count of a table, and of its rows with that count the lowest. -/
def isLowest (l : List (Nat × Nat)) (e : Nat × Nat) : Prop := e ∈ l ∧ ∀ f, f ∈ l → e.2 < f.2 ∨ (e.2 = f.2 ∧ e.1 ≤ f.1)

/-- A granule read for the descriptor, the window, the arming or the copy finds nothing that fails its reader: the reader
goes on, and memory, almanacs and messages are as before. -/
def readerGoesOn (s t : State) : Prop := t.alms = s.alms ∧ t.mem = s.mem ∧ t.tiles = s.tiles ∧ t.handles = s.handles

end Sys2Proof.Claims

section
open Sys2Proof Sys2Proof.Machine Sys2Proof.Claims

/-! The LPDDR6 tier. -/

/-- The end of training and of the zero writes (R396 to R398, R404): ORDER taken from NEXT, a single failed package replaced
by the fallow one, the tier out of service where more fail than it can replace; and service once every granule is zero. -/
def Sys2Proof.Claims.Lpddr6Training : Prop :=
  ∀ s : State,
    (∀ passed : List (BitVec 4), (s.cfg.trainingEnded = true ∨ s.power.romBooted = false ∨ passed.length ≠ 13) →
      exec (.lpddr6TrainingEnd passed) s = .next s) ∧
    (∀ passed : List (BitVec 4), s.cfg.trainingEnded = false → s.power.romBooted = true → passed.length = 13 →
      (∀ l : Fin 12, physPackage s l.val < 13) →
      let good := fun p : Nat => (passed[p]?).getD 0 = 15
      let f := fallowPackage s
      ((∀ l : Fin 12, good (physPackage s l.val)) → ∃ t, exec (.lpddr6TrainingEnd passed) s = .next t ∧ memState t = 1 ∧
        t.cfg.trainingEnded = true ∧ getf t Reg.memStatus 28 27 = getf s Reg.memMap 1 0 ∧
        (∀ l : Fin 12, physPackage t l.val = physPackage s l.val ∧ getf t (pkgInfoR (physPackage s l.val)) 31 30 = 1) ∧
        (∀ p : Fin 13, getf t (pkgInfoR p.val) 3 0 = ((passed[p.val]?).getD 0).toNat) ∧
        t.lpddr.origin = s.cycle ∧ t.lpddr.tables = [] ∧ t.mem = s.mem ∧ t.handles = s.handles) ∧
      (∀ l : Fin 12, ¬ good (physPackage s l.val) → (∀ k : Fin 12, k ≠ l → good (physPackage s k.val)) → f < 13 → good f →
        ∃ t, exec (.lpddr6TrainingEnd passed) s = .next t ∧ memState t = 1 ∧ physPackage t l.val = f ∧
          (∀ k : Fin 12, k ≠ l → physPackage t k.val = physPackage s k.val) ∧ fallowPackage t = 15 ∧
          getf t (pkgInfoR (physPackage s l.val)) 31 30 = 2 ∧ getf t (pkgInfoR f) 31 30 = 1 ∧
          getf t Reg.fltFallow 11 8 = 0 ∧ getf t Reg.memStatus 15 0 = 0x0C01 ∧
          logged s t 4 0x0C01 0 (physPackage s l.val * 2 ^ 59) ∧ t.mem = s.mem) ∧
      (∀ l : Fin 12, ¬ good (physPackage s l.val) → (∀ k : Fin 12, k < l → good (physPackage s k.val)) →
        ((∃ k : Fin 12, l < k ∧ ¬ good (physPackage s k.val)) ∨ 13 ≤ f ∨ ¬ good f) →
        ∃ t, exec (.lpddr6TrainingEnd passed) s = .next t ∧ memState t = 3 ∧ getf t Reg.memStatus 15 0 = 0x0C02 ∧
          logged s t 4 0x0C02 0 (physPackage s l.val * 2 ^ 59) ∧ get64 t Reg.pkgMap = get64 s Reg.pkgMap ∧
          t.mem = s.mem)) ∧
    (memState s ≠ 1 → exec .lpddr6ZeroInitEnd s = .next s) ∧
    (memState s = 1 → ∃ t, exec .lpddr6ZeroInitEnd s = .next t ∧ memState t = 2 ∧ onlyRegs s t (· = Reg.memStatus))

/-- A read's check (R400, R401, R408): the row's activate is counted; no error passes, an error in one byte is corrected and
counted, and one in two or three bytes is never delivered: it is counted, latched and recorded, and fails its reader. Four
bytes or more may go either way. -/
def Sys2Proof.Claims.Lpddr6ReadCheck : Prop :=
  ∀ (s : State) (id : Word) (g n : Nat) (r : Reader) (h : Handle), findHandle s id.toNat = some h → 64 * g < h.size →
    inLpddr s h (64 * g) = true → (memState s = 1 ∨ memState s = 2) →
    let at_ := placeOfByte s h (64 * g)
    let l := at_.sub / 8
    let p := physPackage s l
    let bad := s.lpddr.badGranules.contains (id.toNat, g)
    let tab := bankTable s at_.sub at_.bank
    ∃ t, exec (.lpddr6ReadCheck id g n r) s = .next t ∧
      t.mem = s.mem ∧
      (((∃ c, (at_.row, c) ∈ tab) ∧ bankTable t at_.sub at_.bank =
          tab.map fun e => if e.1 = at_.row then (at_.row, e.2 + 1) else e) ∨
        ((∀ c, (at_.row, c) ∉ tab) ∧ tab.length < 64 ∧ bankTable t at_.sub at_.bank = tab ++ [(at_.row, 1)]) ∨
        ((∀ c, (at_.row, c) ∉ tab) ∧ 64 ≤ tab.length ∧ ∃ e, isLowest tab e ∧
          bankTable t at_.sub at_.bank = tab.map fun f => if f = e then (at_.row, e.2 + 1) else f)) ∧
      (bad = false → n = 0 → t = { s with lpddr := { s.lpddr with tables := t.lpddr.tables } }) ∧
      (bad = false → n = 1 → readerGoesOn s t ∧ t.lpddr.badGranules = s.lpddr.badGranules ∧
        getf t (pkgErrR p) 63 32 = min (getf s (pkgErrR p) 63 32 + 1) (2 ^ 32 - 1) ∧
        getf t (pkgErrR p) 31 0 = getf s (pkgErrR p) 31 0) ∧
      ((bad = true ∨ n = 2 ∨ n = 3) → (id.toNat, g) ∈ t.lpddr.badGranules ∧ getf t Reg.memStatus 15 0 = 0x0C03 ∧
        getf t (pkgErrR p) 31 0 = min (getf s (pkgErrR p) 31 0 + 1) (2 ^ 32 - 1) ∧
        (getb s Reg.memErrLast 63 = false → get64 t Reg.memErrLast = errWord s at_ % 2 ^ 64) ∧
        (getb s Reg.memErrLast 63 = true → get64 t Reg.memErrLast = get64 s Reg.memErrLast) ∧
        (match r with
          | .descriptor d => t.alms = (markFail s d 0x0C03 h.id (64 * g)).alms
          | .hostWindow => t.sent.getLast? = some .completerAbort ∧ t.alms = s.alms
          | .runAhead d => t.alms =
              (modRun s d fun x => if x.phase = .waiting then { x with runAhead := [] } else x).alms
          | .cacheFill | .copy => t.alms = s.alms ∧ t.tiles = s.tiles
          | .arming y x => match (ctxOf s y.val x.toNat).active with
            | some a => ∀ i, armReading a h.id g = some i → a.ended = false →
                ∃ b, (ctxOf t y.val x.toNat).active = some b ∧ b.ended = true ∧ b.code = 0x0C03 ∧ b.detail = 64 * g ∧
                  ∀ j, j ∈ b.outstanding → j < i
            | none => t.tiles = s.tiles))

/-- Refresh (R405, R407, R408): a subchannel's refreshes fall due at their steps from the common origin, the last one done is
never repeated, and every 8,192nd clears the tables of its banks. A row's neighbours are refreshed once its count has
reached NRT, and its count starts again. -/
def Sys2Proof.Claims.RefreshAndNeighbours : Prop :=
  ∀ s : State,
    (∀ c : Fin 96,
      let x := smGet (0, 0) c.val s.lpddr.refreshes
      let hot := packageHot s (c.val / 8)
      let step := if hot then 2440 else 4880
      let off := (if hot then 25 else 50) * c.val
      let due := off + step * ((x.2 - off + step - 1) / step)
      ((s.cfg.trainingEnded = false ∨ s.cycle < s.lpddr.origin + due) → exec (.allBankRefresh c) s = .next s) ∧
      (s.cfg.trainingEnded = true → s.lpddr.origin + due ≤ s.cycle →
        ∃ t, exec (.allBankRefresh c) s = .next t ∧ t = { s with lpddr := t.lpddr } ∧
          smGet (0, 0) c.val t.lpddr.refreshes = (x.1 + 1, due + 1) ∧
          (∀ b : BitVec 4, bankTable t c.val b.toNat =
            if (x.1 + 1) % 8192 = 0 then [] else bankTable s c.val b.toNat) ∧
          (∀ (d : Fin 96) (b : BitVec 4), d ≠ c → bankTable t d.val b.toNat = bankTable s d.val b.toNat) ∧
          t.lpddr.badGranules = s.lpddr.badGranules ∧ t.lpddr.spare = s.lpddr.spare)) ∧
    (∀ (c : Fin 96) (b : BitVec 4) (r : BitVec 19),
      let tab := bankTable s c.val b.toNat
      let nrt := 1024 * 2 ^ getf s Reg.memNrt 1 0
      ((∀ n, (r.toNat, n) ∈ tab → n < nrt) → exec (.neighbourRefresh c b r) s = .next s) ∧
      ((∃ n, (r.toNat, n) ∈ tab ∧ nrt ≤ n) → ∃ t, exec (.neighbourRefresh c b r) s = .next t ∧
        bankTable t c.val b.toNat = (tab.map fun e => if e.1 = r.toNat then (r.toNat, 0) else e) ∧
        get64 t Reg.memNeighbour = (get64 s Reg.memNeighbour + 1) % 2 ^ 64 ∧
        (∀ o, o ≠ Reg.memNeighbour → o ≠ Reg.memNeighbour + 4 → getReg t o = getReg s o) ∧
        t.mem = s.mem ∧ t.alms = s.alms ∧ t.tiles = s.tiles)) ∧
    (∀ (temps : List Nat), ∃ t, exec (.memTemperatureRead temps) s = .next t ∧ t.mem = s.mem ∧ t.alms = s.alms ∧
      getb t Reg.memStatus 26 = !t.lpddr.hot.isEmpty ∧
      ∀ p : Fin 13, (p.val < temps.length →
        let x := (temps[p.val]?).getD 0
        getf t (pkgInfoR p.val) 15 8 = min x 255 ∧
        (hotEntry s p.val = none → hotEntry t p.val = if 85 < x then some none else none) ∧
        (∀ since, hotEntry s p.val = some since → hotEntry t p.val =
          if 80 < x then some none
          else if since.getD s.cycle + 1000 * 1250000 ≤ s.cycle then none else some (some (since.getD s.cycle)))) ∧
        (temps.length ≤ p.val → hotEntry t p.val = hotEntry s p.val))

/-- Package sparing (R411, R413): a START that is not refused begins it, a refused one changes only the code; the end of the
copy puts the fallow package in the logical package's place and retires the source. -/
def Sys2Proof.Claims.PackageSparing : Prop :=
  ∀ s : State,
    (∀ w : Word, w.getLsbD 31 = false → exec (.packageSpare (.reg w)) s = .next s) ∧
    (∀ w : Word, w.getLsbD 31 = true → s.fallow.job = none →
      let l := w.toNat % 16
      let refused := fun code : Nat => ∃ t, exec (.packageSpare (.reg w)) s = .next t ∧
        onlyRegs s t (· = Reg.spareStatus) ∧ getf t Reg.spareStatus 15 0 = code ∧
        getb t Reg.spareStatus 31 = getb s Reg.spareStatus 31
      (s.lpddr.spare ≠ none → refused 0x0C05) ∧
      (s.lpddr.spare = none → fallowPackage s = 15 → refused 0x0C06) ∧
      (s.lpddr.spare = none → fallowPackage s ≠ 15 → memState s ≠ 2 → refused 0x0C02) ∧
      (s.lpddr.spare = none → fallowPackage s ≠ 15 → memState s = 2 → 11 < l → refused 0x0305) ∧
      (s.lpddr.spare = none → fallowPackage s ≠ 15 → memState s = 2 → l ≤ 11 →
        ∃ t, exec (.packageSpare (.reg w)) s = .next t ∧
          t = { s with regs := t.regs, lpddr := { s.lpddr with spare := some (l, s.cycle) } } ∧
          (∀ o, o ≠ Reg.spareStatus → o ≠ Reg.memStatus → getReg t o = getReg s o) ∧
          getb t Reg.spareStatus 31 = true ∧ getf t Reg.spareStatus 26 16 = 0 ∧ getf t Reg.spareStatus 15 0 = 0 ∧
          getb t Reg.memStatus 25 = true)) ∧
    (∀ l cause : Nat, (s.fallow.auto.contains (2, l, cause)) = false → exec (.packageSpare (.policy l cause)) s = .next s) ∧
    (∀ l cause : Nat, s.fallow.auto.contains (2, l, cause) = true → s.lpddr.spare = none → fallowPackage s ≠ 15 →
      memState s = 2 → l ≤ 11 → ∃ t, exec (.packageSpare (.policy l cause)) s = .next t ∧
        t.lpddr.spare = some (l, s.cycle) ∧ getb t Reg.spareStatus 31 = true ∧
        t.fallow.auto = s.fallow.auto.filter fun a => !(a.1 == 2 && a.2.1 == l)) ∧
    (s.lpddr.spare = none → exec .spareCopyEnd s = .next s) ∧
    (∀ l at_ : Nat, s.lpddr.spare = some (l, at_) → l < 12 → fallowPackage s < 13 → physPackage s l < 13 →
      physPackage s l ≠ fallowPackage s → s.fallow.waiting = [] →
      ∃ t, exec .spareCopyEnd s = .next t ∧ physPackage t l = fallowPackage s ∧ fallowPackage t = 15 ∧
        (∀ k : Fin 12, k.val ≠ l → physPackage t k.val = physPackage s k.val) ∧
        getf t (pkgInfoR (physPackage s l)) 31 30 = 2 ∧ getf t (pkgInfoR (fallowPackage s)) 31 30 = 1 ∧
        getf t Reg.fltFallow 11 8 = 0 ∧ t.lpddr.spare = none ∧ getb t Reg.spareStatus 31 = false ∧
        getf t Reg.spareStatus 26 16 = 1000 ∧ getb t Reg.memStatus 25 = false ∧ getf t Reg.memStatus 15 0 = 0x0C04 ∧
        logged s t 4 0x0C04 0 (fallowPackage s * 2 ^ 59) ∧ (∀ x, x ∈ t.fallow.proposals → x.kind ≠ 2) ∧
        t.mem = s.mem ∧ t.handles = s.handles ∧ t.places = s.places)

end
namespace Sys2Proof.Claims
open Sys2Proof Sys2Proof.Machine

/-- A request stands at the source with this opcode, and it is no repeat of the last one (R419, R421, R426). -/
def stands (s : State) (src : MgmtSrc) (q : List Byte) (op : Nat) : Prop :=
  requestOf s src = some q ∧ qOp q = op ∧ remembered s src q = none

/-- A request of this module's own management, not one that another member has passed on to it. -/
def ofOwn : MgmtSrc → Prop
  | .mailbox | .mctp _ => True
  | .peer _ _ | .replica _ _ _ => False

/-- It passes the checks 1 to 5 of R418: header, opcode, transport, the module's state, LENGTH. -/
def asks (s : State) (src : MgmtSrc) (q : List Byte) (op : Nat) (normal mailboxOnly : Bool) (len : Nat → Bool) : Prop :=
  stands s src q op ∧ qReserved q = false ∧ (mailboxOnly = true → overMctp src = false) ∧ (normal = true → isNormal s = true) ∧
    len (qLen q) = true ∧ 16 + qLen q ≤ q.length

/-- The state after a request has been answered and nothing else has happened. -/
def answered (s : State) (src : MgmtSrc) (q : List Byte) (status detail : Nat) (payload : List Byte) : State :=
  sendReply s src q (replyBytes q false status detail payload)

/-- The state after a background command has been accepted in an area: JOB_STATUS shows it running, and the reply says
RUNNING. -/
def accepted (s : State) (src : MgmtSrc) (q : List Byte) (area op : Nat) : State :=
  sendReply (setJob s area ⟨0, qSeq q, 1, op⟩) src q (replyBytes q true 0 0 [])

/-- The management packets: command, opcode, payload sizes, whether the recovery personality refuses it, and whether MCTP
does (R422, R425). -/
inductive PacketRow : (MgmtSrc → Instr) → Nat → (Nat → Bool) → Bool → Bool → Prop
  | status (w v : BitVec 16) : PacketRow (.status · w v) 0x02 (· == 0) false false
  | identify : PacketRow .identify 0x01 (· == 0) false false
  | jobStatus : PacketRow .jobStatus 0x03 (· == 0) false false
  | regRead : PacketRow .regRead 0x04 (· == 8) false false
  | regWrite : PacketRow .regWrite 0x05 (· == 8) false false
  | eventLogRead : PacketRow .eventLogRead 0x06 (· == 4) false false
  | stageWrite : PacketRow .stageWrite 0x10 (fun n => decide (12 ≤ n) && decide (n ≤ 4096) && n % 4 == 0) false false
  | verify : PacketRow (fun m => .verify (.mgmt m)) 0x11 (· == 4) false false
  | loadFull : PacketRow (fun m => .loadFull (.mgmt m)) 0x12 (· == 4) false false
  | loadPartial : PacketRow (fun m => .loadPartial (.mgmt m)) 0x13 (· == 4) false false
  | commit : PacketRow (fun m => .commit (.mgmt m)) 0x14 (· == 4) false false
  | stageCopy : PacketRow (fun m => .stageCopy (.mgmt m)) 0x15 (· == 12) true false
  | installKey : PacketRow (fun m => .installKey (.mgmt m)) 0x16 (· == 4) false false
  | revokeKey : PacketRow (fun m => .revokeKey (.mgmt m)) 0x17 (· == 4) false false
  | eraseStore : PacketRow (fun m => .eraseStore (.mgmt m)) 0x18 (· == 4) false false
  | plotStatus : PacketRow .plotStatus 0x20 (· == 4) true false
  | plotCommand : PacketRow .plotCommand 0x21 (· == 8) true false
  | fallowMap : PacketRow .fallowMap 0x30 (· == 0) true false
  | fallowApprove : PacketRow .fallowApprove 0x31 (· == 4) true false
  | tileRetire : PacketRow (fun m => .tileRetire (.mgmt m)) 0x32 (· == 4) true false
  | packageSpare : PacketRow (fun m => .packageSpare (.mgmt m)) 0x33 (· == 4) true false
  | coreSpare : PacketRow (fun m => .coreSpare (.mgmt m)) 0x34 (· == 4) true false
  | plotRelocate : PacketRow (fun m => .plotRelocate (.mgmt m)) 0x35 (· == 4) true false
  | vernierLatest : PacketRow .vernierLatest 0x40 (· == 0) false false
  | vernierRecords : PacketRow .vernierRecords 0x41 (· == 12) false false
  | vernierMark : PacketRow .vernierMark 0x42 (· == 8) false false
  | vernierFwReplace : PacketRow .vernierFwReplace 0x43 (· == 0) false false
  | lifetimeReset : PacketRow .lifetimeReset 0x44 (· == 0) false false
  | bufferAlloc (a : PoolAnswer) : PacketRow (.bufferAlloc · a) 0x50 (· == 24) true true
  | bufferFree (a : PoolAnswer) : PacketRow (.bufferFree · a) 0x51 (· == 4) true true
  | bufferInfo (a : PoolAnswer) : PacketRow (.bufferInfo · a) 0x52 (· == 4) true true
  | poolStatus : PacketRow .poolStatus 0x53 (· == 0) true false
  | deviceReset : PacketRow .deviceReset 0x60 (· == 0) false false
  | tileReset : PacketRow .tileReset 0x61 (· == 4) true false
  | debugEnable : PacketRow .debugEnable 0x62 (· == 0) false false
  | debugDisable : PacketRow .debugDisable 0x63 (· == 0) false false
  | diagRead : PacketRow .diagRead 0x64 (· == 16) true false

end Sys2Proof.Claims

section
open Sys2Proof Sys2Proof.Machine Sys2Proof.Claims

/-! Management packets. -/

/-- Replies (R417, R419, R421): the layout of a reply; the mailbox holds it with REPLY set, BUSY clear and its SEQUENCE, and
nothing else changes; MCTP sends it behind an in-band interrupt. The transport remembers the request with its reply. -/
def Sys2Proof.Claims.ManagementReplies : Prop :=
  (∀ (q : List Byte) (running : Bool) (status detail : Nat) (p : List Byte), status < 2 ^ 16 → detail < 2 ^ 32 →
    p.length < 2 ^ 13 →
    let r := replyBytes q running status detail p
    declNat r 0 1 = qOp q ∧ declNat r 1 1 = (if running then 3 else 1) ∧ declNat r 2 2 = qSeq q ∧
    declNat r 4 2 = (if status = 0 then p.length else 0) ∧ declNat r 6 2 = status ∧ declNat r 8 4 = detail ∧
    declNat r 12 4 = 0 ∧ r.drop 16 = if status = 0 then p else []) ∧
  (∀ (s : State) (q r : List Byte), 16 ≤ r.length →
    let t := sendReply s .mailbox q r
    onlyRegsAndMessages { s with mgmt := { s.mgmt with mbxRequest := none, lastMbx := some (q, r) } } t
      (fun o => o = Reg.mbxStatus ∨ (0x1010 ≤ o ∧ o < 0x1020) ∨ (0x3000 ≤ o ∧ o < 0x4000)) ∧
    (∀ i, i < 4 → getReg t (0x1010 + 4 * i) = BitVec.ofNat 32 (leNat ((r.drop (4 * i)).take 4))) ∧
    (∀ i, i < 1024 → 16 + 4 * i < r.length →
      getReg t (0x3000 + 4 * i) = BitVec.ofNat 32 (leNat ((r.drop (16 + 4 * i)).take 4))) ∧
    getb t Reg.mbxStatus 31 = false ∧ getb t Reg.mbxStatus 30 = true ∧ getf t Reg.mbxStatus 15 0 = declNat r 2 2) ∧
  (∀ (s : State) (l q r : List Byte), sendReply s (.mctp l) q r =
    { s with mgmt := { s.mgmt with lastMctp := some (q, r) }, sent := s.sent ++ [.i3cInterrupt, .mctp r] })

/-- The checks of a request in their order (R418, R419, R425): no request, or one for another row, does nothing; a repeat of
the last request gets the reply it got and is not executed again; then the first failure of header, transport, state and
LENGTH is answered and changes nothing. -/
def Sys2Proof.Claims.ManagementChecks : Prop :=
  (∀ (s : State) (src : MgmtSrc) (c : MgmtSrc → Instr) (op : Nat) (len : Nat → Bool) (normal mbx : Bool),
    PacketRow c op len normal mbx →
    (requestOf s src = none → (op ∈ [0x50, 0x51, 0x52] → ofOwn src) → exec (c src) s = .next s) ∧
    (∀ q, requestOf s src = some q → qOp q ≠ op → exec (c src) s = .next s) ∧
    (∀ q r, requestOf s src = some q → qOp q = op → remembered s src q = some r →
      exec (c src) s = .next (sendReply s src q r)) ∧
    (∀ q, stands s src q op →
      (qReserved q = true → exec (c src) s = .next (answered s src q 0x0001 0 [])) ∧
      (qReserved q = false → mbx = true → overMctp src = true → exec (c src) s = .next (answered s src q 0x0D04 0 [])) ∧
      (qReserved q = false → (mbx = true → overMctp src = false) → normal = true → isNormal s = false →
        exec (c src) s = .next (answered s src q 0x0D02 0 [])) ∧
      (qReserved q = false → (mbx = true → overMctp src = false) → (normal = true → isNormal s = true) →
        (len (qLen q) = false ∨ q.length < 16 + qLen q) → exec (c src) s = .next (answered s src q 0x0D01 0 [])))) ∧
  (∀ (s : State) (src : MgmtSrc) (q : List Byte), requestOf s src = some q →
    (assignedOps.contains (qOp q) = true → exec (.reservedOpcode src) s = .next s) ∧
    (assignedOps.contains (qOp q) = false → remembered s src q = none → exec (.reservedOpcode src) s =
      .next (answered s src q (if qReserved q then 0x0001 else 0x0002) 0 [])) ∧
    (∀ r, assignedOps.contains (qOp q) = false → remembered s src q = some r →
      exec (.reservedOpcode src) s = .next (sendReply s src q r)))

/-- Packets that read (R420, R422, R423, R457): each answers OK with the payload of the opcode table and changes nothing
but its reply; REG_READ and EVENT_LOG_READ refuse what lies outside their ranges. -/
def Obligations.ManagementReadings : Prop :=
  ∀ (s : State) (src : MgmtSrc) (q : List Byte),
    let r32 := fun off => leBytes 4 (readReg s off).toNat
    let r64 := fun off => r32 off ++ r32 (off + 4)
    (asks s src q 0x01 false false (· == 0) → exec (.identify src) s = .next (answered s src q 0 0
      (r32 0x100038 ++ [0, 0, 0, 0] ++ r64 0x100040 ++ leBytes 4 Config.romVersion ++ leBytes 4 Config.domeFwVersion ++
        leBytes 4 (getReg s 0x700030).toNat ++ r32 Reg.straps ++ r64 Reg.imageTag))) ∧
    (∀ w v : BitVec 16, asks s src q 0x02 false false (· == 0) → exec (.status src w v) s = .next (answered s src q 0 0
      (r32 Reg.alertCause ++ r32 Reg.thermal ++ r32 Reg.cfgStatus ++ r32 Reg.memStatus ++ r64 Reg.poolStatus ++
        r32 Reg.mtrStatus ++ r32 Reg.hostLink ++ leBytes 4 (w.toNat * 65536 + v.toNat)))) ∧
    (asks s src q 0x03 false false (· == 0) → exec (.jobStatus src) s = .next (answered s src q 0 0
      ([0, 1, 2, 3].flatMap fun a =>
        let j := getJob s a
        leBytes 8 (j.code * 2 ^ 32 + j.sequence * 2 ^ 16 + j.state * 2 ^ 8 + j.opcode)))) ∧
    (asks s src q 0x04 false false (· == 8) →
      let off := qWord q 0
      let n := qWord q 4
      let inside := ∃ b ∈ [(0x000000, 0x0FFFFF), (0x100000, 0x1000FF), (0x400000, 0x4FFFFF), (0x500000, 0x5FFFFF),
        (0x700000, 0x7FFFFF), (0x800000, 0x8FFFFF)], b.1 ≤ off ∧ off + 4 * n ≤ b.2 + 1
      (off % 4 ≠ 0 → exec (.regRead src) s = .next (answered s src q 0x0305 0 [])) ∧
      (off % 4 = 0 → (n = 0 ∨ 1024 < n) → exec (.regRead src) s = .next (answered s src q 0x0305 4 [])) ∧
      (off % 4 = 0 → 1 ≤ n → n ≤ 1024 → ¬ inside → exec (.regRead src) s = .next (answered s src q 0x0305 0 [])) ∧
      (off % 4 = 0 → 1 ≤ n → n ≤ 1024 → inside → exec (.regRead src) s = .next (answered s src q 0 0
        ((List.range n).flatMap fun i => r32 (off + 4 * i))))) ∧
    (asks s src q 0x06 false false (· == 4) →
      let head := (getReg s Reg.logHead).toNat
      let first := max (qWord q 0) (head - 4096)
      let n := min 127 (head - first)
      exec (.eventLogRead src) s = .next (answered s src q 0 0 (leBytes 4 (first + n) ++ leBytes 4 n ++
        (List.range n).flatMap fun i => (List.range 8).flatMap fun k => r32 (0x840000 + 32 * ((first + i) % 4096) + 4 * k)))) ∧
    (asks s src q 0x20 true false (· == 4) →
      let p := qWord q 0
      (32 ≤ p → exec (.plotStatus src) s = .next (answered s src q 0x0001 0 [])) ∧
      (p < 32 → exec (.plotStatus src) s = .next (answered s src q 0 0 (r32 (pltR p 4) ++ [0, 0, 0, 0] ++
        r64 (pltR p 8) ++ r32 (pltR p 0x10) ++ r32 (pltR p 0x14) ++ r32 (pltR p 0x18))))) ∧
    (asks s src q 0x30 true false (· == 0) → exec (.fallowMap src) s = .next (answered s src q 0 0
      (((List.range 1152).flatMap fun t => leBytes 1 (getf s (tileR t 0) 31 29)) ++
        ((List.range 13).flatMap fun p => leBytes 1 (getf s (pkgInfoR p) 31 30)) ++
        ((List.range 9).flatMap fun c => leBytes 1 (coreState s c)) ++
        (List.range 34).flatMap fun x => leBytes 1 (siteState s x)))) ∧
    (asks s src q 0x53 true false (· == 0) →
      exec (.poolStatus src) s = .next (answered s src q 0 0 (r64 Reg.poolStatus ++ r64 Reg.poolMembers)))

/-- Packets that change the module (R422 to R424, R433, R452): a register write reaches the alert registers alone, a stage
write the staging area; a plot command is a write of PLT_CTRL; a device reset falls due; debug access is switched off, and
only while it is on does DIAG_READ answer; a gated command waits for presence. -/
def Obligations.ManagementActions : Prop :=
  ∀ (s : State) (src : MgmtSrc) (q : List Byte),
    (asks s src q 0x05 false false (· == 8) →
      let v := BitVec.ofNat 32 (qWord q 4)
      (qWord q 0 ≠ Reg.alertCause → qWord q 0 ≠ Reg.alertEnable →
        exec (.regWrite src) s = .next (answered s src q 0x0305 0 [])) ∧
      (qWord q 0 = Reg.alertCause → ∃ t, exec (.domeAlertCauseWrite v) s = .next t ∧
        exec (.regWrite src) s = .next (answered t src q 0 0 [])) ∧
      (qWord q 0 = Reg.alertEnable → ∃ t, exec (.regWrite src) s = .next (answered t src q 0 0 []) ∧
        onlyRegsAndMessages s t (· = Reg.alertEnable) ∧ getf t Reg.alertEnable 7 0 = v.toNat % 256)) ∧
    (asks s src q 0x10 false false (fun n => decide (12 ≤ n) && decide (n ≤ 4096) && n % 4 == 0) →
      let off := qWord q 0
      let n := qLen q - 8
      (qWord q 4 ≠ 0 → exec (.stageWrite src) s = .next (answered s src q 0x0001 4 [])) ∧
      (qWord q 4 = 0 → (off % 4 ≠ 0 ∨ 2 ^ 28 < off + n) →
        exec (.stageWrite src) s = .next (answered s src q 0x0305 0 [])) ∧
      (qWord q 4 = 0 → off % 4 = 0 → off + n ≤ 2 ^ 28 → ∃ t, exec (.stageWrite src) s = .next (answered t src q 0 0 []) ∧
        t = { s with cfg := { s.cfg with staging := t.cfg.staging, staged := t.cfg.staged } } ∧
        rdBytes t.cfg.staging off n = (q.drop 24).take n ∧
        ∀ i, (i < off ∨ off + n ≤ i) → rdByte t.cfg.staging i = rdByte s.cfg.staging i)) ∧
    (asks s src q 0x21 true false (· == 8) →
      (qWord q 0 % 2 ^ 28 ≠ 0 → exec (.plotCommand src) s = .next (answered s src q 0x0001 0 [])) ∧
      (qWord q 0 % 2 ^ 28 = 0 → 32 ≤ qWord q 4 → exec (.plotCommand src) s = .next (answered s src q 0x0001 4 [])) ∧
      (qWord q 0 % 2 ^ 28 = 0 → qWord q 4 < 32 → exec (.plotCommand src) s =
        .next (answered (pltCtrl (qWord q 4) (BitVec.ofNat 32 (qWord q 0)) s) src q 0 0 []))) ∧
    (asks s src q 0x60 false false (· == 0) →
      (jobRuns s 3 = true → exec (.deviceReset src) s = .next (answered s src q 0x0D03 0 [])) ∧
      (jobRuns s 3 = false → ∃ t, exec (.deviceReset src) s = .next t ∧
        t = { accepted s src q 3 0x60 with mgmt := { (accepted s src q 3 0x60).mgmt with softDue := some s.cycle } } ∧
        getJob t 3 = ⟨0, qSeq q, 1, 0x60⟩)) ∧
    (asks s src q 0x63 false false (· == 0) → exec (.debugDisable src) s =
      .next (answered { s with mgmt := { s.mgmt with debug := false } } src q 0 0 [])) ∧
    (asks s src q 0x64 true false (· == 16) →
      let addr := declNat q 16 8
      let space := qWord q 8
      let n := qWord q 12
      (256 ≤ space → exec (.diagRead src) s = .next (answered s src q 0x0001 8 [])) ∧
      (2 ≤ space → space < 256 → exec (.diagRead src) s = .next (answered s src q 0x0305 8 [])) ∧
      (space = 1 → n ≠ 256 → exec (.diagRead src) s = .next (answered s src q 0x0305 12 [])) ∧
      (space = 1 → n = 256 → addr < 2 ^ 20 → addr % 2 ^ 14 < siteFrames (addr / 2 ^ 14) →
        (s.mgmt.debug = false → exec (.diagRead src) s = .next (answered s src q 0x0D05 0 [])) ∧
        (s.mgmt.debug = true → exec (.diagRead src) s =
          .next (answered s src q 0 0 (leBytes 256 (smGet 0 addr s.cfg.frames))))) ∧
      (space = 0 → diagBad q s = none → tierBad s (fld addr 49 48) (fld addr 47 0) n = true →
        exec (.diagRead src) s = .next (answered s src q 0x0C03 0 [])) ∧
      (space = 0 → diagBad q s = none → tierBad s (fld addr 49 48) (fld addr 47 0) n = false →
        exec (.diagRead src) s = .next (answered { s with free := s.free + 1 } src q 0 0
          ((List.range n).map fun i => tierByte s (fld addr 49 48) (fld addr 47 0 + i)))) ∧
      (diagBad q s = none → s.mgmt.debug = true)) ∧
    (∀ c op, (c, op) ∈ [(Instr.vernierFwReplace src, 0x43), (.lifetimeReset src, 0x44), (.debugEnable src, 0x62)] →
      asks s src q op false false (· == 0) →
      (op = 0x43 → s.vrn.sealIsOpen = false → exec c s = .next (answered s src q 0x0E03 0 [])) ∧
      ((op = 0x43 → s.vrn.sealIsOpen = true) →
        (s.mgmt.presence ≠ none → exec c s = .next (answered s src q 0x0E02 0 [])) ∧
        (s.mgmt.presence = none → jobRuns s 2 = true → exec c s = .next (answered s src q 0x0D03 0 [])) ∧
        (s.mgmt.presence = none → jobRuns s 2 = false → ∃ t, exec c s = .next t ∧
          getJob t 2 = ⟨0, qSeq q, 3, op⟩ ∧ t.mgmt.presence = some (op, s.cycle, false) ∧ t.mgmt.debug = s.mgmt.debug ∧
          t.regs = (accepted s src q 2 op).regs ∧ t.vrn = s.vrn)))

/-- Configuration commands as packets (R392, R418, R420, R422): reserved fields, then a reserved COMMAND (R10), then the wrong one,
then what refuses the register command refuse the packet; one that goes ahead shows in CFG_CMD_STATUS and in JOB_STATUS area 0, and its end in
both. -/
def Sys2Proof.Claims.ConfigurationPackets : Prop :=
  ∀ (s : State) (src : MgmtSrc) (q : List Byte) (c : Instr) (n : Nat),
    (c, n) ∈ [(Instr.verify (.mgmt src), 1), (.loadFull (.mgmt src), 2), (.loadPartial (.mgmt src), 3),
      (.commit (.mgmt src), 4), (.stageCopy (.mgmt src), 5), (.installKey (.mgmt src), 6), (.revokeKey (.mgmt src), 7),
      (.eraseStore (.mgmt src), 8)] →
    asks s src q (0x10 + n) (n == 5) false (· == if n = 5 then 12 else 4) →
    let w := qWord q 0
    let odd := 2 ^ 18 ≤ w ∨ fld w 15 13 ≠ 0 ∨ fld w 7 5 ≠ 0
    (odd → exec c s = .next (answered s src q 0x0001 0 [])) ∧
    (¬ odd → (fld w 3 0 = 0 ∨ 9 ≤ fld w 3 0) → exec c s = .next (answered s src q 0x0002 0 [])) ∧
    (¬ odd → 1 ≤ fld w 3 0 → fld w 3 0 ≤ 8 → fld w 3 0 ≠ n → exec c s = .next (answered s src q 0x0305 0 [])) ∧
    (∀ code, ¬ odd → fld w 3 0 = n → cmdRefusal s n (fld w 12 8) = some code →
      exec c s = .next (answered s src q code 0 [])) ∧
    (¬ odd → fld w 3 0 = n → cmdRefusal s n (fld w 12 8) = none → ∃ t, exec c s = .next t ∧
      getf t Reg.cfgCmdStatus 27 24 = n ∧ (getJob t 0).opcode = 0x10 + n ∧ (getJob t 0).sequence = qSeq q ∧
      ((getb t Reg.cfgCmdStatus 31 = false ∧ t.cfg.run = none ∧ (getJob t 0).state = 2 ∧
          getf t Reg.cfgCmdStatus 15 0 = (getJob t 0).code % 2 ^ 16) ∨
        (getb t Reg.cfgCmdStatus 31 = true ∧ ((getJob t 0).state = 1 ∨ ((getJob t 0).state = 3 ∧ 6 ≤ n ∧
            t.mgmt.presence = some (0x10 + n, s.cycle, false))) ∧
          ∃ r, t.cfg.run = some r ∧ r.command = n ∧ r.packet = true)))

/-- Buffers (R269 to R274): the first failing check of BUFFER_ALLOC is answered; the steward makes a handle that no live
handle had, of the size and kind asked for, and records it on the deputy before it replies; any other member passes the
request to the steward, and replies and acts as the steward answers. BUFFER_FREE takes a handle and its contents away
unless it is in use on some member; BUFFER_INFO describes one. -/
def Obligations.Buffers : Prop :=
  ∀ (s : State) (src : MgmtSrc) (q : List Byte) (ans : PoolAnswer),
    let passed := { s with sent := s.sent ++ [.poolRequest (stewardId s) q] }
    let recordedTo := fun (m : Nat) (r : List Byte) =>
      if deputyId s = ownId s then s.sent else s.sent ++ [.replicate (deputyId s) m q r]
    let made := fun (t : State) (id home : Nat) =>
      t.pool.lastHandle = id ∧ (∃ h, t.handles = s.handles ++ [h] ∧ h.id = id ∧ h.size = declNat q 16 8 ∧
        h.kind = fld (qWord q 8) 19 18 ∧ h.access = fld (qWord q 8) 15 0 ∧ h.tier = fld (qWord q 8) 17 16 ∧ h.home = home ∧
        h.lost = []) ∧ t.mem = s.mem ∧ t.regs = s.regs
    let freed := fun (t : State) (id : Nat) =>
      t.handles = (s.handles.filter fun h => h.id != id) ∧ (∀ o, o < 2 ^ 44 → rdByte t.mem (id * 2 ^ 44 + o) = 0) ∧
        (∀ a, (a < id * 2 ^ 44 ∨ (id + 1) * 2 ^ 44 ≤ a) → rdByte t.mem a = rdByte s.mem a) ∧
        t.regs = s.regs ∧ t.alms = s.alms ∧ t.tiles = s.tiles
    let describes := fun (l : List Byte) (h : Handle) => ∃ n, l = leBytes 8 h.size ++
        leBytes 4 (h.kind * 2 ^ 18 + h.tier * 2 ^ 16 + h.access) ++ leBytes 4 h.lost.length ++ leBytes 4 n ∧
      n = (if h.kind = 0 then ((livePages h).filter fun j => (placeOf s h j).module == ownId s).length else 0)
    (asks s src q 0x50 true true (· == 24) →
      let size := declNat q 16 8
      let w := qWord q 8
      let kind := fld w 19 18
      let fine := w < 2 ^ 20 ∧ qWord q 12 < 256 ∧ 0 < size ∧ size ≤ 2 ^ 44
      let refused := fun c d => exec (.bufferAlloc src ans) s = .next (answered s src q c d [])
      (2 ^ 20 ≤ w → refused 0x0001 8) ∧
      (w < 2 ^ 20 → 256 ≤ qWord q 12 → refused 0x0001 12) ∧
      (w < 2 ^ 20 → qWord q 12 < 256 → kind = 3 → refused 0x0002 8) ∧
      (w < 2 ^ 20 → qWord q 12 < 256 → kind ≠ 3 → (size = 0 ∨ 2 ^ 44 < size) → refused 0x0305 0) ∧
      (fine → kind = 1 → 32 ≤ qWord q 12 → refused 0x0305 12) ∧
      (fine → kind = 0 → noPool s = true → refused 0x0801 0) ∧
      (fine → kind = 0 → isSteward s = true → 1048576 ≤ s.handles.length → refused 0x0802 0) ∧
      (fine → kind = 0 → isSteward s = true → s.handles.length < 1048576 →
        (memberList s).length * (1472 * 2 ^ 14) < pagesReserved s + pagesOf size → refused 0x0803 0) ∧
      (allocBad q s = none → isSteward s = true → ∃ t id,
        exec (.bufferAlloc src ans) s = .next (answered t src q 0 0 (leBytes 4 id)) ∧ made t id (ownId s) ∧
        t.sent = recordedTo (ownId s) (replyBytes q false 0 0 (leBytes 4 id)) ∧
        0 < id ∧ id < 2 ^ 32 ∧ (∀ h, h ∈ s.handles → h.id ≠ id)) ∧
      (allocBad q s = none → isSteward s = false →
        (ans.code ≠ 0 → exec (.bufferAlloc src ans) s = .next (answered passed src q ans.code.toNat 0 [])) ∧
        (ans.code = 0 → ∃ t, exec (.bufferAlloc src ans) s = .next (answered t src q 0 0 ans.payload) ∧
          made t (leNat (ans.payload.take 4)) (ownId s) ∧ t.sent = passed.sent))) ∧
    (asks s src q 0x51 true true (· == 4) →
      let id := qWord q 0
      let refused := fun c => exec (.bufferFree src ans) s = .next (answered s src q c 0 [])
      (noPool s = true → refused 0x0801) ∧
      (noPool s = false → findHandle s id = none → refused 0x0303) ∧
      (noPool s = false → findHandle s id ≠ none → (handleUsed s id = true ∨ (isSteward s = true ∧ ans.busy = true)) →
        refused 0x0804) ∧
      (noPool s = false → findHandle s id ≠ none → handleUsed s id = false →
        (isSteward s = true → ans.busy = false → ∃ t,
          exec (.bufferFree src ans) s = .next (answered t src q 0 0 []) ∧ freed t id ∧
          t.sent = recordedTo (ownId s) (replyBytes q false 0 0 [])) ∧
        (isSteward s = false → ans.code ≠ 0 →
          exec (.bufferFree src ans) s = .next (answered passed src q ans.code.toNat 0 [])) ∧
        (isSteward s = false → ans.code = 0 → ∃ t,
          exec (.bufferFree src ans) s = .next (answered t src q 0 0 ans.payload) ∧ freed t id ∧ t.sent = passed.sent))) ∧
    (asks s src q 0x52 true true (· == 4) →
      (noPool s = true → exec (.bufferInfo src ans) s = .next (answered s src q 0x0801 0 [])) ∧
      (noPool s = false → findHandle s (qWord q 0) = none →
        exec (.bufferInfo src ans) s = .next (answered s src q 0x0303 0 [])) ∧
      (∀ h, noPool s = false → findHandle s (qWord q 0) = some h →
        (isSteward s = true → ∃ l, describes l h ∧ exec (.bufferInfo src ans) s = .next (answered s src q 0 0 l)) ∧
        (isSteward s = false →
          exec (.bufferInfo src ans) s = .next (answered passed src q ans.code.toNat 0 ans.payload)))) ∧
    (∀ f, (isSteward s = false ∨ isMember s f = false ∨ f = ownId s) →
      exec (.bufferAlloc (.peer f q) ans) s = .next s ∧ exec (.bufferFree (.peer f q) ans) s = .next s ∧
      exec (.bufferInfo (.peer f q) ans) s = .next s) ∧
    (∀ f, isSteward s = true → isMember s f = true → f ≠ ownId s →
      (qOp q = 0x50 → allocBad q s = none → ∃ t id, exec (.bufferAlloc (.peer f q) ans) s = .next t ∧ made t id f ∧
        t.sent = recordedTo f (replyBytes q false 0 0 (leBytes 4 id)) ++
          [.poolReply f (replyBytes q false 0 0 (leBytes 4 id))]) ∧
      (qOp q = 0x50 → ∀ c d, allocBad q s = some (c, d) → exec (.bufferAlloc (.peer f q) ans) s =
        .next { s with sent := s.sent ++ [.poolReply f (replyBytes q false c d [])] }) ∧
      (qOp q = 0x51 → findHandle s (qWord q 0) ≠ none → handleUsed s (qWord q 0) = false → ans.busy = false →
        ∃ t, exec (.bufferFree (.peer f q) ans) s = .next t ∧ freed t (qWord q 0) ∧
          t.sent = recordedTo f (replyBytes q false 0 0 []) ++ [.poolReply f (replyBytes q false 0 0 [])])) ∧
    (∀ f r, f ≠ ownId s → noPool s = false → isSteward s = false →
      (qOp q = 0x50 → ∃ t, exec (.bufferAlloc (.replica f q r) ans) s = .next t ∧
        made t (leNat ((r.drop 16).take 4)) f ∧ t.sent = s.sent) ∧
      (qOp q = 0x51 → ∃ t, exec (.bufferFree (.replica f q r) ans) s = .next t ∧ freed t (qWord q 0) ∧ t.sent = s.sent) ∧
      exec (.bufferInfo (.replica f q r) ans) s = .next s)

end
section
open Sys2Proof Sys2Proof.Machine Sys2Proof.Claims

/-! Out-of-band management and attestation. -/

/-- MCTP control messages and the I3C address (R426): a packet that the endpoint takes, after ROM boot, of at most 64 bytes
and without the integrity bit, is answered behind an in-band interrupt; any other packet is discarded. The layout of each
message is that of DSP0236, which the rule names (log entry 61). -/
def Sys2Proof.Claims.MctpControl : Prop :=
  ∀ (s : State) (pkt : MctpPkt) (e : Byte),
    let taken := s.power.romBooted = true ∧ pkt.size ≤ 64 ∧ pkt.integrity = false
    let reply := fun (t : State) (l : List Byte) => { t with sent := t.sent ++ [.i3cInterrupt, .mctp l] }
    (¬ taken → ∀ c, c ∈ [Instr.setEndpointId pkt e, .getEndpointId pkt, .getEndpointUuid pkt, .getMctpVersionSupport pkt,
      .getMessageTypeSupport pkt, .getVendorDefinedMessageSupport pkt, .unsupportedMctpControl pkt e] →
      exec c s = .next s) ∧
    (taken →
      (e ≠ 0 → e ≠ 255 → exec (.setEndpointId pkt e) s =
        .next (reply { s with mgmt := { s.mgmt with eid := e.toNat } } [0x01, 0x00, 0x00, e, 0x00])) ∧
      ((e = 0 ∨ e = 255) → exec (.setEndpointId pkt e) s = .next (reply s [0x01, 0x02])) ∧
      exec (.getEndpointId pkt) s = .next (reply s [0x02, 0x00, BitVec.ofNat 8 s.mgmt.eid, 0x00, 0x00]) ∧
      exec (.getEndpointUuid pkt) s = .next (reply s ([0x03, 0x00] ++ (List.range 16).map Config.endpointUuid)) ∧
      exec (.getMctpVersionSupport pkt) s = .next (reply s [0x04, 0x00, 0x01, 0xF1, 0xF3, 0xFF, 0x00]) ∧
      exec (.getMessageTypeSupport pkt) s = .next (reply s [0x05, 0x00, 0x02, 0x00, 0x7E]) ∧
      exec (.getVendorDefinedMessageSupport pkt) s =
        .next (reply s ([0x06, 0x00, 0xFF, 0x00] ++ beBytes 2 Config.pciVendor ++ [0x00, 0x00])) ∧
      ((e = 0 ∨ 6 < e.toNat) → exec (.unsupportedMctpControl pkt e) s = .next (reply s [e, 0x05])) ∧
      (e ≠ 0 → e.toNat ≤ 6 → exec (.unsupportedMctpControl pkt e) s = .next s)) ∧
    (∀ a : BitVec 7, exec (.entdaa a) s = .next { s with mgmt := { s.mgmt with dynAddr := a.toNat } })

/-- The SPDM responder (R427, R428): from the end of ROM boot it answers version 1.2, its capabilities and the algorithms it
has in common with the requester; digests, certificates, challenges and measurements need both algorithms agreed; what it
does not support or cannot serve is an error, after which nothing agreed is kept. The layout of each message is that of
DSP0274, which the rule names (log entry 62). -/
def Sys2Proof.Claims.SpdmResponder : Prop :=
  ∀ s : State,
    let reply := fun (t : State) (code : Nat) (l : List Byte) => { t with sent := t.sent ++ [.spdm code l] }
    let dropped := { s with mgmt := { s.mgmt with spdmNegotiated := false } }
    let counted := { s with mgmt := { s.mgmt with spdmCount := s.mgmt.spdmCount + 1 } }
    let error := fun code data : Nat => Host.Outcome.next (σ := State) (φ := Fault) (ρ := Refusal)
      (reply dropped 0x7F [BitVec.ofNat 8 code, BitVec.ofNat 8 data])
    let chain := (List.range Config.spdmCertLen).map Config.spdmCert
    let nonce := (List.range 32).map (Config.spdmNonce s.mgmt.spdmCount)
    let signature := (List.range 512).map (Config.spdmSignature s.mgmt.spdmCount)
    (s.power.romBooted = false → ∀ (a b : Bool) (k : BitVec 3) (o n : BitVec 16) (l : List Byte) (x : Byte), ∀ c, c ∈
      [Instr.getVersion, .getCapabilities, .negotiateAlgorithms a b, .getDigests, .getCertificate k o n, .challenge k l,
        .getMeasurements x a, .unsupportedSpdmRequest x] → exec c s = .next s) ∧
    (s.power.romBooted = true →
      exec .getVersion s = .next (reply dropped 0x04 [0, 0, 0, 1, 0x00, 0x12]) ∧
      exec .getCapabilities s =
        .next (reply s 0x61 ([0, 0, 0, 20, 0, 0, 0x16, 0, 0, 0] ++ leBytes 8 Config.spdmSizes)) ∧
      exec (.negotiateAlgorithms false false) s = error 0x01 0 ∧
      (∀ a b : Bool, (a = true ∨ b = true) → exec (.negotiateAlgorithms a b) s =
        .next (reply { s with mgmt := { s.mgmt with spdmNegotiated := a && b } } 0x63
          ([0, 0, 36, 0, 1, 0, 0x08, 0, 0, 0] ++ leBytes 4 (if a then 0x40 else 0) ++ leBytes 4 (if b then 0x04 else 0) ++
            List.replicate 16 0))) ∧
      (∀ x : Byte, x.toNat ∈ [0x84, 0xE1, 0xE3, 0x81, 0x82, 0x83, 0xE0] → exec (.unsupportedSpdmRequest x) s = .next s) ∧
      (∀ x : Byte, x.toNat ∉ [0x84, 0xE1, 0xE3, 0x81, 0x82, 0x83, 0xE0] →
        exec (.unsupportedSpdmRequest x) s = error 0x07 x.toNat) ∧
      (s.mgmt.spdmNegotiated = false → ∀ (a : Bool) (k : BitVec 3) (o n : BitVec 16) (l : List Byte) (x : Byte), ∀ c, c ∈
        [Instr.getDigests, .getCertificate k o n, .challenge k l, .getMeasurements x a] → exec c s = error 0x04 0) ∧
      (s.mgmt.spdmNegotiated = true →
        exec .getDigests s = .next (reply s 0x01 ([0, 1] ++ sha512 chain)) ∧
        (∀ (k : BitVec 3) (o n : BitVec 16), (k ≠ 0 ∨ Config.spdmCertLen ≤ o.toNat) →
          exec (.getCertificate k o n) s = error 0x01 0) ∧
        (∀ o n : BitVec 16, o.toNat < Config.spdmCertLen →
          let part := (chain.drop o.toNat).take n.toNat
          exec (.getCertificate 0 o n) s = .next (reply s 0x02 ([0, 0] ++ leBytes 2 part.length ++
            leBytes 2 (Config.spdmCertLen - o.toNat - part.length) ++ part))) ∧
        (∀ (k : BitVec 3) (l : List Byte), k ≠ 0 → exec (.challenge k l) s = error 0x01 0) ∧
        (∀ l : List Byte, exec (.challenge 0 l) s =
          .next (reply counted 0x03 ([0, 1] ++ sha512 chain ++ nonce ++ [0, 0] ++ signature))) ∧
        (∀ (x : Byte) (a : Bool), 7 < x.toNat → x.toNat < 255 → exec (.getMeasurements x a) s = error 0x01 0) ∧
        (∀ a : Bool, exec (.getMeasurements 0 a) s = .next (reply counted 0x60
          ([7, 0, 0, 0, 0, 0] ++ nonce ++ [0, 0] ++ if a then signature else []))) ∧
        (∀ (x : Byte) (a : Bool), 1 ≤ x.toNat → x.toNat ≤ 7 →
          ∃ v raw ty, measurement s x.toNat = some (raw, v) ∧
            ty = [0, 0, 1, 1, 3, 3, 2, 3][x.toNat]! + (if raw then 128 else 0) ∧
            let block := [x, 1] ++ leBytes 2 (v.length + 3) ++ [BitVec.ofNat 8 ty] ++ leBytes 2 v.length ++ v
            exec (.getMeasurements x a) s = .next (reply counted 0x60
              ([0, 0, 1] ++ leBytes 3 block.length ++ block ++ nonce ++ [0, 0] ++ if a then signature else []))) ∧
        (∀ a : Bool,
          let blocks := [1, 2, 3, 4, 5, 6, 7].flatMap (measurementBlock s)
          exec (.getMeasurements 255 a) s = .next (reply counted 0x60
            ([0, 0, 7] ++ leBytes 3 blocks.length ++ blocks ++ nonce ++ [0, 0] ++ if a then signature else []))))) ∧
    (∀ i, 1 ≤ i → i ≤ 2 → measurement s i = some (false, (List.range 64).map (Config.firmwareDigest i))) ∧
    (measurement s 4 = some (false, if cfgState s = 5 then s.cfg.loadedHash else List.replicate 64 0)) ∧
    (measurement s 5 = some (false, sha512 ((List.range 4).flatMap fun k => match findKey s k with
      | some m => beBytes 512 m
      | none => List.replicate 512 0))) ∧
    (measurement s 6 = some (true, leBytes 8 ((if s.mgmt.debug then 1 else 0) + if isNormal s then 2 else 0))) ∧
    (measurement s 7 = some (true, (List.range 32).flatMap fun p => leBytes 8 (getPlot s p).tag))

end
namespace Sys2Proof.Claims
open Sys2Proof Sys2Proof.Machine

/-- The Vernier's energy register in whole millijoules (R437): 64 bits of it. -/
def milliJoules (s : State) : Nat := s.vrn.joules / 10 ^ 15 % 2 ^ 64

/-- A record has been stored as the newest (R439, R443): its body starts with MAGIC and VERSION, carries the
interval number, the energy at the interval's end and since the last record, and the hash of the record before it; the
interval number moves on. -/
def recordStored (s t : State) (flags : Nat) : Prop :=
  ∃ r, t.vrn.records = (r :: s.vrn.records).take 2097152 ∧
    declNat r 0 4 = 0x314E5256 ∧ declNat r 4 2 = 1 ∧ declNat r 6 2 = flags % 2 ^ 16 ∧
    declNat r 24 8 = s.vrn.nextInterval % 2 ^ 64 ∧ declNat r 32 8 = milliJoules s ∧
    declNat r 40 8 = (milliJoules s + 2 ^ 64 - s.vrn.lastEnergyMj) % 2 ^ 64 ∧ declNat r 48 8 = s.vrn.sampleUs % 2 ^ 64 ∧
    t.vrn.nextInterval = s.vrn.nextInterval + 1 ∧ t.vrn.lastHash = sha512 r ∧ t.vrn.lastEnergyMj = milliJoules s

/-- A new interval has begun: nothing metered yet. -/
def intervalOpened (t : State) : Prop :=
  t.vrn.sampleUs = 0 ∧ t.vrn.marks = [] ∧ t.vrn.pMax = 0 ∧ t.vrn.vMax = 0 ∧ t.vrn.flags = 0 ∧ t.vrn.first = false

end Sys2Proof.Claims

section
open Sys2Proof Sys2Proof.Machine Sys2Proof.Claims

/-! The Vernier. -/

/-- Energy (R435, R437, R440, R455): each sample pair adds its product to the energy register; every thousand samples
give a millisecond's mean, which moves the interval's extremes and the two power registers. -/
def Sys2Proof.Claims.EnergyIntegrates : Prop :=
  ∀ (s : State) (uv ua : Nat),
    (s.vrn.powered = false → exec (.energySample uv ua) s = .next s) ∧
    (s.vrn.powered = true → ∃ t, exec (.energySample uv ua) s = .next t ∧
      t = { s with regs := t.regs, vrn := t.vrn } ∧ t.vrn.joules = s.vrn.joules + uv * ua ∧
      t.vrn.sampleUs = s.vrn.sampleUs + 1 ∧ t.vrn.upUs = s.vrn.upUs + 1 ∧ t.vrn.records = s.vrn.records ∧
      (s.vrn.msSamples + 1 < 1000 → t.regs = s.regs ∧ t.vrn.msSamples = s.vrn.msSamples + 1 ∧
        t.vrn.msEnergy = s.vrn.msEnergy + uv * ua ∧ t.vrn.pMax = s.vrn.pMax ∧ t.vrn.pMin = s.vrn.pMin ∧
        t.vrn.flags = s.vrn.flags) ∧
      (1000 ≤ s.vrn.msSamples + 1 →
        let mw := (s.vrn.msEnergy + uv * ua) / 10 ^ 12
        let cv := (s.vrn.msVolts + uv) / 1000 / 10 ^ 4
        t.vrn.msSamples = 0 ∧ t.vrn.msEnergy = 0 ∧ t.vrn.pMax = max s.vrn.pMax mw ∧ t.vrn.pMin = min s.vrn.pMin mw ∧
        t.vrn.vMax = max s.vrn.vMax cv ∧ t.vrn.vMin = min s.vrn.vMin cv ∧
        (getReg t 0x700020).toNat = mw % 2 ^ 32 ∧ getf t 0x700024 15 0 = cv % 2 ^ 16 ∧
        (∀ o, o ≠ 0x700020 → o ≠ 0x700024 → getReg t o = getReg s o) ∧
        (bitOf t.vrn.flags 3 = (bitOf s.vrn.flags 3 || decide (2640 * 10 ^ 15 < s.vrn.msEnergy + uv * ua))) ∧
        (bitOf t.vrn.flags 4 = (bitOf s.vrn.flags 4 || decide (s.vrn.msEnergy + uv * ua < 110 * 10 ^ 15)))))

/-- Intervals, power and firmware (R437 to R443, R447): a boundary closes the open interval with one record; a loss of power
keeps the register in whole millijoules and the body that was open, which the firmware signs when it next runs; the boot
counter and VRN_STATUS show a start, and alert cause 7 stands for as long as no firmware runs. -/
def Sys2Proof.Claims.VernierRecording : Prop :=
  ∀ s : State,
    ((s.vrn.powered = false ∨ s.vrn.fwRunning = false ∨ s.vrn.upUs % 1000000 ≠ 0 ∨ s.vrn.sampleUs = 0) →
      exec .intervalEnd s = .next s) ∧
    (s.vrn.powered = true → s.vrn.fwRunning = true → s.vrn.upUs % 1000000 = 0 → s.vrn.sampleUs ≠ 0 →
      ∃ t, exec .intervalEnd s = .next t ∧ recordStored s t (recordFlags s.vrn 0) ∧ intervalOpened t ∧
        t.vrn.joules = s.vrn.joules ∧ t = { s with vrn := t.vrn }) ∧
    (s.vrn.powered = false → exec .vernierPowerLoss s = .next s) ∧
    (s.vrn.powered = true → ∃ t, exec .vernierPowerLoss s = .next t ∧ t = { s with vrn := t.vrn } ∧
      t.vrn.powered = false ∧ t.vrn.fwRunning = false ∧ t.vrn.joules = s.vrn.joules / 10 ^ 15 * 10 ^ 15 ∧
      t.vrn.records = s.vrn.records ∧
      (s.vrn.fwRunning = true → t.vrn.stored = some (recordBody s 6)) ∧
      (s.vrn.fwRunning = false → t.vrn.stored = s.vrn.stored)) ∧
    (s.vrn.powered = true → exec .vernierPowerUp s = .next s) ∧
    (s.vrn.powered = false → ∃ t, exec .vernierPowerUp s = .next t ∧ t.vrn.powered = true ∧ t.vrn.fwRunning = false ∧
      t.vrn.first = true ∧ t.vrn.joules = s.vrn.joules ∧ t.vrn.records = s.vrn.records ∧
      getReg t 0x700028 = getReg s 0x700028 + 1 ∧ getf t Reg.vrnStatus 31 30 = 0 ∧ getf t Reg.vrnStatus 15 0 = 0 ∧
      getReg t 0x700030 = 0 ∧ bitOf t.power.alertHold 7 = true ∧ t.mem = s.mem) ∧
    (∀ ok, (s.vrn.powered = false ∨ s.vrn.fwRunning = true) → exec (.fwLoadAttempt ok) s = .next s) ∧
    (s.vrn.powered = true → s.vrn.fwRunning = false → s.vrn.replacing = none →
      (∃ t, exec (.fwLoadAttempt false) s = .next t ∧ onlyRegs s t (· = Reg.vrnStatus) ∧
        getf t Reg.vrnStatus 15 0 = min (getf s Reg.vrnStatus 15 0 + 1) 65535) ∧
      (∃ t, exec (.fwLoadAttempt true) s = .next t ∧ t.vrn.fwRunning = true ∧ getf t Reg.vrnStatus 31 30 = 1 ∧
        getReg t 0x700030 = BitVec.ofNat 32 s.vrn.fwVersion ∧ bitOf t.power.alertHold 7 = false ∧
        t.vrn.stored = none ∧ (s.vrn.stored = none → t.vrn.records = s.vrn.records) ∧
        (∀ b, s.vrn.stored = some b → ∃ r, t.vrn.records = (r :: s.vrn.records).take 2097152 ∧ r.take b.length = b ∧
          r.length = b.length + 512 ∧ t.vrn.nextInterval = s.vrn.nextInterval + 1)))

/-- The seal (R448) and firmware replacement (R449): an opening is counted and logged, stays in the interval's flags, and a
closing ends a replacement that is being written; a replacement written and read back right makes its version the one that
runs, and one that is not leaves the old. -/
def Sys2Proof.Claims.SealAndReplacement : Prop :=
  ∀ (s : State) (isOpen : Bool),
    (s.vrn.powered = false → exec (.sealCheck isOpen) s = .next s) ∧
    (s.vrn.powered = true → ∃ t, exec (.sealCheck isOpen) s = .next t ∧ t.vrn.sealIsOpen = isOpen ∧
      getb t Reg.vrnStatus 29 = isOpen ∧ t.vrn.sealTouched = (s.vrn.sealTouched || isOpen) ∧
      t.vrn.joules = s.vrn.joules ∧ t.vrn.records = s.vrn.records ∧
      (isOpen = true → s.vrn.sealIsOpen = false → getReg t 0x70002C = getReg s 0x70002C + 1 ∧
        logged s t 0 0x0E0A 0 (getReg t 0x70002C).toNat) ∧
      ((isOpen = false ∨ s.vrn.sealIsOpen = true) → getReg t 0x70002C = getReg s 0x70002C) ∧
      (isOpen = false → s.vrn.replacing ≠ none → t.vrn.replacing = none ∧ t.vrn.fwVersion = s.vrn.fwVersion ∧
        (jobRuns s 2 = true → (getJob t 2).state = 2 ∧ (getJob t 2).code = 0x0E05))) ∧
    (∀ ver dig, s.vrn.powered = true → s.vrn.fwRunning = false → s.vrn.replacing = some (ver, dig) →
      (∃ t, exec (.fwLoadAttempt true) s = .next t ∧ t.vrn.fwVersion = ver ∧ t.vrn.fwDigestNew = some dig ∧
        t.vrn.replacing = none ∧ t.vrn.fwRunning = true ∧ getReg t 0x700030 = BitVec.ofNat 32 ver ∧
        (jobRuns s 2 = true → (getJob t 2).state = 2 ∧ (getJob t 2).code = 0)) ∧
      (∃ t, exec (.fwLoadAttempt false) s = .next t ∧ t.vrn.fwVersion = s.vrn.fwVersion ∧
        t.vrn.fwDigestNew = s.vrn.fwDigestNew ∧ t.vrn.replacing = none ∧ t.vrn.fwRunning = true ∧
        (jobRuns s 2 = true → (getJob t 2).state = 2 ∧ (getJob t 2).code = 0x0E05)))

/-- The Vernier's packets (R444, R445): the latest record, a run of records, and a marker in the open interval, with the
codes that refuse them. -/
def Sys2Proof.Claims.VernierPackets : Prop :=
  ∀ (s : State) (src : MgmtSrc) (q : List Byte),
    (asks s src q 0x40 false false (· == 0) →
      (s.vrn.records = [] → exec (.vernierLatest src) s = .next (answered s src q 0x0E06 0 [])) ∧
      (∀ r l, s.vrn.records = r :: l → exec (.vernierLatest src) s = .next (answered s src q 0 0 r))) ∧
    (asks s src q 0x41 false false (· == 12) →
      let first := declNat q 16 8
      let oldest := s.vrn.nextInterval - min s.vrn.nextInterval 2097152
      (s.vrn.records = [] → exec (.vernierRecords src) s = .next (answered s src q 0x0E06 0 [])) ∧
      (s.vrn.records ≠ [] → (first < oldest ∨ s.vrn.nextInterval ≤ first) →
        exec (.vernierRecords src) s = .next (answered s src q 0x0E07 0 [])) ∧
      (s.vrn.records ≠ [] → oldest ≤ first → first < s.vrn.nextInterval → exec (.vernierRecords src) s =
        .next (answered s src q 0 0 ((List.range (min 5 (qWord q 8))).flatMap fun i =>
          if first + i < s.vrn.nextInterval then (s.vrn.records[s.vrn.nextInterval - 1 - (first + i)]?).getD [] else [])))) ∧
    (asks s src q 0x42 false false (· == 8) →
      (s.vrn.fwRunning = false → exec (.vernierMark src) s = .next (answered s src q 0x0E06 0 [])) ∧
      (s.vrn.fwRunning = true → 4 ≤ s.vrn.marks.length →
        exec (.vernierMark src) s = .next (answered s src q 0x0E08 0 [])) ∧
      (s.vrn.fwRunning = true → s.vrn.marks.length < 4 → exec (.vernierMark src) s = .next (answered
        { s with vrn := { s.vrn with marks := s.vrn.marks ++ [⟨declNat q 16 8, milliJoules s, s.vrn.sampleUs⟩] } }
        src q 0 0 [])))

end
namespace Sys2Proof.Claims
open Sys2Proof Sys2Proof.Machine

/-- A fallow tile that may substitute (R465, R471). -/
def eligible (s : State) (u : Nat) : Prop :=
  u < 1152 ∧ tileState s u = 2 ∧ getf s (wearR u) 31 16 < getf s Reg.fltThresh 19 8 ∧ (getTile s u).selfTest = false

/-- Hedgerow hops between the tiles of two window indices. -/
def hopsBetween (t u : Nat) : Nat :=
  ((t / 32 : Nat) - (u / 32 : Nat) : Int).natAbs + ((t % 32 : Nat) - (u % 32 : Nat) : Int).natAbs

/-- `u` is the substitute of `x` (R471): eligible, and of the eligible the first: no staging tile before the others, then
fewest hops, then the lowest index. -/
def substituteOf (s : State) (x u : Nat) : Prop :=
  eligible s u ∧ ∀ v, eligible s v →
    (Config.stagingTile v = Config.stagingTile u →
      hopsBetween x u < hopsBetween x v ∨ (hopsBetween x u = hopsBetween x v ∧ u ≤ v)) ∧
    (Config.stagingTile u = true → Config.stagingTile v = true)

/-- A tile has entered draining with a cause, its substitute in its place where there is one (R470 steps 1 and 2). -/
def drainsFor (s t : State) (x cause : Nat) : Prop :=
  tileState t x = 3 ∧ getb t (tileR x 0) 15 = false ∧
  ((∃ u, substituteOf s x u ∧ tileState t u = tileState s x ∧ getb t (tileR u 0) 15 = true ∧
      getf t (tileR u 0) 9 0 = getf s (tileR x 0) 9 0 ∧
      getf t Reg.fltFallow 31 24 = getf s Reg.fltFallow 31 24 - 1 ∧
      (Config.stagingTile u = true → getb t Reg.fltFallow 7 = true) ∧
      ∃ r, (getTile t x).retiring = some r ∧ r.sub = some u ∧ r.cause = cause) ∨
    ((∀ u, ¬ eligible s u) ∧ ∃ r, (getTile t x).retiring = some r ∧ r.sub = none ∧ r.cause = cause))

end Sys2Proof.Claims

section
open Sys2Proof Sys2Proof.Machine Sys2Proof.Claims

/-! Faults, wear and fallow capacity. -/

/-- Tile retirement and tile reset (R468, R470, R471, R476, R434): by packet for a tile in service, by the policy where a
mechanism has been set off; the tile drains, its substitute in its place, and is retired once nothing runs on it. A tile
reset is refused for a loop tile, a draining and a retired one. -/
def Obligations.TileRetirement : Prop :=
  ∀ (s : State) (src : MgmtSrc) (q : List Byte) (x : TileIx),
    (asks s src q 0x32 true false (· == 4) →
      let refused := fun c => exec (.tileRetire (.mgmt src)) s = .next (answered s src q c 0 [])
      let named := qWord q 0 = x.val / 32 * 256 + x.val % 32
      (65536 ≤ qWord q 0 → refused 0x0001) ∧
      (qWord q 0 < 65536 → (36 ≤ qWord q 0 / 256 ∨ 32 ≤ qWord q 0 % 256) → refused 0x0305) ∧
      (named → 2 ≤ tileState s x.val → refused 0x0F0C) ∧
      (named → tileState s x.val ≤ 1 → jobRuns s 1 = true → refused 0x0D03) ∧
      (named → tileState s x.val ≤ 1 → jobRuns s 1 = false → ∃ t, exec (.tileRetire (.mgmt src)) s = .next t ∧
        drainsFor s t x.val 4 ∧ getJob t 1 = ⟨0, qSeq q, 1, 0x32⟩ ∧ t.fallow.job = some (1, x.val) ∧
        t.mem = s.mem ∧ t.handles = s.handles)) ∧
    (∀ cause, s.fallow.auto.contains (1, x.val, cause) = false →
      exec (.tileRetire (.policy x.val cause)) s = .next s) ∧
    (∀ cause, s.fallow.auto.contains (1, x.val, cause) = true → tileState s x.val ≤ 1 →
      ∃ t, exec (.tileRetire (.policy x.val cause)) s = .next t ∧ drainsFor s t x.val cause ∧ t.mem = s.mem ∧
        ∀ a, a ∈ t.fallow.auto → ¬ (a.1 = 1 ∧ a.2.1 = x.val)) ∧
    (((getTile s x.val).retiring = none ∨ tileState s x.val ≠ 3 ∨ tileIdle s x.val = false) →
      exec (.tileRetired x) s = .next s) ∧
    (∀ r, (getTile s x.val).retiring = some r → tileState s x.val = 3 → tileIdle s x.val = true →
      ∃ t, exec (.tileRetired x) s = .next t ∧ tileState t x.val = 4 ∧ t.mem = s.mem ∧ t.handles = s.handles ∧
        logged s t 4 0x0F05 x.val (r.cause * 2 ^ 32 + r.sub.getD 0x7FF) ∧
        (∀ u h p, r.sub = some u → s.handles = [h] → h.pin = some p → ∀ j, j ∈ pagesOn s h x.val →
          placeOf t h j = { placeOf s h j with tile := u })) ∧
    (asks s src q 0x61 true false (· == 4) →
      let refused := fun c => exec (.tileReset src) s = .next (answered s src q c 0 [])
      let named := qWord q 0 = x.val / 32 * 256 + x.val % 32
      (65536 ≤ qWord q 0 → refused 0x0001) ∧
      (named → (tileState s x.val = 1 ∨ tileState s x.val = 3 ∨ tileState s x.val = 4) → refused 0x0D06) ∧
      (named → (tileState s x.val = 0 ∨ tileState s x.val = 2) → jobRuns s 3 = true → refused 0x0D03) ∧
      (named → tileState s x.val = 2 → jobRuns s 3 = false → ∃ t, exec (.tileReset src) s = .next t ∧
        (getJob t 3).state = 2 ∧ (getJob t 3).code = 0 ∧ tileState t x.val = 2 ∧ (getTile t x.val).threads = [] ∧
        (getTile t x.val).passes = [] ∧ getReg t (tileR x.val 0x30) = 0 ∧ t.mem = s.mem) ∧
      (named → tileState s x.val = 0 → tileIdle (leaveWaiting s x.val) x.val = false → jobRuns s 3 = false →
        ∃ t, exec (.tileReset src) s = .next t ∧ getJob t 3 = ⟨0, qSeq q, 1, 0x61⟩ ∧
          (getTile t x.val).resetting = true ∧ t.mgmt.tileResetJob = some x.val ∧ t.alms = (leaveWaiting s x.val).alms))

/-- Front-end cores and plot sites (R474, R475, R476): a core is spared by stopping its port's core and links, and the fallow
core takes its place; a plot is relocated by draining it, and its golden frames then stand at the fallow site. -/
def Obligations.CoresAndSites : Prop :=
  ∀ (s : State) (src : MgmtSrc) (q : List Byte),
    (asks s src q 0x34 true false (· == 4) →
      let refused := fun c => exec (.coreSpare (.mgmt src)) s = .next (answered s src q c 0 [])
      let p := qWord q 0
      (8 ≤ p → refused 0x0001) ∧ (p < 8 → noCore s = true → refused 0x0F0C) ∧
      (p < 8 → noCore s = false → jobRuns s 1 = true → refused 0x0D03) ∧
      (p < 8 → noCore s = false → jobRuns s 1 = false → ∃ t, exec (.coreSpare (.mgmt src)) s = .next t ∧
        t.fallow.coreSparing = some ⟨p, linkOn s p false, linkOn s p true⟩ ∧ getb t (fecR p) 31 = false ∧
        (getPort t p).core.running = false ∧ linkOn t p false = false ∧ linkOn t p true = false ∧
        getJob t 1 = ⟨0, qSeq q, 1, 0x34⟩ ∧ t.mem = s.mem)) ∧
    (∀ p cause, (s.fallow.auto.contains (3, p, cause) = false ∨ s.fallow.coreSparing ≠ none) →
      exec (.coreSpare (.policy p cause)) s = .next s) ∧
    (∀ p cause, p < 8 → s.fallow.auto.contains (3, p, cause) = true → s.fallow.coreSparing = none → noCore s = false →
      ∃ t, exec (.coreSpare (.policy p cause)) s = .next t ∧ (getPort t p).core.running = false ∧
        t.fallow.coreSparing = some ⟨p, linkOn s p false, linkOn s p true⟩) ∧
    (∀ ok, (s.fallow.coreSparing = none ∨ fallowCore s = none) → exec (.coreSpared ok) s = .next s) ∧
    (∀ (ok : Bool) (x : CoreSpare) (new : Nat), s.fallow.coreSparing = some x → x.port < 8 → fallowCore s = some new →
      s.fallow.waiting = [] → (getPort s x.port).core.xInit.length ≤ 8192 → ∃ t, exec (.coreSpared ok) s = .next t ∧
        portCore t x.port = new ∧ smGet 0 (portCore s x.port) t.fallow.cores = 2 ∧ t.fallow.coreSparing = none ∧
        getf t Reg.fltFallow 15 12 = getf s Reg.fltFallow 15 12 - 1 ∧ logged s t 4 0x0F09 x.port new ∧
        (getPort t x.port).core = { Core.reset with program := (getPort s x.port).core.program, xInit := (getPort s x.port).core.xInit } ∧
        (∀ p : PortIx, p.toNat ≠ x.port → portCore t p.toNat = portCore s p.toNat) ∧ t.mem = s.mem) ∧
    (asks s src q 0x35 true false (· == 4) →
      let refused := fun c => exec (.plotRelocate (.mgmt src)) s = .next (answered s src q c 0 [])
      let p := qWord q 0
      (32 ≤ p → refused 0x0001) ∧ (p < 32 → fallowSite s = none → refused 0x0F0C) ∧
      (p < 32 → fallowSite s ≠ none → (plotLoads s p = true ∨ s.fallow.relocating ≠ none) → refused 0x0B0C) ∧
      (p < 32 → fallowSite s ≠ none → plotLoads s p = false → s.fallow.relocating = none → jobRuns s 1 = true →
        refused 0x0D03) ∧
      (p < 32 → fallowSite s ≠ none → plotLoads s p = false → s.fallow.relocating = none → jobRuns s 1 = false →
        ∃ t was, exec (.plotRelocate (.mgmt src)) s = .next t ∧ t.fallow.relocating = some (p, was) ∧
          (plotState s p = 1 → was = true) ∧ plotState t p = (if plotState s p = 1 then 2 else plotState s p) ∧
          getJob t 1 = ⟨0, qSeq q, 1, 0x35⟩ ∧ t.cfg = s.cfg)) ∧
    (∀ p cause, s.fallow.auto.contains (4, p, cause) = false → exec (.plotRelocate (.policy p cause)) s = .next s) ∧
    (∀ p cause, p < 32 → s.fallow.auto.contains (4, p, cause) = true → plotLoads s p = false → s.fallow.relocating = none →
      fallowSite s ≠ none → ∃ t was, exec (.plotRelocate (.policy p cause)) s = .next t ∧
        t.fallow.relocating = some (p, was) ∧ plotState t p = if plotState s p = 1 then 2 else plotState s p) ∧
    (∀ bad, (s.fallow.relocating = none ∨ fallowSite s = none) → exec (.plotRelocated bad) s = .next s) ∧
    (∀ p was new, s.fallow.relocating = some (p, was) → p < 32 → fallowSite s = some new →
      ((plotState s p = 1 ∨ plotState s p = 2) → ∀ bad, exec (.plotRelocated bad) s = .next s) ∧
      (plotState s p ≠ 1 → plotState s p ≠ 2 → s.fallow.waiting = [] →
        (∀ a, ∃ t, exec (.plotRelocated (some a)) s = .next t ∧ plotSite t p = plotSite s p ∧
          smGet 0 new t.fallow.sites = 2 ∧ logged s t 3 0x0B09 a 0 ∧ t.fallow.relocating = none ∧
          t.cfg.frames = s.cfg.frames) ∧
        (∃ t, exec (.plotRelocated none) s = .next t ∧ plotSite t p = new ∧
          smGet 0 (plotSite s p) t.fallow.sites = 2 ∧ logged s t 4 0x0F0A p new ∧ t.fallow.relocating = none ∧
          getf t Reg.fltFallow 17 16 = getf s Reg.fltFallow 17 16 - 1 ∧
          plotState t p = (if (getPlot s p).design then 5 else plotState s p) ∧
          (was = true → (getPlot t p).releasing = true) ∧
          (smWf (fun _ => 0) s.cfg.golden = true → ∀ i, i < 2 ^ 14 →
            smGet 0 (new * 2 ^ 14 + i) t.cfg.frames = smGet 0 (plotSite s p * 2 ^ 14 + i) s.cfg.golden))))

/-- Faults and wear (R462, R465, R466, R468, R469, R472): a tile fault ends every attempt on the tile and starts its
self-test; the third in 24 hours, and a failed test, quarantine the tile; wear is recorded, warned of and triggers
retirement; a near-store row is moved to a spare one; an approved proposal sets its mechanism off. -/
def Obligations.FaultsAndWear : Prop :=
  ∀ (s : State) (x : TileIx),
    (((getTile s x.val).selfTest = true ∨ tileState s x.val = 4) → exec (.tileFault x) s = .next s) ∧
    ((getTile s x.val).selfTest = false → tileState s x.val ≠ 4 → ∃ t, exec (.tileFault x) s = .next t ∧
      (getTile t x.val).selfTest = true ∧ (getTile t x.val).threads = [] ∧ (getTile t x.val).passes = [] ∧
      (getTile t x.val).faults = s.cycle :: ((getTile s x.val).faults.filter fun c => decide (s.cycle < c + 24 * hourCycles)) ∧
      getf t (wearR x.val) 15 8 = min (getf s (wearR x.val) 15 8 + 1) 255 ∧ t.mem = s.mem ∧
      (attemptsOn s x.val = [] → logged s t 3 0x0F01 x.val (2 ^ 64 - 1) ∧ t.alms = (leaveWaiting s x.val).alms) ∧
      (∀ d, attemptsOn s x.val = [d] → ∃ u v, logged s u 3 0x0F01 x.val (d.alm.toNat * 2 ^ 40 + d.idx.toNat) ∧
        u.alms = s.alms ∧ exec (.descriptorRestart d 0x0F01) u = .next v ∧ t.alms = (leaveWaiting v x.val).alms)) ∧
    (∀ ok, (getTile s x.val).selfTest = false → exec (.selfTestEnd x ok) s = .next s) ∧
    ((getTile s x.val).selfTest = true →
      ((getTile s x.val).faults.length < 3 → ∃ t, exec (.selfTestEnd x true) s = .next t ∧
        t = { s with tiles := t.tiles } ∧ getTile t x.val = { getTile s x.val with selfTest := false }) ∧
      (∀ ok, (ok = false ∨ 3 ≤ (getTile s x.val).faults.length) → ∃ t, exec (.selfTestEnd x ok) s = .next t ∧
        (getTile t x.val).selfTest = false ∧ t.mem = s.mem ∧
        (tileState s x.val ≤ 2 → tileState t x.val = 3 ∧ getb t (tileR x.val 0) 15 = false ∧
          ∃ r, (getTile t x.val).retiring = some r ∧ r.sub = none ∧ r.cause = 3) ∧
        (3 ≤ tileState s x.val → tileState t x.val = tileState s x.val))) ∧
    (∀ v : BitVec 16,
      let warn := getf s Reg.fltThresh 31 20
      let retire := getf s Reg.fltThresh 19 8
      let old := getf s (wearR x.val) 31 16
      let due := retire ≤ v.toNat ∧ tileState s x.val ≤ 1
      ∃ t, exec (.wearMeasurement x v) s = .next t ∧ getf t (wearR x.val) 31 16 = v.toNat ∧ t.mem = s.mem ∧
        t.tiles = s.tiles ∧
        (old < warn → warn ≤ v.toNat → ¬ due → logged s t 0 0x0F04 x.val v.toNat) ∧
        ((warn ≤ old ∨ v.toNat < warn) → ¬ due → onlyRegs s t (· = wearR x.val)) ∧
        (due → policyMode s 1 = 2 → ∃ c, (1, x.val, c) ∈ t.fallow.auto) ∧
        (due → policyMode s 1 = 1 → s.fallow.proposals.length < 16 →
          ∃ p, p ∈ t.fallow.proposals ∧ p.kind = 1 ∧ p.target = x.val)) ∧
    (∀ (b : BitVec 4) (r : BitVec 11),
      let used := smGet 0 b.toNat (getTile s x.val).spareUsed
      (policyMode s 5 ≠ 2 → exec (.rowSpare x b r) s = .next s) ∧
      (policyMode s 5 = 2 → used ≤ 40 → ∃ t, exec (.rowSpare x b r) s = .next t ∧
        smGet 0 b.toNat (getTile t x.val).spareUsed = used + 1 ∧
        smGet 0 (b.toNat * 2048 + r.toNat) (getTile t x.val).rowMap = used + 1 ∧
        getf t (wearR x.val) 7 0 = min (getf s (wearR x.val) 7 0) (40 - used) ∧
        (used < 40 → logged s t 4 0x0F06 x.val (b.toNat * 2 ^ 16 + r.toNat)) ∧ t.mem = s.mem) ∧
      (policyMode s 5 = 2 → 41 ≤ used → tileState s x.val ≤ 1 → policyMode s 1 = 2 →
        ∃ t, exec (.rowSpare x b r) s = .next t ∧ ∃ c, (1, x.val, c) ∈ t.fallow.auto)) ∧
    (∀ (src : MgmtSrc) (q : List Byte), asks s src q 0x31 true false (· == 4) →
      ((∀ p, p ∈ s.fallow.proposals → p.id ≠ qWord q 0) →
        exec (.fallowApprove src) s = .next (answered s src q 0x0F0D 0 [])) ∧
      (∀ p, p ∈ s.fallow.proposals → p.id = qWord q 0 → jobRuns s 1 = true →
        exec (.fallowApprove src) s = .next (answered s src q 0x0D03 0 [])) ∧
      (∀ p, s.fallow.proposals.find? (·.id == qWord q 0) = some p → jobRuns s 1 = false → s.fallow.waiting = [] →
        ∃ t, exec (.fallowApprove src) s = .next t ∧ getJob t 1 = ⟨0, qSeq q, 1, 0x31⟩ ∧
          t.fallow.job = some (p.kind, p.target) ∧ (∃ c, (p.kind, p.target, c) ∈ t.fallow.auto) ∧
          t.fallow.proposals = s.fallow.proposals.filter fun y => !(y.id == p.id))) ∧
    (∀ q src, asks s src q 0x33 true false (· == 4) →
      (16 ≤ qWord q 0 → exec (.packageSpare (.mgmt src)) s = .next (answered s src q 0x0001 0 [])) ∧
      (qWord q 0 ≤ 11 → s.lpddr.spare = none → fallowPackage s ≠ 15 → memState s = 2 → jobRuns s 1 = false →
        ∃ t, exec (.packageSpare (.mgmt src)) s = .next t ∧ t.lpddr.spare = some (qWord q 0, s.cycle) ∧
          getb t Reg.spareStatus 31 = true ∧ getJob t 1 = ⟨0, qSeq q, 1, 0x33⟩))

end

section
open Sys2Proof Sys2Proof.Claims

/-! Statements made of several of the above. -/

/-- Register writes (R3 to R5): by access code, where they are discarded, and 64-bit registers by halves. -/
def Obligations.RegisterWritesByAccessCode : Prop := Claims.RegisterWriteActsByAccessCode ∧ Claims.RegisterWriteDiscarded ∧ Claims.WideRegistersByHalves

/-- Start-up in its order, and what the loss of a supply does. -/
def Obligations.StartUpAndSupplyLoss : Prop := Claims.StartUpInItsOrder ∧ Claims.SupplyOutOfRangeLosesAllWork

/-- POR, PIN and SOFT resets leave what the reset table gives. -/
def Obligations.ModuleResetsFollowTheResetTable : Prop := Claims.PorAndPinFollowTheResetTable ∧ Claims.SoftResetFollowsTheResetTable

/-- Pins, configuration space and the dome controller's monitors. -/
def Obligations.PinsConfigurationSpaceAndMonitors : Prop := Claims.PinsAndConfigurationSpace ∧ Claims.DomeMonitors

/-- Vector engine: integer lanes and shifts. -/
def Obligations.VeIntegerLanesAndShifts : Prop := Claims.VeIntegerLanes ∧ Claims.VeShifts

/-- Vector engine: floating-point lanes, NaN, infinity and flags. -/
def Obligations.VeFloatLanesAndSpecialOperands : Prop := Claims.VeFloatLanes ∧ Claims.VeSpecialOperands

/-- Vector engine: compares, their codes, and selects. -/
def Obligations.VeComparesAndSelects : Prop := Claims.VeCompareAndSelect ∧ Claims.VeCompareCodes

/-- Vector engine: loads and stores, addresses, counters, loops and the end of an invocation. -/
def Obligations.VeMemoryAddressAndControl : Prop := Claims.VeMemoryInstructions ∧ Claims.VeAddressAndControl ∧ Claims.VeLoopBackEdges

/-- Vector engine: the start of an invocation and the hazard checker. -/
def Obligations.VeInvocationAndHazards : Prop := Claims.VeInvocationBegins ∧ Claims.VeHazardChecker

/-- Array passes: issue, and the entry of a K step. -/
def Obligations.PassIssueAndEntry : Prop := Claims.PassIssue ∧ Claims.KStepEntry

/-- Array passes: the drain, the exception counts, pre-emption and its restore. -/
def Obligations.PassDrainsAndPreemption : Prop := Claims.PassDrains ∧ Claims.TileExcClear ∧ Claims.PreemptionSavesAndRestores

/-- Almanacs: doorbell, enable, reset, abort and count registers. -/
def Obligations.AlmanacRegisters : Prop := Claims.AlmDoorbell ∧ Claims.AlmEnable ∧ Claims.AlmControlAndCounts

/-- Descriptors: their start, placement and run-ahead. -/
def Obligations.DescriptorsStart : Prop := Claims.DescriptorStart ∧ Claims.PlacementAndRunAhead

/-- Descriptors: commit, failure, restart, and the completion record. -/
def Obligations.DescriptorsEnd : Prop := Claims.DescriptorCommitAndFail ∧ Claims.DescriptorRestart ∧ Claims.CompletionRecordLayout

/-- Descriptor bodies: compute, reduce, count, tally, fence and transit. -/
def Obligations.DescriptorBodies : Prop := Claims.ComputeBodies ∧ Claims.ReduceCountTallyBodies ∧ Claims.FenceAndTransit

/-- Barrier objects and barrier descriptors. -/
def Obligations.Barriers : Prop := Claims.BarrierObjects ∧ Claims.BarrierDescriptors

/-- Flags, wakes and stalls. -/
def Obligations.FlagsAndWakes : Prop := Claims.FlagUpdates ∧ Claims.WakesAndStalls

/-- Affinity groups, page migration and tier moves. -/
def Obligations.GroupsAndMigration : Prop := Claims.GroupWrites ∧ Claims.PageMigration ∧ Claims.TierMoves

/-- The host link, interrupt vectors and handle windows. -/
def Obligations.HostLinkAndWindows : Prop := Claims.HostLinkAndVectors ∧ Claims.HandleWindows

/-- Output slots and weight swaps. -/
def Obligations.OutputSlotsAndWeightSwaps : Prop := Claims.OutputSlots ∧ Claims.WeightSwaps

/-- LPDDR6: training, service and package sparing. -/
def Obligations.Lpddr6ServiceAndSparing : Prop := Claims.Lpddr6Training ∧ Claims.PackageSparing

/-- LPDDR6: the check of a read, refresh and neighbour refresh. -/
def Obligations.Lpddr6ReadsAndRefresh : Prop := Claims.Lpddr6ReadCheck ∧ Claims.RefreshAndNeighbours

/-- Configuration commands, by register and by packet. -/
def Obligations.ConfigurationByRegisterAndPacket : Prop := Claims.ConfigurationCommands ∧ Claims.ConfigurationPackets

/-- Management packets: replies and the checks of a request. -/
def Obligations.ManagementProtocol : Prop := Claims.ManagementReplies ∧ Claims.ManagementChecks

/-- MCTP control messages, the I3C address and the SPDM responder. -/
def Obligations.OutOfBandControl : Prop := Claims.MctpControl ∧ Claims.SpdmResponder

/-- The Vernier: energy, records, power and firmware. -/
def Obligations.VernierEnergyAndRecords : Prop := Claims.EnergyIntegrates ∧ Claims.VernierRecording

/-- Direct armings and the contexts of the sequencers: their transfers. -/
def Obligations.ArmingsAndSequencerContexts : Prop := Claims.ArmingTransfers ∧ Claims.SequencerContexts

/-- The Hedgerow: routes, queues, seam links and multicast. -/
def Obligations.HedgerowAndMulticast : Prop := Claims.HedgerowRoutesAndQueues ∧ Claims.SeamLinksAndMulticast

/-- Plot commands, and the logic ring in one core cycle. -/
def Obligations.PlotCommandsAndLogicRing : Prop := Claims.PlotCommands ∧ Claims.LogicRing

/-- The Vernier: the seal, firmware replacement and its packets. -/
def Obligations.VernierSealAndPackets : Prop := Claims.SealAndReplacement ∧ Claims.VernierPackets

end
end

