-- ==== Sys2Proof/Laws/Sparse.lean ====
section
/-!
SUPPORT. Laws of sparse tables and of the byte memory: a value set is the value read, every other key reads as before,
and every operation keeps the canonical form.
-/
namespace Sys2Proof.Machine
open Sys2Proof

section
variable {α : Type} {d v w : α} {j k : Nat} {l : List (Nat × α)}

theorem smGet_cons_self : smGet d k ((k, v) :: l) = v := by simp [smGet]

theorem smGet_cons_ne (h : j ≠ k) : smGet d k ((j, v) :: l) = smGet d k l := by simp [smGet, h]

theorem smGet_smInsert_ne (h : j ≠ k) : smGet d j (smInsert k v l) = smGet d j l := by
  induction l with
  | nil => simp [smInsert, smGet, Ne.symm h]
  | cons e t ih =>
    obtain ⟨i, x⟩ := e
    unfold smInsert
    split
    · simp [smGet, Ne.symm h]
    · simp only [smGet]; rw [ih]

theorem smGet_smErase_ne (h : j ≠ k) : smGet d j (smErase k l) = smGet d j l := by
  induction l with
  | nil => rfl
  | cons e t ih =>
    obtain ⟨i, x⟩ := e
    unfold smErase at ih ⊢
    by_cases hi : i = k
    · subst hi
      simp [smGet, Ne.symm h, ih]
    · simp [smGet, hi, ih]

theorem smGet_smErase_self : smGet d k (smErase k l) = d := by
  induction l with
  | nil => rfl
  | cons e t ih =>
    obtain ⟨i, x⟩ := e
    unfold smErase at ih ⊢
    by_cases hi : i = k
    · simp [hi, ih]
    · simp [smGet, hi, ih]

theorem smGet_smInsert_smErase : smGet d k (smInsert k v (smErase k l)) = v := by
  induction l with
  | nil => simp [smErase, smInsert, smGet]
  | cons e t ih =>
    obtain ⟨i, x⟩ := e
    unfold smErase at ih ⊢
    by_cases hi : i = k
    · simpa [hi] using ih
    · simp only [ne_eq, hi, not_false_eq_true, bne_iff_ne, List.filter_cons_of_pos]
      unfold smInsert
      split
      · simp [smGet]
      · simp [smGet, hi, ih]

/-- A value set is read back. -/
@[simp] theorem smGet_smSet_self [DecidableEq α] : smGet d k (smSet d k v l) = v := by
  unfold smSet
  split
  · rename_i h; rw [h, smGet_smErase_self]
  · exact smGet_smInsert_smErase

/-- Every other key reads as before, whatever its own default. -/
theorem smGet_smSet_ne [DecidableEq α] (h : j ≠ k) : smGet w j (smSet d k v l) = smGet w j l := by
  unfold smSet
  split
  · exact smGet_smErase_ne h
  · rw [smGet_smInsert_ne h, smGet_smErase_ne h]

theorem smGet_filter_keep (p : Nat → Bool) (h : p k = true) :
    smGet d k (l.filter fun e => p e.1) = smGet d k l := by
  induction l with
  | nil => rfl
  | cons e t ih =>
    obtain ⟨i, x⟩ := e
    by_cases hp : p i = true
    · simp [hp, smGet, ih]
    · have : i ≠ k := fun hik => hp (hik ▸ h)
      simp [hp, smGet, this, ih]

theorem smGet_filter_drop (p : Nat → Bool) (h : p k = false) :
    smGet d k (l.filter fun e => p e.1) = d := by
  induction l with
  | nil => rfl
  | cons e t ih =>
    obtain ⟨i, x⟩ := e
    by_cases hp : p i = true
    · have : i ≠ k := fun hik => by simp [hik, h] at hp
      simp [hp, smGet, this, ih]
    · simp [hp, ih]

end

section
variable {α : Type} [DecidableEq α] {d : Nat → α} {k : Nat} {v : α} {l : List (Nat × α)}

theorem smWf_cons {e : Nat × α} : smWf d (e :: l) = true ↔ e.2 ≠ d e.1 ∧ (∀ x ∈ l, e.1 < x.1) ∧ smWf d l = true := by
  obtain ⟨i, x⟩ := e
  simp [smWf, and_assoc]

/-- Taking entries out keeps the canonical form. -/
theorem smWf_filter (p : Nat × α → Bool) (h : smWf d l = true) : smWf d (l.filter p) = true := by
  induction l with
  | nil => rfl
  | cons e t ih =>
    rw [smWf_cons] at h
    by_cases hp : p e = true
    · rw [List.filter_cons_of_pos hp, smWf_cons]
      exact ⟨h.1, fun x hx => h.2.1 x (List.mem_filter.mp hx).1, ih h.2.2⟩
    · rw [List.filter_cons_of_neg hp]; exact ih h.2.2

omit [DecidableEq α] in
theorem smInsert_mem {e : Nat × α} (h : e ∈ smInsert k v l) : e = (k, v) ∨ e ∈ l := by
  induction l with
  | nil => simpa [smInsert] using h
  | cons x t ih =>
    obtain ⟨i, y⟩ := x
    unfold smInsert at h
    split at h
    · simpa using h
    · rcases List.mem_cons.mp h with h | h
      · exact Or.inr (by simp [h])
      · rcases ih h with h | h
        · exact Or.inl h
        · exact Or.inr (List.mem_cons_of_mem _ h)

theorem smWf_smInsert (hv : v ≠ d k) (hk : ∀ e ∈ l, e.1 ≠ k) (h : smWf d l = true) :
    smWf d (smInsert k v l) = true := by
  induction l with
  | nil => simp [smInsert, smWf, hv]
  | cons e t ih =>
    obtain ⟨i, x⟩ := e
    have hc := smWf_cons.mp h
    unfold smInsert
    split
    · rename_i hlt
      refine smWf_cons.mpr ⟨hv, ?_, h⟩
      intro y hy
      rcases List.mem_cons.mp hy with rfl | hy
      · exact hlt
      · exact lt_trans hlt (hc.2.1 y hy)
    · rename_i hlt
      refine smWf_cons.mpr ⟨hc.1, ?_, ih (fun e he => hk e (List.mem_cons_of_mem _ he)) hc.2.2⟩
      intro y hy
      rcases smInsert_mem hy with rfl | hy
      · have := hk (i, x) (by simp)
        simp only at this ⊢
        omega
      · exact hc.2.1 y hy

/-- A value set keeps the canonical form. -/
theorem smWf_smSet (h : smWf d l = true) : smWf d (smSet (d k) k v l) = true := by
  unfold smSet
  split
  · exact smWf_filter _ h
  · rename_i hv
    refine smWf_smInsert hv ?_ (smWf_filter _ h)
    intro e he
    simpa using (List.mem_filter.mp he).2

end

/-! The byte memory. -/

section
variable {m : List Host.Cell} {a b : Nat} {x : Byte}

/-- A byte stored is read back. -/
@[simp] theorem rdByte_wrByte_self : rdByte (wrByte m a x) a = x := smGet_smSet_self

/-- A byte elsewhere reads as before. -/
theorem rdByte_wrByte_ne (h : b ≠ a) : rdByte (wrByte m a x) b = rdByte m b := smGet_smSet_ne h

theorem rdByte_wrBytes_out {bs : List Byte} (h : b < a ∨ a + bs.length ≤ b) :
    rdByte (wrBytes m a bs) b = rdByte m b := by
  induction bs generalizing m a with
  | nil => rfl
  | cons y t ih =>
    have h' : b < a ∨ a + t.length + 1 ≤ b := by simpa [Nat.add_assoc] using h
    unfold wrBytes
    rw [ih (by omega), rdByte_wrByte_ne (by omega)]

/-- Bytes stored are read back, each at its place. -/
theorem rdByte_wrBytes_in {bs : List Byte} {i : Nat} (h : i < bs.length) :
    rdByte (wrBytes m a bs) (a + i) = bs[i] := by
  induction bs generalizing m a i with
  | nil => simp at h
  | cons y t ih =>
    unfold wrBytes
    cases i with
    | zero => rw [rdByte_wrBytes_out (by omega)]; simp
    | succ n =>
      have hn : n < t.length := by simpa using h
      have := ih (m := wrByte m a y) (a := a + 1) hn
      rw [show a + (n + 1) = a + 1 + n by omega, this]
      simp

theorem wrByte_wf (h : Memory.wf m = true) : Memory.wf (wrByte m a x) = true :=
  smWf_smSet (d := fun _ => (0 : Byte)) h

/-- Storing bytes keeps the canonical form of a memory. -/
theorem wrBytes_wf {bs : List Byte} (h : Memory.wf m = true) : Memory.wf (wrBytes m a bs) = true := by
  induction bs generalizing m a with
  | nil => exact h
  | cons y t ih => exact ih (wrByte_wf h)

theorem wrNat_wf {n v : Nat} (h : Memory.wf m = true) : Memory.wf (wrNat m a n v) = true := wrBytes_wf h

/-- Clearing bytes keeps the canonical form of a memory. -/
theorem clrBytes_wf (h : Memory.wf m = true) : Memory.wf (clrBytes m a b) = true := smWf_filter _ h

end

end Sys2Proof.Machine
end

