-- ==== Sys2Proof/Laws/State.lean ====
section
/-!
SUPPORT. Each field of the state after each named update: one lemma for every field that the update leaves as it is.
-/
namespace Sys2Proof.Machine
open Sys2Proof

variable (s : State)

/-! `setReg`. -/

@[simp] theorem setReg_pending (off : Nat) (v : Word) : (setReg s off v).pending = s.pending := rfl
@[simp] theorem setReg_cycle (off : Nat) (v : Word) : (setReg s off v).cycle = s.cycle := rfl
@[simp] theorem setReg_free (off : Nat) (v : Word) : (setReg s off v).free = s.free := rfl
@[simp] theorem setReg_mem (off : Nat) (v : Word) : (setReg s off v).mem = s.mem := rfl
@[simp] theorem setReg_host (off : Nat) (v : Word) : (setReg s off v).host = s.host := rfl
@[simp] theorem setReg_power (off : Nat) (v : Word) : (setReg s off v).power = s.power := rfl
@[simp] theorem setReg_alms (off : Nat) (v : Word) : (setReg s off v).alms = s.alms := rfl
@[simp] theorem setReg_seqs (off : Nat) (v : Word) : (setReg s off v).seqs = s.seqs := rfl
@[simp] theorem setReg_handles (off : Nat) (v : Word) : (setReg s off v).handles = s.handles := rfl
@[simp] theorem setReg_places (off : Nat) (v : Word) : (setReg s off v).places = s.places := rfl
@[simp] theorem setReg_copies (off : Nat) (v : Word) : (setReg s off v).copies = s.copies := rfl
@[simp] theorem setReg_engine (off : Nat) (v : Word) : (setReg s off v).engine = s.engine := rfl
@[simp] theorem setReg_seamFailed (off : Nat) (v : Word) : (setReg s off v).seamFailed = s.seamFailed := rfl
@[simp] theorem setReg_hedge (off : Nat) (v : Word) : (setReg s off v).hedge = s.hedge := rfl
@[simp] theorem setReg_tiles (off : Nat) (v : Word) : (setReg s off v).tiles = s.tiles := rfl
@[simp] theorem setReg_groupTiles (off : Nat) (v : Word) : (setReg s off v).groupTiles = s.groupTiles := rfl
@[simp] theorem setReg_groupHeld (off : Nat) (v : Word) : (setReg s off v).groupHeld = s.groupHeld := rfl
@[simp] theorem setReg_setters (off : Nat) (v : Word) : (setReg s off v).setters = s.setters := rfl
@[simp] theorem setReg_flagAdds (off : Nat) (v : Word) : (setReg s off v).flagAdds = s.flagAdds := rfl
@[simp] theorem setReg_bars (off : Nat) (v : Word) : (setReg s off v).bars = s.bars := rfl
@[simp] theorem setReg_ports (off : Nat) (v : Word) : (setReg s off v).ports = s.ports := rfl
@[simp] theorem setReg_sysrefArmed (off : Nat) (v : Word) : (setReg s off v).sysrefArmed = s.sysrefArmed := rfl
@[simp] theorem setReg_meridian (off : Nat) (v : Word) : (setReg s off v).meridian = s.meridian := rfl
@[simp] theorem setReg_swapOld (off : Nat) (v : Word) : (setReg s off v).swapOld = s.swapOld := rfl
@[simp] theorem setReg_plots (off : Nat) (v : Word) : (setReg s off v).plots = s.plots := rfl
@[simp] theorem setReg_fabric (off : Nat) (v : Word) : (setReg s off v).fabric = s.fabric := rfl
@[simp] theorem setReg_banks (off : Nat) (v : Word) : (setReg s off v).banks = s.banks := rfl
@[simp] theorem setReg_cfg (off : Nat) (v : Word) : (setReg s off v).cfg = s.cfg := rfl
@[simp] theorem setReg_lpddr (off : Nat) (v : Word) : (setReg s off v).lpddr = s.lpddr := rfl
@[simp] theorem setReg_mgmt (off : Nat) (v : Word) : (setReg s off v).mgmt = s.mgmt := rfl
@[simp] theorem setReg_vrn (off : Nat) (v : Word) : (setReg s off v).vrn = s.vrn := rfl
@[simp] theorem setReg_fallow (off : Nat) (v : Word) : (setReg s off v).fallow = s.fallow := rfl
@[simp] theorem setReg_pool (off : Nat) (v : Word) : (setReg s off v).pool = s.pool := rfl
@[simp] theorem setReg_sent (off : Nat) (v : Word) : (setReg s off v).sent = s.sent := rfl

/-! `clearRegs`. -/

@[simp] theorem clearRegs_pending (p : Nat → Bool) : (clearRegs s p).pending = s.pending := rfl
@[simp] theorem clearRegs_cycle (p : Nat → Bool) : (clearRegs s p).cycle = s.cycle := rfl
@[simp] theorem clearRegs_free (p : Nat → Bool) : (clearRegs s p).free = s.free := rfl
@[simp] theorem clearRegs_mem (p : Nat → Bool) : (clearRegs s p).mem = s.mem := rfl
@[simp] theorem clearRegs_host (p : Nat → Bool) : (clearRegs s p).host = s.host := rfl
@[simp] theorem clearRegs_power (p : Nat → Bool) : (clearRegs s p).power = s.power := rfl
@[simp] theorem clearRegs_alms (p : Nat → Bool) : (clearRegs s p).alms = s.alms := rfl
@[simp] theorem clearRegs_seqs (p : Nat → Bool) : (clearRegs s p).seqs = s.seqs := rfl
@[simp] theorem clearRegs_handles (p : Nat → Bool) : (clearRegs s p).handles = s.handles := rfl
@[simp] theorem clearRegs_places (p : Nat → Bool) : (clearRegs s p).places = s.places := rfl
@[simp] theorem clearRegs_copies (p : Nat → Bool) : (clearRegs s p).copies = s.copies := rfl
@[simp] theorem clearRegs_engine (p : Nat → Bool) : (clearRegs s p).engine = s.engine := rfl
@[simp] theorem clearRegs_seamFailed (p : Nat → Bool) : (clearRegs s p).seamFailed = s.seamFailed := rfl
@[simp] theorem clearRegs_hedge (p : Nat → Bool) : (clearRegs s p).hedge = s.hedge := rfl
@[simp] theorem clearRegs_tiles (p : Nat → Bool) : (clearRegs s p).tiles = s.tiles := rfl
@[simp] theorem clearRegs_groupTiles (p : Nat → Bool) : (clearRegs s p).groupTiles = s.groupTiles := rfl
@[simp] theorem clearRegs_groupHeld (p : Nat → Bool) : (clearRegs s p).groupHeld = s.groupHeld := rfl
@[simp] theorem clearRegs_setters (p : Nat → Bool) : (clearRegs s p).setters = s.setters := rfl
@[simp] theorem clearRegs_flagAdds (p : Nat → Bool) : (clearRegs s p).flagAdds = s.flagAdds := rfl
@[simp] theorem clearRegs_bars (p : Nat → Bool) : (clearRegs s p).bars = s.bars := rfl
@[simp] theorem clearRegs_ports (p : Nat → Bool) : (clearRegs s p).ports = s.ports := rfl
@[simp] theorem clearRegs_sysrefArmed (p : Nat → Bool) : (clearRegs s p).sysrefArmed = s.sysrefArmed := rfl
@[simp] theorem clearRegs_meridian (p : Nat → Bool) : (clearRegs s p).meridian = s.meridian := rfl
@[simp] theorem clearRegs_swapOld (p : Nat → Bool) : (clearRegs s p).swapOld = s.swapOld := rfl
@[simp] theorem clearRegs_plots (p : Nat → Bool) : (clearRegs s p).plots = s.plots := rfl
@[simp] theorem clearRegs_fabric (p : Nat → Bool) : (clearRegs s p).fabric = s.fabric := rfl
@[simp] theorem clearRegs_banks (p : Nat → Bool) : (clearRegs s p).banks = s.banks := rfl
@[simp] theorem clearRegs_cfg (p : Nat → Bool) : (clearRegs s p).cfg = s.cfg := rfl
@[simp] theorem clearRegs_lpddr (p : Nat → Bool) : (clearRegs s p).lpddr = s.lpddr := rfl
@[simp] theorem clearRegs_mgmt (p : Nat → Bool) : (clearRegs s p).mgmt = s.mgmt := rfl
@[simp] theorem clearRegs_vrn (p : Nat → Bool) : (clearRegs s p).vrn = s.vrn := rfl
@[simp] theorem clearRegs_fallow (p : Nat → Bool) : (clearRegs s p).fallow = s.fallow := rfl
@[simp] theorem clearRegs_pool (p : Nat → Bool) : (clearRegs s p).pool = s.pool := rfl
@[simp] theorem clearRegs_sent (p : Nat → Bool) : (clearRegs s p).sent = s.sent := rfl

/-! `set64`. -/

@[simp] theorem set64_pending (off v : Nat) : (set64 s off v).pending = s.pending := rfl
@[simp] theorem set64_cycle (off v : Nat) : (set64 s off v).cycle = s.cycle := rfl
@[simp] theorem set64_free (off v : Nat) : (set64 s off v).free = s.free := rfl
@[simp] theorem set64_mem (off v : Nat) : (set64 s off v).mem = s.mem := rfl
@[simp] theorem set64_host (off v : Nat) : (set64 s off v).host = s.host := rfl
@[simp] theorem set64_power (off v : Nat) : (set64 s off v).power = s.power := rfl
@[simp] theorem set64_alms (off v : Nat) : (set64 s off v).alms = s.alms := rfl
@[simp] theorem set64_seqs (off v : Nat) : (set64 s off v).seqs = s.seqs := rfl
@[simp] theorem set64_handles (off v : Nat) : (set64 s off v).handles = s.handles := rfl
@[simp] theorem set64_places (off v : Nat) : (set64 s off v).places = s.places := rfl
@[simp] theorem set64_copies (off v : Nat) : (set64 s off v).copies = s.copies := rfl
@[simp] theorem set64_engine (off v : Nat) : (set64 s off v).engine = s.engine := rfl
@[simp] theorem set64_seamFailed (off v : Nat) : (set64 s off v).seamFailed = s.seamFailed := rfl
@[simp] theorem set64_hedge (off v : Nat) : (set64 s off v).hedge = s.hedge := rfl
@[simp] theorem set64_tiles (off v : Nat) : (set64 s off v).tiles = s.tiles := rfl
@[simp] theorem set64_groupTiles (off v : Nat) : (set64 s off v).groupTiles = s.groupTiles := rfl
@[simp] theorem set64_groupHeld (off v : Nat) : (set64 s off v).groupHeld = s.groupHeld := rfl
@[simp] theorem set64_setters (off v : Nat) : (set64 s off v).setters = s.setters := rfl
@[simp] theorem set64_flagAdds (off v : Nat) : (set64 s off v).flagAdds = s.flagAdds := rfl
@[simp] theorem set64_bars (off v : Nat) : (set64 s off v).bars = s.bars := rfl
@[simp] theorem set64_ports (off v : Nat) : (set64 s off v).ports = s.ports := rfl
@[simp] theorem set64_sysrefArmed (off v : Nat) : (set64 s off v).sysrefArmed = s.sysrefArmed := rfl
@[simp] theorem set64_meridian (off v : Nat) : (set64 s off v).meridian = s.meridian := rfl
@[simp] theorem set64_swapOld (off v : Nat) : (set64 s off v).swapOld = s.swapOld := rfl
@[simp] theorem set64_plots (off v : Nat) : (set64 s off v).plots = s.plots := rfl
@[simp] theorem set64_fabric (off v : Nat) : (set64 s off v).fabric = s.fabric := rfl
@[simp] theorem set64_banks (off v : Nat) : (set64 s off v).banks = s.banks := rfl
@[simp] theorem set64_cfg (off v : Nat) : (set64 s off v).cfg = s.cfg := rfl
@[simp] theorem set64_lpddr (off v : Nat) : (set64 s off v).lpddr = s.lpddr := rfl
@[simp] theorem set64_mgmt (off v : Nat) : (set64 s off v).mgmt = s.mgmt := rfl
@[simp] theorem set64_vrn (off v : Nat) : (set64 s off v).vrn = s.vrn := rfl
@[simp] theorem set64_fallow (off v : Nat) : (set64 s off v).fallow = s.fallow := rfl
@[simp] theorem set64_pool (off v : Nat) : (set64 s off v).pool = s.pool := rfl
@[simp] theorem set64_sent (off v : Nat) : (set64 s off v).sent = s.sent := rfl

/-! `setAlm`. -/

@[simp] theorem setAlm_pending (a : Nat) (x : Alm) : (setAlm s a x).pending = s.pending := rfl
@[simp] theorem setAlm_cycle (a : Nat) (x : Alm) : (setAlm s a x).cycle = s.cycle := rfl
@[simp] theorem setAlm_free (a : Nat) (x : Alm) : (setAlm s a x).free = s.free := rfl
@[simp] theorem setAlm_regs (a : Nat) (x : Alm) : (setAlm s a x).regs = s.regs := rfl
@[simp] theorem setAlm_mem (a : Nat) (x : Alm) : (setAlm s a x).mem = s.mem := rfl
@[simp] theorem setAlm_host (a : Nat) (x : Alm) : (setAlm s a x).host = s.host := rfl
@[simp] theorem setAlm_power (a : Nat) (x : Alm) : (setAlm s a x).power = s.power := rfl
@[simp] theorem setAlm_seqs (a : Nat) (x : Alm) : (setAlm s a x).seqs = s.seqs := rfl
@[simp] theorem setAlm_handles (a : Nat) (x : Alm) : (setAlm s a x).handles = s.handles := rfl
@[simp] theorem setAlm_places (a : Nat) (x : Alm) : (setAlm s a x).places = s.places := rfl
@[simp] theorem setAlm_copies (a : Nat) (x : Alm) : (setAlm s a x).copies = s.copies := rfl
@[simp] theorem setAlm_engine (a : Nat) (x : Alm) : (setAlm s a x).engine = s.engine := rfl
@[simp] theorem setAlm_seamFailed (a : Nat) (x : Alm) : (setAlm s a x).seamFailed = s.seamFailed := rfl
@[simp] theorem setAlm_hedge (a : Nat) (x : Alm) : (setAlm s a x).hedge = s.hedge := rfl
@[simp] theorem setAlm_tiles (a : Nat) (x : Alm) : (setAlm s a x).tiles = s.tiles := rfl
@[simp] theorem setAlm_groupTiles (a : Nat) (x : Alm) : (setAlm s a x).groupTiles = s.groupTiles := rfl
@[simp] theorem setAlm_groupHeld (a : Nat) (x : Alm) : (setAlm s a x).groupHeld = s.groupHeld := rfl
@[simp] theorem setAlm_setters (a : Nat) (x : Alm) : (setAlm s a x).setters = s.setters := rfl
@[simp] theorem setAlm_flagAdds (a : Nat) (x : Alm) : (setAlm s a x).flagAdds = s.flagAdds := rfl
@[simp] theorem setAlm_bars (a : Nat) (x : Alm) : (setAlm s a x).bars = s.bars := rfl
@[simp] theorem setAlm_ports (a : Nat) (x : Alm) : (setAlm s a x).ports = s.ports := rfl
@[simp] theorem setAlm_sysrefArmed (a : Nat) (x : Alm) : (setAlm s a x).sysrefArmed = s.sysrefArmed := rfl
@[simp] theorem setAlm_meridian (a : Nat) (x : Alm) : (setAlm s a x).meridian = s.meridian := rfl
@[simp] theorem setAlm_swapOld (a : Nat) (x : Alm) : (setAlm s a x).swapOld = s.swapOld := rfl
@[simp] theorem setAlm_plots (a : Nat) (x : Alm) : (setAlm s a x).plots = s.plots := rfl
@[simp] theorem setAlm_fabric (a : Nat) (x : Alm) : (setAlm s a x).fabric = s.fabric := rfl
@[simp] theorem setAlm_banks (a : Nat) (x : Alm) : (setAlm s a x).banks = s.banks := rfl
@[simp] theorem setAlm_cfg (a : Nat) (x : Alm) : (setAlm s a x).cfg = s.cfg := rfl
@[simp] theorem setAlm_lpddr (a : Nat) (x : Alm) : (setAlm s a x).lpddr = s.lpddr := rfl
@[simp] theorem setAlm_mgmt (a : Nat) (x : Alm) : (setAlm s a x).mgmt = s.mgmt := rfl
@[simp] theorem setAlm_vrn (a : Nat) (x : Alm) : (setAlm s a x).vrn = s.vrn := rfl
@[simp] theorem setAlm_fallow (a : Nat) (x : Alm) : (setAlm s a x).fallow = s.fallow := rfl
@[simp] theorem setAlm_pool (a : Nat) (x : Alm) : (setAlm s a x).pool = s.pool := rfl
@[simp] theorem setAlm_sent (a : Nat) (x : Alm) : (setAlm s a x).sent = s.sent := rfl

/-! `setTile`. -/

@[simp] theorem setTile_pending (t : Nat) (x : Tile) : (setTile s t x).pending = s.pending := rfl
@[simp] theorem setTile_cycle (t : Nat) (x : Tile) : (setTile s t x).cycle = s.cycle := rfl
@[simp] theorem setTile_free (t : Nat) (x : Tile) : (setTile s t x).free = s.free := rfl
@[simp] theorem setTile_regs (t : Nat) (x : Tile) : (setTile s t x).regs = s.regs := rfl
@[simp] theorem setTile_mem (t : Nat) (x : Tile) : (setTile s t x).mem = s.mem := rfl
@[simp] theorem setTile_host (t : Nat) (x : Tile) : (setTile s t x).host = s.host := rfl
@[simp] theorem setTile_power (t : Nat) (x : Tile) : (setTile s t x).power = s.power := rfl
@[simp] theorem setTile_alms (t : Nat) (x : Tile) : (setTile s t x).alms = s.alms := rfl
@[simp] theorem setTile_seqs (t : Nat) (x : Tile) : (setTile s t x).seqs = s.seqs := rfl
@[simp] theorem setTile_handles (t : Nat) (x : Tile) : (setTile s t x).handles = s.handles := rfl
@[simp] theorem setTile_places (t : Nat) (x : Tile) : (setTile s t x).places = s.places := rfl
@[simp] theorem setTile_copies (t : Nat) (x : Tile) : (setTile s t x).copies = s.copies := rfl
@[simp] theorem setTile_engine (t : Nat) (x : Tile) : (setTile s t x).engine = s.engine := rfl
@[simp] theorem setTile_seamFailed (t : Nat) (x : Tile) : (setTile s t x).seamFailed = s.seamFailed := rfl
@[simp] theorem setTile_hedge (t : Nat) (x : Tile) : (setTile s t x).hedge = s.hedge := rfl
@[simp] theorem setTile_groupTiles (t : Nat) (x : Tile) : (setTile s t x).groupTiles = s.groupTiles := rfl
@[simp] theorem setTile_groupHeld (t : Nat) (x : Tile) : (setTile s t x).groupHeld = s.groupHeld := rfl
@[simp] theorem setTile_setters (t : Nat) (x : Tile) : (setTile s t x).setters = s.setters := rfl
@[simp] theorem setTile_flagAdds (t : Nat) (x : Tile) : (setTile s t x).flagAdds = s.flagAdds := rfl
@[simp] theorem setTile_bars (t : Nat) (x : Tile) : (setTile s t x).bars = s.bars := rfl
@[simp] theorem setTile_ports (t : Nat) (x : Tile) : (setTile s t x).ports = s.ports := rfl
@[simp] theorem setTile_sysrefArmed (t : Nat) (x : Tile) : (setTile s t x).sysrefArmed = s.sysrefArmed := rfl
@[simp] theorem setTile_meridian (t : Nat) (x : Tile) : (setTile s t x).meridian = s.meridian := rfl
@[simp] theorem setTile_swapOld (t : Nat) (x : Tile) : (setTile s t x).swapOld = s.swapOld := rfl
@[simp] theorem setTile_plots (t : Nat) (x : Tile) : (setTile s t x).plots = s.plots := rfl
@[simp] theorem setTile_fabric (t : Nat) (x : Tile) : (setTile s t x).fabric = s.fabric := rfl
@[simp] theorem setTile_banks (t : Nat) (x : Tile) : (setTile s t x).banks = s.banks := rfl
@[simp] theorem setTile_cfg (t : Nat) (x : Tile) : (setTile s t x).cfg = s.cfg := rfl
@[simp] theorem setTile_lpddr (t : Nat) (x : Tile) : (setTile s t x).lpddr = s.lpddr := rfl
@[simp] theorem setTile_mgmt (t : Nat) (x : Tile) : (setTile s t x).mgmt = s.mgmt := rfl
@[simp] theorem setTile_vrn (t : Nat) (x : Tile) : (setTile s t x).vrn = s.vrn := rfl
@[simp] theorem setTile_fallow (t : Nat) (x : Tile) : (setTile s t x).fallow = s.fallow := rfl
@[simp] theorem setTile_pool (t : Nat) (x : Tile) : (setTile s t x).pool = s.pool := rfl
@[simp] theorem setTile_sent (t : Nat) (x : Tile) : (setTile s t x).sent = s.sent := rfl

/-! `setPort`. -/

@[simp] theorem setPort_pending (p : Nat) (x : Port) : (setPort s p x).pending = s.pending := rfl
@[simp] theorem setPort_cycle (p : Nat) (x : Port) : (setPort s p x).cycle = s.cycle := rfl
@[simp] theorem setPort_free (p : Nat) (x : Port) : (setPort s p x).free = s.free := rfl
@[simp] theorem setPort_regs (p : Nat) (x : Port) : (setPort s p x).regs = s.regs := rfl
@[simp] theorem setPort_mem (p : Nat) (x : Port) : (setPort s p x).mem = s.mem := rfl
@[simp] theorem setPort_host (p : Nat) (x : Port) : (setPort s p x).host = s.host := rfl
@[simp] theorem setPort_power (p : Nat) (x : Port) : (setPort s p x).power = s.power := rfl
@[simp] theorem setPort_alms (p : Nat) (x : Port) : (setPort s p x).alms = s.alms := rfl
@[simp] theorem setPort_seqs (p : Nat) (x : Port) : (setPort s p x).seqs = s.seqs := rfl
@[simp] theorem setPort_handles (p : Nat) (x : Port) : (setPort s p x).handles = s.handles := rfl
@[simp] theorem setPort_places (p : Nat) (x : Port) : (setPort s p x).places = s.places := rfl
@[simp] theorem setPort_copies (p : Nat) (x : Port) : (setPort s p x).copies = s.copies := rfl
@[simp] theorem setPort_engine (p : Nat) (x : Port) : (setPort s p x).engine = s.engine := rfl
@[simp] theorem setPort_seamFailed (p : Nat) (x : Port) : (setPort s p x).seamFailed = s.seamFailed := rfl
@[simp] theorem setPort_hedge (p : Nat) (x : Port) : (setPort s p x).hedge = s.hedge := rfl
@[simp] theorem setPort_tiles (p : Nat) (x : Port) : (setPort s p x).tiles = s.tiles := rfl
@[simp] theorem setPort_groupTiles (p : Nat) (x : Port) : (setPort s p x).groupTiles = s.groupTiles := rfl
@[simp] theorem setPort_groupHeld (p : Nat) (x : Port) : (setPort s p x).groupHeld = s.groupHeld := rfl
@[simp] theorem setPort_setters (p : Nat) (x : Port) : (setPort s p x).setters = s.setters := rfl
@[simp] theorem setPort_flagAdds (p : Nat) (x : Port) : (setPort s p x).flagAdds = s.flagAdds := rfl
@[simp] theorem setPort_bars (p : Nat) (x : Port) : (setPort s p x).bars = s.bars := rfl
@[simp] theorem setPort_sysrefArmed (p : Nat) (x : Port) : (setPort s p x).sysrefArmed = s.sysrefArmed := rfl
@[simp] theorem setPort_meridian (p : Nat) (x : Port) : (setPort s p x).meridian = s.meridian := rfl
@[simp] theorem setPort_swapOld (p : Nat) (x : Port) : (setPort s p x).swapOld = s.swapOld := rfl
@[simp] theorem setPort_plots (p : Nat) (x : Port) : (setPort s p x).plots = s.plots := rfl
@[simp] theorem setPort_fabric (p : Nat) (x : Port) : (setPort s p x).fabric = s.fabric := rfl
@[simp] theorem setPort_banks (p : Nat) (x : Port) : (setPort s p x).banks = s.banks := rfl
@[simp] theorem setPort_cfg (p : Nat) (x : Port) : (setPort s p x).cfg = s.cfg := rfl
@[simp] theorem setPort_lpddr (p : Nat) (x : Port) : (setPort s p x).lpddr = s.lpddr := rfl
@[simp] theorem setPort_mgmt (p : Nat) (x : Port) : (setPort s p x).mgmt = s.mgmt := rfl
@[simp] theorem setPort_vrn (p : Nat) (x : Port) : (setPort s p x).vrn = s.vrn := rfl
@[simp] theorem setPort_fallow (p : Nat) (x : Port) : (setPort s p x).fallow = s.fallow := rfl
@[simp] theorem setPort_pool (p : Nat) (x : Port) : (setPort s p x).pool = s.pool := rfl
@[simp] theorem setPort_sent (p : Nat) (x : Port) : (setPort s p x).sent = s.sent := rfl

/-! `setPlot`. -/

@[simp] theorem setPlot_pending (p : Nat) (x : Plot) : (setPlot s p x).pending = s.pending := rfl
@[simp] theorem setPlot_cycle (p : Nat) (x : Plot) : (setPlot s p x).cycle = s.cycle := rfl
@[simp] theorem setPlot_free (p : Nat) (x : Plot) : (setPlot s p x).free = s.free := rfl
@[simp] theorem setPlot_regs (p : Nat) (x : Plot) : (setPlot s p x).regs = s.regs := rfl
@[simp] theorem setPlot_mem (p : Nat) (x : Plot) : (setPlot s p x).mem = s.mem := rfl
@[simp] theorem setPlot_host (p : Nat) (x : Plot) : (setPlot s p x).host = s.host := rfl
@[simp] theorem setPlot_power (p : Nat) (x : Plot) : (setPlot s p x).power = s.power := rfl
@[simp] theorem setPlot_alms (p : Nat) (x : Plot) : (setPlot s p x).alms = s.alms := rfl
@[simp] theorem setPlot_seqs (p : Nat) (x : Plot) : (setPlot s p x).seqs = s.seqs := rfl
@[simp] theorem setPlot_handles (p : Nat) (x : Plot) : (setPlot s p x).handles = s.handles := rfl
@[simp] theorem setPlot_places (p : Nat) (x : Plot) : (setPlot s p x).places = s.places := rfl
@[simp] theorem setPlot_copies (p : Nat) (x : Plot) : (setPlot s p x).copies = s.copies := rfl
@[simp] theorem setPlot_engine (p : Nat) (x : Plot) : (setPlot s p x).engine = s.engine := rfl
@[simp] theorem setPlot_seamFailed (p : Nat) (x : Plot) : (setPlot s p x).seamFailed = s.seamFailed := rfl
@[simp] theorem setPlot_hedge (p : Nat) (x : Plot) : (setPlot s p x).hedge = s.hedge := rfl
@[simp] theorem setPlot_tiles (p : Nat) (x : Plot) : (setPlot s p x).tiles = s.tiles := rfl
@[simp] theorem setPlot_groupTiles (p : Nat) (x : Plot) : (setPlot s p x).groupTiles = s.groupTiles := rfl
@[simp] theorem setPlot_groupHeld (p : Nat) (x : Plot) : (setPlot s p x).groupHeld = s.groupHeld := rfl
@[simp] theorem setPlot_setters (p : Nat) (x : Plot) : (setPlot s p x).setters = s.setters := rfl
@[simp] theorem setPlot_flagAdds (p : Nat) (x : Plot) : (setPlot s p x).flagAdds = s.flagAdds := rfl
@[simp] theorem setPlot_bars (p : Nat) (x : Plot) : (setPlot s p x).bars = s.bars := rfl
@[simp] theorem setPlot_ports (p : Nat) (x : Plot) : (setPlot s p x).ports = s.ports := rfl
@[simp] theorem setPlot_sysrefArmed (p : Nat) (x : Plot) : (setPlot s p x).sysrefArmed = s.sysrefArmed := rfl
@[simp] theorem setPlot_meridian (p : Nat) (x : Plot) : (setPlot s p x).meridian = s.meridian := rfl
@[simp] theorem setPlot_swapOld (p : Nat) (x : Plot) : (setPlot s p x).swapOld = s.swapOld := rfl
@[simp] theorem setPlot_fabric (p : Nat) (x : Plot) : (setPlot s p x).fabric = s.fabric := rfl
@[simp] theorem setPlot_banks (p : Nat) (x : Plot) : (setPlot s p x).banks = s.banks := rfl
@[simp] theorem setPlot_cfg (p : Nat) (x : Plot) : (setPlot s p x).cfg = s.cfg := rfl
@[simp] theorem setPlot_lpddr (p : Nat) (x : Plot) : (setPlot s p x).lpddr = s.lpddr := rfl
@[simp] theorem setPlot_mgmt (p : Nat) (x : Plot) : (setPlot s p x).mgmt = s.mgmt := rfl
@[simp] theorem setPlot_vrn (p : Nat) (x : Plot) : (setPlot s p x).vrn = s.vrn := rfl
@[simp] theorem setPlot_fallow (p : Nat) (x : Plot) : (setPlot s p x).fallow = s.fallow := rfl
@[simp] theorem setPlot_pool (p : Nat) (x : Plot) : (setPlot s p x).pool = s.pool := rfl
@[simp] theorem setPlot_sent (p : Nat) (x : Plot) : (setPlot s p x).sent = s.sent := rfl

/-! `setBar`. -/

@[simp] theorem setBar_pending (b : Nat) (x : Bar) : (setBar s b x).pending = s.pending := rfl
@[simp] theorem setBar_cycle (b : Nat) (x : Bar) : (setBar s b x).cycle = s.cycle := rfl
@[simp] theorem setBar_free (b : Nat) (x : Bar) : (setBar s b x).free = s.free := rfl
@[simp] theorem setBar_regs (b : Nat) (x : Bar) : (setBar s b x).regs = s.regs := rfl
@[simp] theorem setBar_mem (b : Nat) (x : Bar) : (setBar s b x).mem = s.mem := rfl
@[simp] theorem setBar_host (b : Nat) (x : Bar) : (setBar s b x).host = s.host := rfl
@[simp] theorem setBar_power (b : Nat) (x : Bar) : (setBar s b x).power = s.power := rfl
@[simp] theorem setBar_alms (b : Nat) (x : Bar) : (setBar s b x).alms = s.alms := rfl
@[simp] theorem setBar_seqs (b : Nat) (x : Bar) : (setBar s b x).seqs = s.seqs := rfl
@[simp] theorem setBar_handles (b : Nat) (x : Bar) : (setBar s b x).handles = s.handles := rfl
@[simp] theorem setBar_places (b : Nat) (x : Bar) : (setBar s b x).places = s.places := rfl
@[simp] theorem setBar_copies (b : Nat) (x : Bar) : (setBar s b x).copies = s.copies := rfl
@[simp] theorem setBar_engine (b : Nat) (x : Bar) : (setBar s b x).engine = s.engine := rfl
@[simp] theorem setBar_seamFailed (b : Nat) (x : Bar) : (setBar s b x).seamFailed = s.seamFailed := rfl
@[simp] theorem setBar_hedge (b : Nat) (x : Bar) : (setBar s b x).hedge = s.hedge := rfl
@[simp] theorem setBar_tiles (b : Nat) (x : Bar) : (setBar s b x).tiles = s.tiles := rfl
@[simp] theorem setBar_groupTiles (b : Nat) (x : Bar) : (setBar s b x).groupTiles = s.groupTiles := rfl
@[simp] theorem setBar_groupHeld (b : Nat) (x : Bar) : (setBar s b x).groupHeld = s.groupHeld := rfl
@[simp] theorem setBar_setters (b : Nat) (x : Bar) : (setBar s b x).setters = s.setters := rfl
@[simp] theorem setBar_flagAdds (b : Nat) (x : Bar) : (setBar s b x).flagAdds = s.flagAdds := rfl
@[simp] theorem setBar_ports (b : Nat) (x : Bar) : (setBar s b x).ports = s.ports := rfl
@[simp] theorem setBar_sysrefArmed (b : Nat) (x : Bar) : (setBar s b x).sysrefArmed = s.sysrefArmed := rfl
@[simp] theorem setBar_meridian (b : Nat) (x : Bar) : (setBar s b x).meridian = s.meridian := rfl
@[simp] theorem setBar_swapOld (b : Nat) (x : Bar) : (setBar s b x).swapOld = s.swapOld := rfl
@[simp] theorem setBar_plots (b : Nat) (x : Bar) : (setBar s b x).plots = s.plots := rfl
@[simp] theorem setBar_fabric (b : Nat) (x : Bar) : (setBar s b x).fabric = s.fabric := rfl
@[simp] theorem setBar_banks (b : Nat) (x : Bar) : (setBar s b x).banks = s.banks := rfl
@[simp] theorem setBar_cfg (b : Nat) (x : Bar) : (setBar s b x).cfg = s.cfg := rfl
@[simp] theorem setBar_lpddr (b : Nat) (x : Bar) : (setBar s b x).lpddr = s.lpddr := rfl
@[simp] theorem setBar_mgmt (b : Nat) (x : Bar) : (setBar s b x).mgmt = s.mgmt := rfl
@[simp] theorem setBar_vrn (b : Nat) (x : Bar) : (setBar s b x).vrn = s.vrn := rfl
@[simp] theorem setBar_fallow (b : Nat) (x : Bar) : (setBar s b x).fallow = s.fallow := rfl
@[simp] theorem setBar_pool (b : Nat) (x : Bar) : (setBar s b x).pool = s.pool := rfl
@[simp] theorem setBar_sent (b : Nat) (x : Bar) : (setBar s b x).sent = s.sent := rfl

/-! `emit`. -/

@[simp] theorem emit_pending (m : Sent) : (emit s m).pending = s.pending := rfl
@[simp] theorem emit_cycle (m : Sent) : (emit s m).cycle = s.cycle := rfl
@[simp] theorem emit_free (m : Sent) : (emit s m).free = s.free := rfl
@[simp] theorem emit_regs (m : Sent) : (emit s m).regs = s.regs := rfl
@[simp] theorem emit_mem (m : Sent) : (emit s m).mem = s.mem := rfl
@[simp] theorem emit_host (m : Sent) : (emit s m).host = s.host := rfl
@[simp] theorem emit_power (m : Sent) : (emit s m).power = s.power := rfl
@[simp] theorem emit_alms (m : Sent) : (emit s m).alms = s.alms := rfl
@[simp] theorem emit_seqs (m : Sent) : (emit s m).seqs = s.seqs := rfl
@[simp] theorem emit_handles (m : Sent) : (emit s m).handles = s.handles := rfl
@[simp] theorem emit_places (m : Sent) : (emit s m).places = s.places := rfl
@[simp] theorem emit_copies (m : Sent) : (emit s m).copies = s.copies := rfl
@[simp] theorem emit_engine (m : Sent) : (emit s m).engine = s.engine := rfl
@[simp] theorem emit_seamFailed (m : Sent) : (emit s m).seamFailed = s.seamFailed := rfl
@[simp] theorem emit_hedge (m : Sent) : (emit s m).hedge = s.hedge := rfl
@[simp] theorem emit_tiles (m : Sent) : (emit s m).tiles = s.tiles := rfl
@[simp] theorem emit_groupTiles (m : Sent) : (emit s m).groupTiles = s.groupTiles := rfl
@[simp] theorem emit_groupHeld (m : Sent) : (emit s m).groupHeld = s.groupHeld := rfl
@[simp] theorem emit_setters (m : Sent) : (emit s m).setters = s.setters := rfl
@[simp] theorem emit_flagAdds (m : Sent) : (emit s m).flagAdds = s.flagAdds := rfl
@[simp] theorem emit_bars (m : Sent) : (emit s m).bars = s.bars := rfl
@[simp] theorem emit_ports (m : Sent) : (emit s m).ports = s.ports := rfl
@[simp] theorem emit_sysrefArmed (m : Sent) : (emit s m).sysrefArmed = s.sysrefArmed := rfl
@[simp] theorem emit_meridian (m : Sent) : (emit s m).meridian = s.meridian := rfl
@[simp] theorem emit_swapOld (m : Sent) : (emit s m).swapOld = s.swapOld := rfl
@[simp] theorem emit_plots (m : Sent) : (emit s m).plots = s.plots := rfl
@[simp] theorem emit_fabric (m : Sent) : (emit s m).fabric = s.fabric := rfl
@[simp] theorem emit_banks (m : Sent) : (emit s m).banks = s.banks := rfl
@[simp] theorem emit_cfg (m : Sent) : (emit s m).cfg = s.cfg := rfl
@[simp] theorem emit_lpddr (m : Sent) : (emit s m).lpddr = s.lpddr := rfl
@[simp] theorem emit_mgmt (m : Sent) : (emit s m).mgmt = s.mgmt := rfl
@[simp] theorem emit_vrn (m : Sent) : (emit s m).vrn = s.vrn := rfl
@[simp] theorem emit_fallow (m : Sent) : (emit s m).fallow = s.fallow := rfl
@[simp] theorem emit_pool (m : Sent) : (emit s m).pool = s.pool := rfl

end Sys2Proof.Machine
end

