-- ==== Sys2Proof/Laws/Regs.lean ====
section
/-!
SUPPORT. Laws of the register file: what a register reads after each of the operations that set one, and the canonical
form that all of them keep.
-/
namespace Sys2Proof.Machine
open Sys2Proof

variable {s : State}

/-- A register reads what was set, and every other register reads as before. -/
theorem getReg_setReg (o p : Nat) (v : Word) : getReg (setReg s o v) p = if p = o then v else getReg s p := by
  unfold getReg setReg
  split
  · rename_i h; subst h; exact smGet_smSet_self
  · rename_i h; exact smGet_smSet_ne h

@[simp] theorem getReg_setReg_self (o : Nat) (v : Word) : getReg (setReg s o v) o = v := by simp [getReg_setReg]

theorem getReg_setReg_ne {o p : Nat} (v : Word) (h : p ≠ o) : getReg (setReg s o v) p = getReg s p := by
  simp [getReg_setReg, h]

/-- Setting a register twice leaves the last value everywhere. -/
theorem getReg_set64 (o v p : Nat) : getReg (set64 s o v) p =
    if p = o + 4 then BitVec.ofNat 32 (v / 2 ^ 32) else if p = o then BitVec.ofNat 32 v else getReg s p := by
  simp only [set64, getReg_setReg]

/-- A 64-bit register set reads the value modulo 2^64. -/
@[simp] theorem get64_set64_self (o v : Nat) : get64 (set64 s o v) o = v % 2 ^ 64 := by
  unfold get64
  simp only [getReg_set64]
  have h1 : ¬ (o = o + 4) := by omega
  simp only [h1, if_true, if_false, BitVec.toNat_ofNat]
  omega

/-- A field of another register reads as before a register was set. -/
theorem getf_setReg_ne {o p hi lo : Nat} (v : Word) (h : p ≠ o) (h' : p + 4 ≠ o) :
    getf (setReg s o v) p hi lo = getf s p hi lo := by
  unfold getf get64
  rw [getReg_setReg_ne v h, getReg_setReg_ne v h']

/-- A cleared register reads its reset value; the others stay. -/
theorem getReg_clearRegs (p : Nat → Bool) (o : Nat) :
    getReg (clearRegs s p) o = if p o then resetWord o else getReg s o := by
  unfold getReg clearRegs
  split
  · rename_i h; exact smGet_filter_drop (fun k => !p k) (by simp [h])
  · rename_i h; exact smGet_filter_keep (fun k => !p k) (by simpa using h)

/-! The word and field arithmetic. -/

theorem fld_lt (n hi lo : Nat) : fld n hi lo < 2 ^ (hi - lo + 1) := Nat.mod_lt _ (by positivity)

theorem putFld_eq (n hi lo v : Nat) : putFld n hi lo v =
    n % 2 ^ lo + (v % 2 ^ (hi - lo + 1)) * 2 ^ lo + n / 2 ^ (lo + (hi - lo + 1)) * 2 ^ (lo + (hi - lo + 1)) := by
  unfold putFld fld
  simp only [Nat.shiftLeft_eq, Nat.shiftRight_eq_div_pow]
  have h1 : n = n % 2 ^ lo + 2 ^ lo * (n / 2 ^ lo) := (Nat.mod_add_div n (2 ^ lo)).symm
  have h2 : n / 2 ^ lo = n / 2 ^ lo % 2 ^ (hi - lo + 1) + 2 ^ (hi - lo + 1) * (n / 2 ^ lo / 2 ^ (hi - lo + 1)) :=
    (Nat.mod_add_div _ _).symm
  have h3 : n / 2 ^ lo / 2 ^ (hi - lo + 1) = n / 2 ^ (lo + (hi - lo + 1)) := by
    rw [Nat.div_div_eq_div_mul, ← pow_add]
  rw [h3] at h2
  generalize n / 2 ^ lo % 2 ^ (hi - lo + 1) = f at *
  generalize n / 2 ^ (lo + (hi - lo + 1)) = q at *
  generalize n / 2 ^ lo = d at *
  generalize n % 2 ^ lo = r at *
  have h4 : n = r + f * 2 ^ lo + q * 2 ^ (lo + (hi - lo + 1)) := by
    rw [h1, h2, pow_add]; ring
  omega

/-- A field put into a number reads back, modulo its width. -/
@[simp] theorem fld_putFld_self (n hi lo v : Nat) : fld (putFld n hi lo v) hi lo = v % 2 ^ (hi - lo + 1) := by
  rw [putFld_eq]
  unfold fld
  rw [Nat.shiftRight_eq_div_pow]
  have hp : 0 < 2 ^ lo := by positivity
  have e : n % 2 ^ lo + v % 2 ^ (hi - lo + 1) * 2 ^ lo + n / 2 ^ (lo + (hi - lo + 1)) * 2 ^ (lo + (hi - lo + 1)) =
      n % 2 ^ lo + 2 ^ lo * (v % 2 ^ (hi - lo + 1) + 2 ^ (hi - lo + 1) * (n / 2 ^ (lo + (hi - lo + 1)))) := by
    rw [pow_add]; ring
  rw [e, Nat.add_mul_div_left _ _ hp, Nat.div_eq_of_lt (Nat.mod_lt _ hp), Nat.zero_add, Nat.add_mul_mod_self_left,
    Nat.mod_mod]

theorem testBit_putFld (n hi lo v i : Nat) : (putFld n hi lo v).testBit i =
    if lo ≤ i ∧ i < lo + (hi - lo + 1) then v.testBit (i - lo) else n.testBit i := by
  rw [putFld_eq]
  generalize hw : hi - lo + 1 = w
  have h1 : n % 2 ^ lo + v % 2 ^ w * 2 ^ lo < 2 ^ (lo + w) := by
    have a1 : n % 2 ^ lo < 2 ^ lo := Nat.mod_lt _ (by positivity)
    have a2 : v % 2 ^ w < 2 ^ w := Nat.mod_lt _ (by positivity)
    calc n % 2 ^ lo + v % 2 ^ w * 2 ^ lo < 2 ^ lo + v % 2 ^ w * 2 ^ lo := by omega
      _ = (v % 2 ^ w + 1) * 2 ^ lo := by ring
      _ ≤ 2 ^ w * 2 ^ lo := Nat.mul_le_mul_right _ a2
      _ = 2 ^ (lo + w) := by rw [pow_add, mul_comm]
  rw [add_comm, mul_comm, Nat.testBit_two_pow_mul_add _ h1]
  rw [add_comm (n % 2 ^ lo), mul_comm (v % 2 ^ w), Nat.testBit_two_pow_mul_add _ (Nat.mod_lt _ (by positivity))]
  by_cases c1 : i < lo
  · simp [show i < lo + w by omega, c1, Nat.testBit_mod_two_pow]
  · by_cases c2 : i < lo + w
    · simp [c1, c2, Nat.testBit_mod_two_pow, show lo ≤ i by omega, show i - lo < w by omega]
    · simp [c2, Nat.testBit_div_two_pow, Nat.sub_add_cancel (not_lt.mp c2)]

/-! Fields. -/

/-- A field of the low word set: the other registers stay. -/
theorem getReg_setf_ne {o p hi lo v : Nat} (hh : hi < 32) (h : p ≠ o) : getReg (setf s o hi lo v) p = getReg s p := by
  simp only [setf, hh, if_true]
  exact getReg_setReg_ne _ h

/-- A field of the low word set: the register's new word. -/
theorem getReg_setf_self {o hi lo v : Nat} (hh : hi < 32) :
    getReg (setf s o hi lo v) o = BitVec.ofNat 32 (putFld (getReg s o).toNat hi lo v) := by
  simp [setf, hh]

theorem putFld_lt {n hi lo v : Nat} (hh : hi < 32) (hl : lo ≤ hi) (hn : n < 2 ^ 32) : putFld n hi lo v < 2 ^ 32 := by
  apply Nat.lt_pow_two_of_testBit
  intro i hi'
  rw [testBit_putFld, if_neg (by omega)]
  exact Nat.testBit_lt_two_pow (lt_of_lt_of_le hn (Nat.pow_le_pow_right (by omega) hi'))

/-- A field set is read back, modulo its width. -/
theorem getf_setf_self {o hi lo v : Nat} (hh : hi < 32) (hl : lo ≤ hi) :
    getf (setf s o hi lo v) o hi lo = v % 2 ^ (hi - lo + 1) := by
  simp only [getf, hh, if_true, getReg_setf_self hh, BitVec.toNat_ofNat]
  rw [Nat.mod_eq_of_lt (putFld_lt hh hl (getReg s o).isLt), fld_putFld_self]

/-- Bit `i` of the register after a field of it was set. -/
theorem getLsbD_setf {o hi lo v i : Nat} (hh : hi < 32) (hl : lo ≤ hi) :
    (getReg (setf s o hi lo v) o).getLsbD i =
      if lo ≤ i ∧ i ≤ hi then v.testBit (i - lo) else (getReg s o).getLsbD i := by
  rw [getReg_setf_self hh, BitVec.getLsbD_ofNat, testBit_putFld]
  by_cases hc : lo ≤ i ∧ i ≤ hi
  · rw [if_pos (by omega), if_pos hc]; simp [show i < 32 by omega]
  · rw [if_neg (by omega), if_neg hc]
    by_cases hi' : i < 32
    · simp [hi', BitVec.getLsbD]
    · simp [hi', BitVec.getLsbD_of_ge _ _ (not_lt.mp hi')]

/-! The canonical form. -/

/-- Setting a register keeps the register file canonical. -/
theorem setReg_wf {o : Nat} {v : Word} (h : RegFile.wf s.regs = true) : RegFile.wf (setReg s o v).regs = true :=
  smWf_smSet (d := resetWord) h

theorem set64_wf {o v : Nat} (h : RegFile.wf s.regs = true) : RegFile.wf (set64 s o v).regs = true :=
  setReg_wf (setReg_wf h)

theorem clearRegs_wf {p : Nat → Bool} (h : RegFile.wf s.regs = true) : RegFile.wf (clearRegs s p).regs = true :=
  smWf_filter _ h

end Sys2Proof.Machine
end

