-- ==== Sys2Proof/Laws/Canonical.lean ====
section
/-!
SUPPORT. The canonical form under the shared operations: each keeps the register file and the Commons memory canonical, so
that a command's meaning keeps them by the operations it is made of.
-/
namespace Sys2Proof.Machine
open Sys2Proof

variable {s : State}

/-- The canonical form, part by part. -/
theorem State.canonical_iff : s.canonical = true ↔ RegFile.wf s.regs = true ∧ Memory.wf s.mem = true := by
  simp [State.canonical]

/-- A state with the same registers and memory is as canonical. -/
theorem State.canonical_congr {t : State} (hr : t.regs = s.regs) (hm : t.mem = s.mem) (h : s.canonical = true) :
    t.canonical = true := by
  rw [State.canonical_iff] at *
  rw [hr, hm]
  exact h

/-- Folding an operation that keeps the canonical form keeps it. -/
theorem State.canonical_foldl {α : Type} {f : State → α → State} (hf : ∀ s a, s.canonical = true → (f s a).canonical = true)
    (l : List α) (h : s.canonical = true) : (l.foldl f s).canonical = true := by
  induction l generalizing s with
  | nil => exact h
  | cons a t ih => exact ih (hf s a h)

/-- A list of states folded from the right likewise. -/
theorem State.canonical_ite {p : Prop} [Decidable p] {t : State} (h : s.canonical = true) (h' : t.canonical = true) :
    (if p then s else t).canonical = true := by
  split
  · exact h
  · exact h'

theorem setReg_canonical {o : Nat} {v : Word} (h : s.canonical = true) : (setReg s o v).canonical = true := by
  rw [State.canonical_iff] at *
  exact ⟨setReg_wf h.1, h.2⟩

theorem set64_canonical {o v : Nat} (h : s.canonical = true) : (set64 s o v).canonical = true :=
  setReg_canonical (setReg_canonical h)

theorem setf_canonical {o hi lo v : Nat} (h : s.canonical = true) : (setf s o hi lo v).canonical = true := by
  unfold setf
  split
  · exact setReg_canonical h
  · split
    · exact setReg_canonical h
    · exact set64_canonical h

theorem setb_canonical {o i : Nat} {b : Bool} (h : s.canonical = true) : (setb s o i b).canonical = true := setf_canonical h

theorem countUp_canonical {o hi lo : Nat} (h : s.canonical = true) : (countUp s o hi lo).canonical = true :=
  State.canonical_ite h (setf_canonical h)

theorem countUpBy_canonical {o hi lo n : Nat} (h : s.canonical = true) : (countUpBy s o hi lo n).canonical = true :=
  setf_canonical h

theorem clearRegs_canonical {p : Nat → Bool} (h : s.canonical = true) : (clearRegs s p).canonical = true := by
  rw [State.canonical_iff] at *
  exact ⟨clearRegs_wf h.1, h.2⟩

theorem setMsixPending_canonical {fn vec : Nat} {b : Bool} (h : s.canonical = true) :
    (setMsixPending s fn vec b).canonical = true := State.canonical_congr rfl rfl h

theorem emit_canonical {m : Sent} (h : s.canonical = true) : (emit s m).canonical = true := State.canonical_congr rfl rfl h

theorem msix_canonical {fn vec : Nat} (h : s.canonical = true) : (msix s fn vec).canonical = true :=
  State.canonical_ite h (State.canonical_ite (setMsixPending_canonical h) (emit_canonical h))

/-- A hardware change of a status register keeps it where the change itself does. -/
theorem risen_canonical {fn vec : Nat} {c : State → Bool} {f : State → State} (h : (f s).canonical = true) :
    (risen fn vec c f s).canonical = true := by
  unfold risen
  split
  · exact msix_canonical h
  · exact h

/-- A software write of a status register likewise. -/
theorem rewritten_canonical {fn vec : Nat} {c : State → Bool} {f : State → State} (h : (f s).canonical = true) :
    (rewritten fn vec c f s).canonical = true := by
  unfold rewritten
  split
  · exact msix_canonical h
  · exact h

/-! Interrupt sources, alerts and the event log. -/

theorem almEvent_canonical {a i : Nat} (h : s.canonical = true) : (almEvent s a i).canonical = true :=
  risen_canonical (setb_canonical h)

theorem alertSet_canonical {i : Nat} (h : s.canonical = true) : (alertSet s i).canonical = true := by
  unfold alertSet
  refine risen_canonical (setb_canonical ?_)
  exact State.canonical_congr (s := s) rfl rfl h

theorem alertLevel_canonical {i : Nat} {b : Bool} (h : s.canonical = true) : (alertLevel s i b).canonical = true :=
  State.canonical_ite (alertSet_canonical (State.canonical_congr rfl rfl h)) (State.canonical_congr rfl rfl h)

theorem logWrite_canonical {cls code loc det : Nat} (h : s.canonical = true) : (logWrite s cls code loc det).canonical = true :=
  setReg_canonical (set64_canonical (set64_canonical (set64_canonical (setReg_canonical (setReg_canonical h)))))

/-- A log entry keeps the form, whatever its class. -/
theorem logEntry_canonical {cls code loc det : Nat} (h : s.canonical = true) : (logEntry s cls code loc det).canonical = true := by
  unfold logEntry
  split
  · exact h
  · have h1 : (if cls = 1 then { s with fallow := { s.fallow with logged := smSet 0 loc (s.cycle + 1) s.fallow.logged } } else s :
        State).canonical = true := State.canonical_ite (State.canonical_congr rfl rfl h) h
    exact State.canonical_ite (alertSet_canonical (risen_canonical (setb_canonical (logWrite_canonical h1))))
      (risen_canonical (setb_canonical (logWrite_canonical h1)))

theorem laneEvent_canonical {p i : Nat} (h : s.canonical = true) : (laneEvent s p i).canonical = true :=
  risen_canonical (setb_canonical h)

theorem meridianEvent_canonical {i : Nat} (h : s.canonical = true) : (meridianEvent s i).canonical = true :=
  risen_canonical (setb_canonical h)

theorem mgmtEvent_canonical {i : Nat} (h : s.canonical = true) : (mgmtEvent s i).canonical = true :=
  risen_canonical (setb_canonical h)

/-- A change of the pool or the twin keeps the form where the change itself does. -/
theorem poolChange_canonical {f : State → State} (h : (f s).canonical = true) : (poolChange s f).canonical = true :=
  State.canonical_ite h (msix_canonical h)

theorem setPersonality_canonical {b : Bool} (h : s.canonical = true) : (setPersonality s b).canonical = true :=
  State.canonical_ite h (msix_canonical (setb_canonical (State.canonical_congr rfl rfl h)))

/-! The tables by unit, and software writes. -/

theorem setAlm_canonical {a : Nat} {x : Alm} (h : s.canonical = true) : (setAlm s a x).canonical = true :=
  State.canonical_congr rfl rfl h

theorem setTile_canonical {t : Nat} {x : Tile} (h : s.canonical = true) : (setTile s t x).canonical = true :=
  State.canonical_congr rfl rfl h

theorem modTile_canonical {t : Nat} {f : Tile → Tile} (h : s.canonical = true) : (modTile s t f).canonical = true :=
  setTile_canonical h

theorem setPort_canonical {p : Nat} {x : Port} (h : s.canonical = true) : (setPort s p x).canonical = true :=
  State.canonical_congr rfl rfl h

theorem modPort_canonical {p : Nat} {f : Port → Port} (h : s.canonical = true) : (modPort s p f).canonical = true :=
  setPort_canonical h

theorem setPlot_canonical {p : Nat} {x : Plot} (h : s.canonical = true) : (setPlot s p x).canonical = true :=
  State.canonical_congr rfl rfl h

theorem modPlot_canonical {p : Nat} {f : Plot → Plot} (h : s.canonical = true) : (modPlot s p f).canonical = true :=
  setPlot_canonical h

theorem setBar_canonical {b : Nat} {x : Bar} (h : s.canonical = true) : (setBar s b x).canonical = true :=
  State.canonical_congr rfl rfl h

theorem plainWrite_canonical {o : Nat} {v : Word} (h : s.canonical = true) : (plainWrite s o v).canonical = true :=
  setReg_canonical h

theorem plainWrite64_canonical {o v : Nat} (h : s.canonical = true) : (plainWrite64 s o v).canonical = true :=
  plainWrite_canonical (plainWrite_canonical h)

/-! Memory through handles. -/

theorem noteWritten_canonical {k : Handle} {off n : Nat} (h : s.canonical = true) : (noteWritten s k off n).canonical = true :=
  State.canonical_ite h (State.canonical_ite h (State.canonical_congr rfl rfl h))

/-- A store through a handle keeps the form. -/
theorem memWrite_canonical {k : Handle} {off : Nat} {bs : List Byte} (h : s.canonical = true) :
    (memWrite s k off bs).canonical = true := by
  refine noteWritten_canonical ?_
  rw [State.canonical_iff] at *
  exact ⟨h.1, wrBytes_wf h.2⟩

theorem bufWrite_canonical {id off : Nat} {bs : List Byte} (h : s.canonical = true) : (bufWrite s id off bs).canonical = true := by
  unfold bufWrite
  split
  · exact State.canonical_ite (memWrite_canonical h) h
  · exact h

/-! Runs and flags. -/

theorem mapRuns_canonical {f : Nat → Nat → Nat → BitVec 1024 → Run → Run} (h : s.canonical = true) :
    (mapRuns f s).canonical = true := State.canonical_congr rfl rfl h

theorem modRun_canonical {d : DescRef} {f : Run → Run} (h : s.canonical = true) : (modRun s d f).canonical = true :=
  State.canonical_congr rfl rfl h

theorem evalFlag_canonical {f : Nat} (h : s.canonical = true) : (evalFlag s f).canonical = true := mapRuns_canonical h

theorem registerWait_canonical {d : DescRef} {n : Nat} (h : s.canonical = true) : (registerWait s d n).canonical = true := by
  unfold registerWait
  split
  · exact State.canonical_ite h (modRun_canonical h)
  · exact h

theorem armRun_canonical {d : DescRef} (h : s.canonical = true) : (armRun s d).canonical = true := by
  have h1 := registerWait_canonical (d := d) (n := 1) (registerWait_canonical (d := d) (n := 0)
    (modRun_canonical (d := d) (f := fun r => { r with armed := true }) h))
  unfold armRun
  dsimp only
  split
  · exact modRun_canonical h1
  · exact h1

theorem putFlag_canonical {f v : Nat} {by_ : Setter} (h : s.canonical = true) : (putFlag s f v by_).canonical = true :=
  evalFlag_canonical (State.canonical_congr rfl rfl (setReg_canonical h))

theorem addFlag_canonical {f n : Nat} {by_ : Setter} (h : s.canonical = true) : (addFlag s f n by_).canonical = true :=
  State.canonical_ite h (putFlag_canonical (State.canonical_congr rfl rfl h))

theorem writeFlag_canonical {f : Nat} {fn : Fn} {w : Word} (h : s.canonical = true) :
    (writeFlag s f fn w).canonical = true := by
  unfold writeFlag
  split <;> exact putFlag_canonical h

theorem flagUpdate_canonical {f : Nat} {host : Option (Fn × Word)} {adds : List FlagAdd} (h : s.canonical = true) :
    (flagUpdate s f host adds).canonical = true := by
  refine State.canonical_foldl (fun _ _ h => addFlag_canonical h) _ ?_
  split
  · exact writeFlag_canonical h
  · exact h

theorem markFail_canonical {d : DescRef} {code dh doff : Nat} (h : s.canonical = true) :
    (markFail s d code dh doff).canonical = true := modRun_canonical h

theorem markFailAll_canonical {code : Nat} {p : Nat → Nat → Nat → BitVec 1024 → Run → Bool} (h : s.canonical = true) :
    (markFailAll s code p).canonical = true := mapRuns_canonical h

theorem twinHalt_canonical {d : DescRef} {code part operand chunk : Nat} (h : s.canonical = true) :
    (twinHalt s d code part operand chunk).canonical = true :=
  poolChange_canonical (State.canonical_ite (set64_canonical (set64_canonical (setf_canonical (setf_canonical h))))
    (setf_canonical (setf_canonical h)))

/-! The fallow policy. -/

theorem propose_canonical {kind target cause : Nat} (h : s.canonical = true) : (propose s kind target cause).canonical = true := by
  unfold propose
  split
  · exact h
  · split
    · exact State.canonical_ite h (State.canonical_congr rfl rfl h)
    · exact logEntry_canonical (State.canonical_congr rfl rfl h)

theorem setOff_canonical {kind target cause : Nat} (h : s.canonical = true) : (setOff s kind target cause).canonical = true :=
  State.canonical_ite h (State.canonical_congr rfl rfl h)

theorem trigger_canonical {kind target cause : Nat} (h : s.canonical = true) : (trigger s kind target cause).canonical = true := by
  unfold trigger
  split
  · exact h
  · exact setOff_canonical h
  · exact propose_canonical h

theorem refillProposals_canonical (h : s.canonical = true) : (refillProposals s).canonical = true := by
  unfold refillProposals
  split
  · exact State.canonical_ite (propose_canonical (State.canonical_congr rfl rfl h)) h
  · exact h

theorem dropProposals_canonical {p : Proposal → Bool} (h : s.canonical = true) : (dropProposals s p).canonical = true :=
  refillProposals_canonical (State.canonical_congr rfl rfl h)

/-! Management packets. -/

theorem setJob_canonical {a : Nat} {j : Job} (h : s.canonical = true) : (setJob s a j).canonical = true :=
  State.canonical_congr rfl rfl h

theorem endJob_canonical {a code : Nat} (h : s.canonical = true) : (endJob s a code).canonical = true :=
  State.canonical_ite (mgmtEvent_canonical (setJob_canonical h)) h

theorem putWords_canonical (n : Nat) {off : Nat} {l : List Byte} (h : s.canonical = true) : (putWords n s off l).canonical = true := by
  induction n generalizing s off l with
  | zero => exact h
  | succ n ih =>
    unfold putWords
    split
    · exact h
    · exact ih (setReg_canonical h)

theorem sendReply_canonical {src : MgmtSrc} {q r : List Byte} (h : s.canonical = true) : (sendReply s src q r).canonical = true := by
  unfold sendReply
  split
  · exact mgmtEvent_canonical (setb_canonical (setf_canonical (putWords_canonical _ (putWords_canonical _
      (State.canonical_congr rfl rfl h)))))
  · exact emit_canonical (emit_canonical (State.canonical_congr rfl rfl h))
  · exact emit_canonical h
  · exact h

/-- A request served keeps the form where its action does. -/
theorem serve_canonical {o : OpSpec} {fields : List Byte → State → Bad} {act : List Byte → State → State × Nat × List Byte}
    {src : MgmtSrc} (ha : ∀ q s, s.canonical = true → (act q s).1.canonical = true) (h : s.canonical = true) :
    (serve o fields act src s).canonical = true := by
  unfold serve
  split
  · exact h
  · split
    · exact h
    · split
      · exact sendReply_canonical h
      · split
        · exact sendReply_canonical h
        · split
          · exact ha _ _ (sendReply_canonical (setJob_canonical h))
          · exact sendReply_canonical (ha _ _ h)

/-! The Hedgerow, the throttle and the cache. -/

theorem setQueue_canonical {k : Nat} {l : List Flit} (h : s.canonical = true) : (setQueue s k l).canonical = true :=
  State.canonical_congr rfl rfl h

theorem hedgeSend_canonical {f : Flit} (h : s.canonical = true) : (hedgeSend s f).canonical = true :=
  State.canonical_congr rfl rfl h

theorem setRoute_canonical {t entry route : Nat} (h : s.canonical = true) : (setRoute s t entry route).canonical = true :=
  State.canonical_ite h (modTile_canonical h)

theorem regulate_canonical {f : Flit} (h : s.canonical = true) : (regulate s f).canonical = true := by
  unfold regulate
  split
  · exact h
  · dsimp only
    generalize BitVec.ofNat 32 _ = v
    exact State.canonical_congr (s := setReg s (rateR f.src f.ch) v) rfl rfl (setReg_canonical h)

theorem injectHead_canonical {k : Nat} (h : s.canonical = true) : (injectHead s k).canonical = true := by
  unfold injectHead
  split
  · exact h
  · next f rest _ =>
    have h1 := regulate_canonical (f := f) h
    dsimp only
    generalize regulate s f = r at *
    split
    · exact h1
    · split
      · exact h1
      · refine setQueue_canonical (State.canonical_congr (s := if f.ch = 2 then r else setRoute r _ _ _) rfl rfl ?_)
        exact State.canonical_ite h1 (setRoute_canonical h1)

theorem linkCycle_canonical {t : Nat} {dir : Dir} (h : s.canonical = true) : (linkCycle t s dir).canonical = true := by
  unfold linkCycle
  dsimp only
  split
  · exact h
  · split
    · exact h
    · split
      · exact h
      · split
        · exact h
        · exact State.canonical_congr rfl rfl h

theorem ejectHead_canonical {q : Nat} (h : s.canonical = true) : (ejectHead s q).canonical = true := by
  unfold ejectHead
  dsimp only
  split
  · exact h
  · split
    · exact State.canonical_ite (hedgeSend_canonical (setQueue_canonical h)) (setQueue_canonical h)
    · exact h

/-- A core cycle of the Hedgerow keeps the form. -/
theorem hedgeCycle_canonical (h : s.canonical = true) : (hedgeCycle s).canonical = true :=
  State.canonical_foldl (fun _ _ => injectHead_canonical) _
    (State.canonical_foldl (fun _ _ h => State.canonical_foldl (fun _ _ => linkCycle_canonical) _ h) _
      (State.canonical_foldl (fun _ _ => ejectHead_canonical) _ (State.canonical_congr rfl rfl h)))

theorem throttleTile_canonical {t : Nat} (h : s.canonical = true) : (throttleTile s t).canonical = true :=
  State.canonical_ite h (set64_canonical (setTile_canonical h))

theorem throttleAll_canonical (h : s.canonical = true) : (throttleAll s).canonical = true :=
  State.canonical_foldl (fun _ _ => throttleTile_canonical) _ h

theorem tidyCache_canonical (h : s.canonical = true) : (tidyCache s).canonical = true :=
  State.canonical_ite h (State.canonical_congr rfl rfl h)

end Sys2Proof.Machine
end

