-- ==== Sys2Proof/Laws/Frames.lean ====
section
/-!
SUPPORT. What the shared operations may change: an interrupt message, a bit that hardware sets, a
field write and an alert cause, each in one equation that the frame of a command is read off from.
-/
namespace Sys2Proof.Machine
open Sys2Proof

variable (s : State)

/-- An interrupt message is sent, or left pending, and nothing else changes. -/
theorem msix_frame (fn vec : Nat) : msix s fn vec =
    { s with sent := (msix s fn vec).sent, host := { s.host with msix := (msix s fn vec).host.msix } } := by
  unfold msix
  split
  · rfl
  · split <;> rfl

/-- No register changes with a message. -/
theorem getReg_msix (fn vec o : Nat) : getReg (msix s fn vec) o = getReg s o := by
  rw [msix_frame]; rfl

/-- A bit that hardware sets, with its message: of the registers only that one changes. -/
theorem risen_setb_frame (fn vec o i : Nat) (c : State → Bool) (b : Bool) :
    let t := risen fn vec c (fun s => setb s o i b) s
    t = { setb s o i b with sent := t.sent, host := { (setb s o i b).host with msix := t.host.msix } } := by
  intro t
  simp only [t, risen]
  split
  · exact msix_frame _ _ _
  · rfl

theorem getReg_risen_setb (fn vec o i p : Nat) (c : State → Bool) (b : Bool) :
    getReg (risen fn vec c (fun s => setb s o i b) s) p = getReg (setb s o i b) p := by
  unfold risen
  split
  · exact getReg_msix _ _ _ _
  · rfl

/-- A field write changes the register file alone. -/
theorem setf_frame (o hi lo v : Nat) : setf s o hi lo v = { s with regs := (setf s o hi lo v).regs } := by
  unfold setf
  split
  · rfl
  · split <;> rfl

/-- A cause that hardware sets changes no other register. -/
theorem getReg_alertSet {i o : Nat} (hi : i < 32) (h : o ≠ Reg.alertCause) : getReg (alertSet s i) o = getReg s o := by
  unfold alertSet
  rw [getReg_risen_setb]
  unfold setb
  rw [getReg_setf_ne hi h]
  rfl

end Sys2Proof.Machine
end

