-- ==== Sys2Proof/Tests/Slice0.lean ====
section
/-!
SUPPORT. Tests of the model: an ill-formed command for each check of WellFormed, witnesses that meet the hypotheses of every
statement, and small steps whose expected values are worked out from the manual.
-/
namespace Sys2Proof.Tests
set_option Elab.async false
open Sys2Proof Sys2Proof.Machine Sys2Proof.Claims

/-! Small states. -/

/-- Powered and booted, the normal personality running, with these register words beside. -/
def up (l : List (Nat × Word)) : State :=
  { State.reset with
    regs := (Reg.hostLink, 0x80000000) :: l,
    power := { State.reset.power with converters := true, pwrOk := true, strapsPending := false, romBooted := true } }

/-- Powered and booted in the recovery personality, with these register words. -/
def low (l : List (Nat × Word)) : State :=
  { State.reset with
    regs := l,
    power := { State.reset.power with converters := true, pwrOk := true, strapsPending := false, romBooted := true } }

theorem test_up_open : hostOpen (up []) := ⟨by decide, by decide, by decide⟩

/-! Ill-formed commands: each check of WellFormed refuses one. -/

/-- A pass of one k-step and one output, its operands at the bottom of tile store. -/
def onePass : PassFields :=
  { semiring := 0, aFmt := 4, bFmt := 4, accFmt := 4, outFmt := 4, biasFmt := 0, strict := false, inf := false, bias := false,
    aScaled := false, bScaled := false, flagPlane := false, panelMax := false, kSteps := 1, kOrigin := 0, mExt := 1,
    nExt := 1, aRing := ⟨0, 1⟩, bRing := ⟨1, 1⟩, aSide := ⟨2, 1⟩, bSide := ⟨3, 1⟩, biasBase := 4, outBase := 5, root := false }

/-- Areas of a unit, the rings as large as tile store. -/
def areas0 : Areas := ⟨⟨0, 32768⟩, ⟨32767, 1⟩, ⟨2, 1⟩, ⟨3, 1⟩, 4, 32767, 0, 0⟩

theorem test_wf_areas : areas0.wellFormed = true ∧ ({ areas0 with a := ⟨32768, 1⟩ }).wellFormed = false ∧
    ({ areas0 with b := ⟨0, 32769⟩ }).wellFormed = false ∧ ({ areas0 with aSide := ⟨32768, 1⟩ }).wellFormed = false ∧
    ({ areas0 with bSide := ⟨0, 32769⟩ }).wellFormed = false ∧ ({ areas0 with bias := 32768 }).wellFormed = false ∧
    ({ areas0 with out := 32768 }).wellFormed = false ∧
    (Instr.unitPlacement ⟨1, 0, 0⟩ 0 0 none { areas0 with out := 32768 }).wellFormed = false := by decide +kernel

theorem test_wf_accesses : (Instr.registerWrite 0 0 3 0).wellFormed = false ∧
    (Instr.latchedLowWordRead 0 0 0).wellFormed = false ∧ (Instr.latchedHighWordRead 0 0 4097).wellFormed = false ∧
    (Instr.stageWindowWrite 0 16 0).wellFormed = false ∧
    (Instr.windowAccess 0 0 0 (.read 0)).wellFormed = false ∧ (Instr.windowAccess 0 0 0 (.read 4097)).wellFormed = false ∧
    (Instr.windowAccess 0 0 0 (.write [])).wellFormed = false ∧ (Instr.windowAccess 1 16 0 (.read 1)).wellFormed = false ∧
    (Instr.windowEnable 1 16 0).wellFormed = false ∧ (Instr.vectorUnmask 0 265).wellFormed = false ∧
    (Instr.vectorUnmask 1 256).wellFormed = false ∧ (Instr.apertureRequest none 0 0 (.read 4097)).wellFormed = false ∧
    (Instr.plotPortRequest 0 none 0 (.read 65)).wellFormed = false ∧
    (Instr.plotPortRequest 0 none (2 ^ 32) (.read 1)).wellFormed = false := by decide +kernel

/-- The octets of a lane that name a link of one lane. -/
def oneLane : LaneIlas :=
  { lane := 0, did := 0, bid := 0, lid := 0, l := 1, scr := false, f := 1, k := 32, m := 1, n := 16, np := 16, cs := 0,
    s := 1, hd := false, subclassv := 1, jesdv := 1, fchkOk := true }

theorem test_wf_lanes : oneLane.wellFormed = true ∧ ({ oneLane with did := 256 }).wellFormed = false ∧
    ({ oneLane with bid := 16 }).wellFormed = false ∧ ({ oneLane with lid := 32 }).wellFormed = false ∧
    ({ oneLane with l := 33 }).wellFormed = false ∧ ({ oneLane with f := 257 }).wellFormed = false ∧
    ({ oneLane with k := 33 }).wellFormed = false ∧ ({ oneLane with m := 257 }).wellFormed = false ∧
    ({ oneLane with n := 33 }).wellFormed = false ∧ ({ oneLane with np := 33 }).wellFormed = false ∧
    ({ oneLane with cs := 4 }).wellFormed = false ∧ ({ oneLane with s := 33 }).wellFormed = false ∧
    ({ oneLane with subclassv := 8 }).wellFormed = false ∧ ({ oneLane with jesdv := 8 }).wellFormed = false ∧
    (Instr.ilasCheck 0 [{ oneLane with k := 33 }]).wellFormed = false ∧
    (Instr.ilasCheck 0 (List.replicate 9 oneLane)).wellFormed = false ∧
    (Instr.laneRelease 0 (List.replicate 9 0)).wellFormed = false ∧
    (Instr.batchComplete 0 none [(0, 8192, 0)]).wellFormed = false := by decide +kernel

theorem test_wf_events : (Instr.linkRetrainEnd 0 .north 3 false).wellFormed = false ∧
    (Instr.twinMasksArrival 0 0 (List.replicate 7 0)).wellFormed = false ∧
    (Instr.partnerTallyArrival ⟨0, 0, 0⟩ ⟨[], [], [], [], [], List.replicate 32 0⟩).wellFormed = false ∧
    (Instr.partnerTallyArrival ⟨0, 0, 0⟩ ⟨List.replicate 32 0, [], [], [], [], []⟩).wellFormed = false ∧
    (Instr.linkSettled 0 16 false 0 0).wellFormed = false ∧ (Instr.linkSettled 7 16 false 0 0).wellFormed = false ∧
    (Instr.linkSettled 6 3 false 0 0).wellFormed = false ∧ (Instr.formationEnd [(64, 0)] false).wellFormed = false ∧
    (Instr.join [(64, 0)]).wellFormed = false ∧
    (Instr.fullLoadStart ⟨true, true, true, false, false, false, 256, []⟩).wellFormed = false ∧
    (Instr.lpddr6ReadCheck 1 0 65 .hostWindow).wellFormed = false ∧
    (Instr.memTemperatureRead [85]).wellFormed = false ∧ (Instr.challenge 0 [0]).wellFormed = false := by decide +kernel

theorem test_wf_credits (l : List Nat) (h : 1152 < l.length) : (Instr.multicastGranuleSend 0 0 0 ⟨1, 0, 0⟩ 0 l).wellFormed = false := by
  simpa [Instr.wellFormed] using h

/-! Witnesses: registers, start-up, resets and monitors. -/

theorem witness_step : ({ State.reset with pending := [.moduleRemovalInsertion true] } : State).pending =
    .moduleRemovalInsertion true :: [] ∧
    ({ State.reset with pending := [.moduleRemovalInsertion true] } : State).canonical = true ∧
    State.reset.pending = [] ∧ State.reset.mgmt.tileResetJob = none := by decide +kernel

theorem witness_step_next : ∃ t, step { State.reset with pending := [.moduleRemovalInsertion true] } = .next t := ⟨_, rfl⟩

/-- An hour's last cycle (an empty queue's tick counts it), and one that is not. -/
theorem witness_hour : ((up []).power.pwrOk = true ∧ (4499999999999 + 1) % 4500000000000 = 0) ∧
    ¬ ((up []).power.pwrOk = true ∧ (0 + 1) % 4500000000000 = 0) := by decide +kernel

theorem witness_registerWrites : (∃ s, hostOpen s) ∧ ((2 ≠ 4 ∧ 2 ≠ 8)) ∧ (4 : Nat) % 8 ≠ 0 ∧
    State.reset.power.romBooted = false ∧ (3 : Nat) ∈ [3] ∧ isNormal (low []) = false ∧
    (0x200000 ≤ 0x200000 ∧ 0x200000 < 0xF00000) ∧ (0x200000 ≤ 0xEFFFFF ∧ 0xEFFFFF < 0xF00000) := by
  refine ⟨⟨_, test_up_open⟩, ?_⟩; decide +kernel

theorem witness_wideRegisters :
    ([(0x1000008, 7#32)].find? fun e => e.1 == 0x1000008) = some (0x1000008, 7#32) ∧
    (([] : List (Nat × Word)).find? fun e => e.1 == 0x1000008) = none := by decide +kernel

/-- No supply yet. -/
def dark : Power := { State.reset.power with converters := false, pwrOk := false }

theorem witness_startUp : dark.converters = false ∧ dark.thermalLatch = false ∧
    ({ dark with thermalLatch := true } : Power).converters = false ∧ 1000 ≤ 1000 ∧ 999 < 1000 ∧
    (({ dark with converters := true } : Power).converters = true ∧ dark.pwrOk = false) ∧
    (let p : Power := { dark with pwrOk := true, strapsPending := true }; p.pwrOk = true ∧ p.strapsPending = true) ∧
    ((up []).power.pwrOk = true ∧ (up []).power.strapsPending = false) := by decide +kernel

theorem witness_supply : (up []).power.converters = true ∧ 29999 < 30000 ∧ 65000 < 65001 ∧ (37999 < 38000 ∧ 1000 ≤ 1000) ∧
    (62000 < 62001 ∧ 1000 ≤ 1000) ∧ (38000 ≤ 38000 ∧ 38000 ≤ 62000) ∧ (38000 ≤ 62000 ∧ 62000 ≤ 62000) := by decide +kernel

theorem witness_resets :
    (let s := { State.reset with power := { State.reset.power with converters := true, thermalLatch := true } }
     s.power.converters = true ∧ s.power.pwrOk = false ∧ s.power.thermalLatch = true ∧ getf s 0x800020 31 16 < 65535) ∧
    (up []).power.pwrOk = true ∧ 999 < 1000 ∧ 1000 ≤ 1000 ∧
    (let s := { up [] with cycle := 1250000, mgmt := { (up []).mgmt with softDue := some 0 } }
     s.mgmt.softDue = some 0 ∧ 0 + 1250000 ≤ s.cycle ∧ s.cfg.run = none) ∧
    (let s := { up [] with cycle := 1249999, mgmt := { (up []).mgmt with softDue := some 0 } }
     s.mgmt.softDue = some 0 ∧ s.cycle < 0 + 1250000) ∧
    (let s := { up [] with cycle := 1250000, mgmt := { (up []).mgmt with softDue := some 0 },
                           cfg := { (up []).cfg with run := some ⟨4, 0, 0, false, true, false⟩ } }
     s.mgmt.softDue = some 0 ∧ ∃ r, s.cfg.run = some r ∧ r.committing = true) := by
  refine ⟨by decide, by decide, by decide, by decide, by decide, by decide, rfl, _, rfl, rfl⟩

theorem witness_hostReset : (up []).power.pwrOk = true ∧ (getJob (up []) 3).opcode ≠ 0x60 ∧ (up []).tiles = [] ∧
    persists (up []) 5 = false ∧ persists (up [(almR 5 0x10, 0xC0000000)]) 5 = true ∧
    getf (up []) 0x130 15 0 < 65535 ∧ (1 : Fn) ≠ 0 ∧ almOwner (up [(almR 5 0x10, 0x100)]) 5 = 1 ∧
    almOwner (up []) 5 ≠ 1 := by decide +kernel

theorem witness_pins : (up []).power.pwrOk = true ∧ (up []).power.strapsPending = false ∧ 0 + 62500000 ≤ 62500000 ∧
    62499999 < 0 + 62500000 ∧ (up []).mgmt.presence = none ∧ 0 < 1 ∧ 37499999999 < 0 + 37500000000 ∧
    0 + 37500000000 ≤ 37500000000 ∧ 0 ∉ (up []).host.d3hot := by decide +kernel

theorem witness_monitors : (up []).power.pwrOk = true ∧ (114#8).toNat < 115 ∧ 115 ≤ (115#8).toNat ∧
    bitOf (up []).power.alertHold 3 = false ∧ (100 ≤ (100#8).toNat) ∧ 2200 ≤ 2200 ∧
    getf (up [(0x110, 0x69000000)]) 0x110 31 24 = 105 ∧ getf (up [(0x110, 0x66000000)]) 0x110 31 24 ≤ 102 ∧
    ({ (up []).fallow with marginMs := 9 }).marginMs = 9 ∧ (up []).fallow.marginMs < 9 ∧
    bitOf (up []).power.alertHold 0 = false := by decide +kernel

/-! Witnesses: the vector engine. -/

/-- Descriptor 0 of the first submission of almanac 1. -/
def d0 : DescRef := ⟨1, 0, 0⟩

/-- A started run. -/
def runAt (ph : RunPhase) : Run := { Run.fresh with phase := ph, startCycle := some 0, tiles := [0] }

/-- An almanac 1 with one submission of one descriptor and its run. -/
def withDesc (s : State) (x : BitVec 1024) (r : Run) : State :=
  { s with alms := [(1, { Alm.reset with subs := [⟨0, 2, 0, [], [x], [r], false, none, 2 ^ 64 - 1, 0, 2 ^ 64 - 1⟩] })] }

/-- Tile 0's vector engine, running an invocation, with these address registers' ranges. -/
def veState (v : Ve → Ve) : State :=
  { up [] with tiles := [(0, { Tile.reset with ve := v { Ve.reset with running := some (d0, 0) } })] }

theorem witness_ve : veRuns (veState id) 0 := rfl

theorem witness_ve_unchecked : (getTile (veState fun v => { v with checking := false }) 0).ve.checking = false := rfl

/-- In checking mode, with one pending write to another register. -/
theorem witness_ve_checked :
    let s := veState fun v => { v with checking := true, cyc := 3, pend := [⟨9, .v 7, List.replicate 64 0, 0, 0⟩] }
    ∀ p ∈ (veNow s 0).1.pend, p.dest ∉ [VeDest.v 1, .v 2] ∧ (some (VeDest.v 3) = some p.dest → p.due ≠ (veNow s 0).1.cyc + 4) := by
  decide +kernel

theorem witness_ve_shifts : (31#6).getLsbD 5 = false ∧ (32#6).getLsbD 5 = true ∧ (63#6).getLsbD 5 = true := by decide +kernel

theorem witness_ve_operands : num32 0x7FC00000 = .nan ∧ num32 0x7F800001 = .nan ∧ num32 0x3F800000 ≠ .nan ∧
    (1 : Nat) ≠ 0 ∧ 8 ≤ leadExp 1 8 := by decide +kernel

/-- The last granule group of an operand of eight granules, the first one outside it, and one before it. -/
theorem witness_ve_memory :
    let r : VeAddr := ⟨0, 0, 8⟩
    (r.base ≤ r.val + (4#16).toInt ∧ r.val + (4#16).toInt + 4 ≤ r.limit) ∧
    ((r.limit : Int) < r.val + (5#16).toInt + 4) ∧ (r.val + (0xFFFF#16).toInt < r.base) ∧
    (r.base ≤ r.val + sx 12 ((0x0070#16).toNat / 16) ∧ r.val + sx 12 ((0x0070#16).toNat / 16) + 1 ≤ r.limit) ∧
    (0 ∈ [0]) ∧ 0 ∉ (Ve.reset).write ∧ ((r.limit : Int) < r.val + sx 12 ((0x0080#16).toNat / 16) + 1) ∧
    num32 0x3F800000 = .fin false 0x800000 (-23) := by decide +kernel

theorem witness_ve_control : (1#16) ≠ 0 ∧ (1#9) ≠ 0 ∧
    (let s := withDesc (veState id) 0 (runAt .running)
     (getTile s 0).ve.running = some (d0, 0) ∧ (findDesc s d0).any (fun q => q.2.2.going) = true) := by decide +kernel

theorem witness_ve_conversions : 1 ≤ (1#4).toNat ∧ (10#4).toNat ≤ 10 ∧ (10#4) ≠ 2 ∧ 5 ≤ (5#4).toNat ∧ (9#4).toNat ≤ 9 ∧
    ((0#4).toNat ≤ 10 ∧ (0#4) ≠ 2) ∧ ((2#4) = 2) := by decide +kernel

/-- VEC (family 3), with one iteration. -/
theorem witness_ve_invocation :
    let s := withDesc (up []) (BitVec.ofNat 1024 3) { runAt .running with counts := [1] }
    (findDesc s d0).any (fun q => dFamily q.2.1 == 3 && q.2.2.phase == .running && q.2.2.code == 0 && !q.2.2.preempted &&
      q.2.2.tiles.contains 0 && decide (0 < iterCount q.2.2.counts)) = true ∧ (getTile s 0).ve.running = none := by decide +kernel

/-! Witnesses: the array. -/

/-- A pass whose k-steps are still to enter. -/
def waitingPass : Pass := ⟨d0, 0, onePass, 1, (0, 0), (0, 0), 0, some 0, 0, none, 0, none, 0, Summary.zero, []⟩

/-- Its unit, built for descriptor `d`. -/
def passUnit (d : DescRef) (fills : List Fill) : BuiltUnit :=
  ⟨d, 0, 0, .pass { waitingPass with owner := d, t0 := none }, fills, passOuts onePass, false⟩

/-- A context of one element, none of whose transfers has issued. -/
def emptyFill : Fill := ⟨0, ⟨0, 1⟩, ⟨2, 1⟩, false, [⟨0, 9, 16, 0, 0, 0, 0⟩], 0, [], none⟩

/-- Tile 0 serving the running descriptor 0, with these units. -/
def issueState (y : Tile → Tile) : State :=
  { withDesc (up []) 1 (runAt .running) with tiles := [(0, y { Tile.reset with threads := [(d0, 4)], units := [passUnit d0 []] })] }

/-- Tile 0 with these passes. -/
def passState (l : List Pass) (regs : List (Nat × Word)) : State := { up regs with tiles := [(0, { Tile.reset with passes := l })] }

theorem witness_passIssue :
    (let s := issueState id
     nextPass s (getTile s 0) = some (passUnit d0 []) ∧ (passUnit d0 []).pass.isSome = true ∧ (getTile s 0).preempt = false ∧
       (∀ q ∈ (getTile s 0).passes, q.tLast.isSome = true)) ∧
    nextPass (up []) (getTile (up []) 0) = none ∧
    (let s := issueState fun y => { y with preempt := true }; (getTile s 0).preempt = true) ∧
    (let s := issueState fun y => { y with passes := [waitingPass] }; ∃ q ∈ (getTile s 0).passes, q.tLast = none) ∧
    (let s := issueState fun y => { y with units := [passUnit d0 [emptyFill]] }; nextPass s (getTile s 0) = none) := by
  decide +kernel

/-- Two threads of one descriptor each, the first served last: the second goes next. -/
theorem witness_passIssue_rotation :
    let e : DescRef := ⟨1, 0, 1⟩
    let r := runAt .running
    let s := { up [] with
      alms := [(1, { Alm.reset with subs := [⟨0, 2, 0, [], [1, 1], [r, r], false, none, 2 ^ 64 - 1, 0, 2 ^ 64 - 1⟩] })]
      tiles := [(0, { Tile.reset with threads := [(d0, 4), (e, 4)], units := [passUnit d0 [], passUnit e []],
                                      lastThread := some d0 })] }
    (getTile s 0).threads.map (·.1) = [] ++ d0 :: [e] ∧ d0 ∉ ([] : List DescRef) ∧ (getTile s 0).lastThread = some d0 ∧
      (∃ f ∈ [e], ∃ v ∈ (getTile s 0).units, v.owner = f ∧ passReady s (getTile s 0) v = true) ∧
      nextPass s (getTile s 0) = some (passUnit e []) := by decide +kernel

/-- Throttled with THROTTLE LEVEL 1 in cycle 0 (a drain under way beside it); not throttled with LEVEL 0, with a first k-step
held, the bytes present, and the bytes absent. -/
theorem witness_kStepEntry :
    (let s := passState [waitingPass, { waitingPass with no := 1, drainStart := some 0, tLast := some 0 }]
       [(0x800010, 0x10000000), (tileR 0 0, 0)]
     ((getTile s 0).passes.find? fun q => q.tLast.isNone) = some waitingPass ∧ (getTile s 0).arrayNext ≤ s.cycle ∧
       s.cycle % 16 < getf s 0x800010 31 28 ∧ getf s (tileR 0 0) 31 29 ≠ 1 ∧ s.pending = [] ∧ s.mgmt.tileResetJob = none ∧
       (s.tiles.map (·.1)).Nodup) ∧
    (let q := { waitingPass with t0 := none }
     let s := passState [{ waitingPass with no := 1, tLast := some 0 }, q] []
     ((getTile s 0).passes.find? fun q => q.tLast.isNone) = some q ∧ (getTile s 0).arrayNext ≤ s.cycle ∧
       getf s 0x800010 31 28 ≤ s.cycle % 16 ∧ passHeld s (getTile s 0) q = true) ∧
    (let s := passState [waitingPass] []
     unthrottled s 0 ∧ waitingPass.t0.isSome = true ∧ stepPresent (getTile s 0) waitingPass = true ∧
       waitingPass.fields.kSteps ≠ 0 ∧ (findDesc s waitingPass.owner).isNone = true) ∧
    (let s := issueState fun y => { y with passes := [waitingPass], units := [passUnit d0 [emptyFill]] }
     stepPresent (getTile s 0) waitingPass = false ∧ (runAt .running).going = true ∧ (runAt .running).code = 0 ∧
       (findDesc s waitingPass.owner).isSome = true) := by
  refine ⟨by decide +kernel, by decide +kernel, ⟨.inl (by decide +kernel), by decide +kernel⟩, by decide +kernel⟩

theorem witness_kStepEntry_resting : resting (passState [waitingPass] [(0x800010, 0x10000000)]) :=
  ⟨by unfold still; decide +kernel, by decide +kernel⟩

theorem witness_passDrains :
    let q := { waitingPass with tLast := some 5 }
    q.tLast = some 5 ∧ q.drainStart = none ∧ 5 + 62 + passLatency q.fields + 1 + q.shift ≤ 5 + 63 + passLatency onePass ∧
    ¬ (5 + 62 + passLatency q.fields + 1 + q.shift ≤ 5 + 62 + passLatency onePass) ∧
    (getTile (passState [q] []) 0).lastDrainEnd ≤ 0 ∧ ({ q with drainStart := some 9 } : Pass).drainStart = some 9 ∧
    ¬ (0 + 1 < 0 + drainCycles { onePass with mExt := 0 } + 0) ∧
    (let s := issueState fun y => { y with passes := [{ q with drainStart := some 0 }] }
     (findDesc s q.owner).isSome = true ∧ (runAt .running).going = true) := by
  decide +kernel

theorem witness_preemption : d0.alm ≠ 0 ∧ (⟨0, 0, 0⟩ : DescRef).alm = 0 ∧
    (findDesc (withDesc (up []) 0 (runAt .running)) d0).isSome = true ∧ (runAt .running).phase = .running ∧
    (runAt .running).preempted = false ∧ 0 ∈ (runAt .running).tiles ∧
    ({ runAt .running with preempted := true } : Run).barReleased = false := by decide +kernel

/-! Witnesses: almanacs and descriptors. -/

/-- Almanac 1 enabled with a ring of 16 slots and handle 9, TAIL 2. -/
def almUp (l : List (Nat × Word)) : State :=
  { up ([(almR 1 0x10, 0x80040000), (almR 1 0x14, 9), (almR 1 0x0C, 2)] ++ l) with
    handles := [⟨9, 4096, 0, 0, 0xFFFF, 0, 0, 0, none, []⟩] }

theorem witness_almDoorbell : getb (almUp []) (almR 1 0x10) 31 = true ∧ getb (up []) (almR 1 0x10) 31 = false ∧
    ((16#32) - getReg (almUp []) (almR 1 0x0C)).toNat ≤
      2 ^ getf (almUp []) (almR 1 0x10) 20 16 - (getReg (almUp []) (almR 1 0x0C) - getReg (almUp []) (almR 1 0x08)).toNat ∧
    (16#32) ≠ getReg (almUp []) (almR 1 0x0C) ∧
    2 ^ getf (almUp []) (almR 1 0x10) 20 16 - (getReg (almUp []) (almR 1 0x0C) - getReg (almUp []) (almR 1 0x08)).toNat <
      ((17#32) - getReg (almUp []) (almR 1 0x0C)).toNat ∧
    almOwner (almUp []) 1 = 0 ∧ almOwner (almUp []) 1 ≠ 3 := by decide +kernel

theorem witness_almEnable : (1 : AlmIx) ≠ 0 ∧ 4 ≤ fld (0x80040000#32).toNat 20 16 ∧ fld (0x80100000#32).toNat 20 16 ≤ 16 ∧
    fld (0x80040000#32).toNat 12 8 ≤ 16 ∧ (0x80040000#32).getLsbD 31 = true ∧ (0x00040000#32).getLsbD 31 = false ∧
    (openHandle { almUp [] with regs := [(almR 1 0x14, 9)] } 0 9).isSome = true ∧ 128 * 2 ^ 4 ≤ 4096 ∧
    openHandle { almUp [] with regs := [(almR 1 0x14, 7)] } 0 7 = none := by decide +kernel

theorem witness_almControl : getb (up []) (almR 1 0x10) 31 = false ∧
    ((getAlm (up []) 1).subs.any fun sb => sb.runs.any Run.going) = false ∧
    (3, (up []).cycle) ∉ (getAlm (up []) 1).countCommits ∧
    (3, 0) ∈ ({ Alm.reset with countCommits := [(2, 0), (3, 0)] } : Alm).countCommits := by decide +kernel

theorem witness_submissionRead : getb (almUp []) (almR 1 0x10) 31 = true ∧ getf (almUp []) 0x600008 63 61 ≤ 2 ∧
    (getAlm (almUp []) 1).halted = false ∧
    ((getReg (almUp []) (almR 1 0x0C)).toNat + 2 ^ 32 - (getAlm (almUp []) 1).next) % 2 ^ 32 = 2 ∧
    1 + ceilDiv (hViews 0) 4 + hDescs 0 ≤ 2 ∧ ringSlot (almUp []) 1 0 = 0 ∧
    (validate (almUp []) (readCand (almUp []) 1 0)).isSome = true ∧
    2 ^ 4 < 1 + ceilDiv (hViews (BitVec.ofNat 1024 (16 * 2 ^ 32))) 4 + hDescs (BitVec.ofNat 1024 (16 * 2 ^ 32)) ∧
    ({ Alm.reset with halted := true } : Alm).halted = true := by decide +kernel

/-- A byte of the buffer of handle 9. -/
def at9 (i : Nat) : Nat := 9 * 2 ^ 44 + i

/-- Almanac 1 with one submission in its ring: a header of one descriptor, and a FENCE of module scope. -/
def withFence (l : List (Nat × Word)) : State :=
  { almUp l with
    mem := [(at9 0, 1), (at9 4, 1), (at9 8, 0xFF), (at9 9, 0xFF), (at9 10, 0xFF), (at9 11, 0xFF), (at9 128, 7), (at9 130, 1),
      (at9 164, 0xFF), (at9 165, 0xFF), (at9 166, 0xFF), (at9 167, 0xFF)] }

/-- The FENCE of that ring. -/
def fenceDesc : BitVec 1024 := BitVec.ofNat 1024 (7 + 2 ^ 16 + (2 ^ 32 - 1) * 2 ^ 288)

theorem test_fence_ring : ringSlot (withFence []) 1 1 = fenceDesc ∧
    hDescs (ringSlot (withFence []) 1 0) = 1 ∧ hViews (ringSlot (withFence []) 1 0) = 0 ∧ Memory.wf (withFence []).mem = true := by
  decide +kernel

theorem witness_submission_accepted : validate (withFence []) (readCand (withFence []) 1 0) = none ∧
    1 + ceilDiv (hViews (ringSlot (withFence []) 1 0)) 4 + hDescs (ringSlot (withFence []) 1 0) ≤ 2 := by decide +kernel

/-- That submission taken, its descriptor in a phase. -/
def fenceAt (r : Run) : State := withDesc (withFence []) fenceDesc r

theorem witness_descriptorStart :
    let s := fenceAt { Run.fresh with ready := some 0 }
    ((findDesc s d0).any fun q => q.2.2.phase == .waiting && q.2.2.ready.isSome && q.2.2.code == 0 &&
      !takesThread fenceDesc && (swapChoice s q.1 fenceDesc).isEmpty && ringSlot s 1 (descSlot q.1 0) == fenceDesc &&
      ringSlot (withDesc (almUp []) fenceDesc Run.fresh) 1 (descSlot q.1 0) != fenceDesc) = true := by decide +kernel

theorem witness_descriptorStart_counts : dWaits fenceDesc = 0 ∧ dTransit fenceDesc = 0 ∧ dLoop fenceDesc = false ∧
    twinHolds (fenceAt Run.fresh) 1 = false ∧ countsExceed fenceDesc (fun _ => 0) = false ∧
    countsExceed (BitVec.ofNat 1024 (1 + 2 ^ 351 + 5 * 2 ^ 328)) (fun _ => 6) = true ∧
    (runAt .running).phase ≠ .waiting ∧ Run.fresh.ready = none := by decide +kernel

/-- An MMA of two blocks of rows with PIN and SPREAD 2 on group 1. -/
def placeDesc : BitVec 1024 :=
  BitVec.ofNat 1024 (1 + 2 ^ 10 + 2 * 2 ^ 16 + 2 ^ 464 + 0xFFFF * 2 ^ 496 + 64 * 2 ^ 896 + 2 ^ 928 + 2 ^ 960 + 2 ^ 992)

/-- Group 1 with tiles 0 and 1; the MMA runs on tile 0 with SPREAD as given. -/
def placeState (r : Run) : State :=
  { withDesc (up [(tileR 0 0, 0), (tileR 1 0, 0), (groupR 1, 0x80000002)]) placeDesc r with
    groupTiles := [(1, [0, 1])] }

/-- Areas for one row of FP64 panels. -/
def smallAreas : Areas := ⟨⟨0, 4⟩, ⟨4, 4⟩, ⟨8, 1⟩, ⟨9, 1⟩, 10, 16, 0, 0⟩

theorem witness_placement :
    let r := { runAt .running with counts := [1, 1, 1, 1] }
    let s := placeState r
    (findDesc s d0).any (fun q => unitCounts s q.1 placeDesc q.2.2 == some r.counts && takesThread placeDesc &&
      decide (1 < unitCount s q.1 placeDesc r.counts) && q.2.2.unitsPlaced.isEmpty && q.2.2.tiles == [0] &&
      decide (q.2.2.tiles.length + (fieldsOf s d0).length < tileLimit s q.1 placeDesc r.counts) &&
      !fieldOnly s q.1 placeDesc 1 && (preferredTiles s q.1 placeDesc q.2.2.tiles).contains 1) = true := by decide +kernel

theorem witness_placement_areas :
    let r := { runAt .running with counts := [1, 1, 1, 1] }
    let s := placeState r
    (findDesc s d0).any (fun q =>
      let w := fun a => buildUnit s (runViews q.1 placeDesc { q.2.2 with counts := r.counts }) d0 placeDesc r.counts 1 0 a
      areasFit s (w smallAreas) && !areasFit s (w { smallAreas with b := ⟨2, 4⟩ }) &&
      (w smallAreas).pass.any fun p => passOk p.fields) = true := by decide +kernel

/-- A descriptor with no register count waits; its inputs are sealed and in a memory handle. -/
theorem witness_runAhead :
    let r := { Run.fresh with tiles := [0] }
    let s := { placeState r with
      handles := [⟨9, 65536, 0, 2, 0xFFFF, 0, 0, 0, none, []⟩]
      alms := [(1, { Alm.reset with subs := [⟨0, 2, 0, [BitVec.ofNat 256 (9 + 2 ^ 40)], [placeDesc], [r], false, none, 0, 0, 0⟩] })] }
    (findDesc s d0).any (fun q => q.2.2.phase == .waiting && q.2.2.runAhead.isEmpty && (findHandle s 9).any (·.kind == 0) &&
      (q.1.views.any fun v => vSealed v && vHandle v == 9) && (usesOf placeDesc (maxCounts placeDesc)).any (fun v => !v.role.isOut && v.slot == 0) &&
      (unitCounts s q.1 placeDesc q.2.2).isSome) = true := by decide +kernel

theorem witness_commits : (runAt .computed).phase = .computed ∧ (runAt .computed).code = 0 ∧
    (runAt .computed).preempted = false ∧ isTwinned (up []) 1 = false ∧ ({ runAt .running with code := 0x0502 } : Run).code ≠ 0 ∧
    dFamily (BitVec.ofNat 1024 6) = 6 ∧ dSignals (BitVec.ofNat 1024 (2 ^ 29)) = 1 ∧
    (findDesc (fenceAt (runAt .computed)) d0).isSome = true := by decide +kernel

theorem witness_restart : (runAt .running).restarts < 3 ∧ 3 ≤ ({ runAt .running with restarts := 3 } : Run).restarts ∧
    (0x0502#16) ≠ 0 ∧ (0x0502#16) ≠ 0x0F01 ∧ (0x0502#16) ≠ 0x0F03 ∧
    (findDesc (fenceAt (runAt .running)) d0).any (fun q => ringSlot (fenceAt (runAt .running)) 1 (descSlot q.1 0) == fenceDesc) = true ∧
    (findHandle (fenceAt (runAt .running)) (getReg (fenceAt (runAt .running)) (almR 1 0x14)).toNat).any (·.kind == 0) = true := by
  decide +kernel

/-- A running descriptor whose loops run no iteration: its work touches nothing. -/
def emptyBody (x : BitVec 1024) : State := withDesc (up []) x { runAt .running with counts := [0, 1, 1, 1] }

/-- `bodyDue` for a state of `withDesc`. -/
def due (s : State) : Bool := (findDesc s d0).any fun q =>
  q.2.2.phase == .running && q.2.2.code == 0 && !q.2.2.preempted && !portHolds s d0

/-- `workGood` for a work. -/
def good (s : State) (w : Work) : Bool := accessFailure s w.touched == none && badAccess s w == none && w.failure == none

theorem witness_bodies :
    let c := [0, 1, 1, 1]
    let views := fun (x : BitVec 1024) => (findDesc (emptyBody x) d0).map fun q => runViews q.1 x q.2.2
    let f := fun n v => BitVec.ofNat 1024 (n + 16 * v)
    (due (emptyBody (f 1 0)) && (views (f 1 0)).any fun v => good (emptyBody (f 1 0)) (bodyMma (emptyBody (f 1 0)) v (f 1 0) c)) = true ∧
    (due (emptyBody (f 2 0)) && (views (f 2 0)).any fun v => good (emptyBody (f 2 0)) (bodyFold (emptyBody (f 2 0)) v (f 2 0) c).1) = true ∧
    (due (emptyBody (f 4 1)) && (views (f 4 1)).any fun v => good (emptyBody (f 4 1)) (bodyMove (emptyBody (f 4 1)) v (f 4 1) c)) = true ∧
    (due (emptyBody (f 5 2)) && (views (f 5 2)).any fun v => good (emptyBody (f 5 2)) (bodyReduce (emptyBody (f 5 2)) v (f 5 2) c)) = true ∧
    (due (emptyBody (f 10 0)) && (views (f 10 0)).any fun v =>
      good (emptyBody (f 10 0)) (bodyTally (emptyBody (f 10 0)) v (f 10 0) c).1) = true := by decide +kernel

theorem witness_vec_and_count :
    let f := fun n v => BitVec.ofNat 1024 (n + 16 * v)
    (due (emptyBody (f 3 0)) && (findDesc (emptyBody (f 3 0)) d0).any fun q =>
      let w := bodyVec (emptyBody (f 3 0)) (runViews q.1 (f 3 0) q.2.2) (f 3 0) [0, 1, 1, 1] d0 fun _ => false
      good (emptyBody (f 3 0)) w.1 && w.2 == none) = true ∧
    (due (emptyBody (f 6 0)) && (findDesc (emptyBody (f 6 0)) d0).any fun q =>
      let w := bodyCount (emptyBody (f 6 0)) (runViews q.1 (f 6 0) q.2.2) (f 6 0) [1, 1, 1, 1]
      good (emptyBody (f 6 0)) w && w.writes.isEmpty) = true := by decide +kernel

theorem witness_fence :
    due (fenceAt (runAt .running)) = true ∧ isTwinned (up []) 1 = false ∧ dFamily (BitVec.ofNat 1024 9) = 9 ∧
    fld (dFw fenceDesc 0) 0 0 = 0 ∧ (runAt .running).fenceIssued = none ∧
    fenceTargets (up []) = [] ∧ fld (dFw (BitVec.ofNat 1024 (7 + 2 ^ 480)) 0) 0 0 = 1 ∧
    fenceTargets { up [] with pool := { (up []).pool with written := [(3, 1)] } } = [3] ∧
    3 ∈ ({ runAt .running with fencePending := [3, 4] } : Run).fencePending := by decide +kernel


/-! Witnesses: synchronisation. -/

/-- Barrier object 3 on module 5: two modules, HOME 5, four participants. -/
def barCfg : Word := 0x82140004

/-- Module 5 with object 3 configured so, and this inner state. -/
def barState (cfg : Word) (x : Bar) : State := { up [(Reg.straps, 5), (barCfgR 3, cfg)] with bars := [(3, x)] }

theorem witness_barrierObjects :
    let s := barState barCfg Bar.reset
    let away := barState 0x82180004 ⟨1, 0, 3, [], [], []⟩
    getb (up []) (barCfgR 3) 31 = false ∧ fld (0xC0010000#32).toNat 30 24 ≤ 64 ∧ fld (0xC0010000#32).toNat 16 0 ≤ 65536 ∧
    ¬ ((0xC0010000#32).getLsbD 31 = true ∧ fld (0xC0010000#32).toNat 23 18 = ownId s ∧ fld (0xC0010000#32).toNat 30 24 = 0) ∧
    getb s (barCfgR 3) 31 = true ∧ (0x02140004#32).getLsbD 31 = false ∧ (2#32).getLsbD 0 = false ∧ barOn s 3 = true ∧
    barOn (up []) 3 = false ∧ (getBar s 3).held = [] ∧ (getBar s 3).phase < (getBar s 3).released + 2 ∧
    (getBar s 3).count + 1 ≠ getf s (barCfgR 3) 16 0 ∧
    ((getBar away 3).phase < (getBar away 3).released + 2 ∧ (getBar away 3).count + 1 = getf away (barCfgR 3) 16 0 ∧
      barHome away 3 ≠ ownId away) ∧
    ((4#6).toNat ≠ ownId s ∧ barHome s 3 = ownId s ∧
      ((getBar s 3).arrivals.filter fun p => p.2 == true).length + 1 < getf s (barCfgR 3) 30 24) := by decide +kernel

theorem witness_barrierRelease :
    let s := barState barCfg ⟨1, 0, 0, [], [], []⟩
    let w := { withDesc (barState barCfg ⟨1, 0, 0, [(d0, 0)], [], []⟩) (BitVec.ofNat 1024 8) (runAt .running) with bars := [(3, ⟨1, 0, 0, [(d0, 0)], [], []⟩)] }
    getb s (barCfgR 3) 31 = true ∧ (getBar s 3).waiters = [] ∧ (getBar s 3).released < (getBar s 3).phase ∧
    false = decide ((getBar s 3).released % 2 = 1) ∧ true ≠ decide ((getBar s 3).released % 2 = 1) ∧
    (getBar w 3).waiters = [(d0, (getBar w 3).released)] ∧ (getBar w 3).held = [] ∧ isTwinned w 1 = false ∧
    ((findDesc w d0).any fun q => q.2.2.phase == .running && q.2.2.code == 0 && !q.2.2.preempted) = true := by decide +kernel

/-- Descriptor 0 a BARRIER of this variant on object 3. -/
def barDesc (v : Nat) : BitVec 1024 := BitVec.ofNat 1024 (8 + 16 * v + 3 * 2 ^ 480)

/-- An arrive that was counted in phase 0, and the wait on it. -/
def barPair (x : Bar) : State :=
  let s := barState barCfg x
  let arrived := { Run.fresh with phase := .finished, barPhase := some 0 }
  { s with alms := [(1, { Alm.reset with subs := [⟨0, 3, 0, [], [barDesc 1, BitVec.ofNat 1024 (8 + 32 + 2 ^ 32 + 3 * 2 ^ 480)],
    [arrived, runAt .running], false, none, 2 ^ 64 - 1, 0, 2 ^ 64 - 1⟩] })] }

theorem witness_barrierDescriptors :
    let s := withDesc (barState barCfg Bar.reset) (barDesc 0) (runAt .running)
    let full := barState barCfg ⟨2, 0, 0, [], [], []⟩
    let one := barPair ⟨0, 0, 1, [], [], []⟩
    let two := barPair ⟨1, 1, 0, [], [], []⟩
    ((findDesc s d0).any fun q => dFamily q.2.1 == 8 && dVariant q.2.1 == 0 && fld (dFw q.2.1 0) 7 0 == 3 &&
      q.2.2.phase == .running && q.2.2.code == 0 && !q.2.2.preempted && q.2.2.barPhase.isNone && !q.2.2.barHeld) = true ∧
    isTwinned s 1 = false ∧ barOn s 3 = true ∧ barOn (up []) 3 = false ∧ dVariant (barDesc 1) = 1 ∧
    (getBar full 3).released + 2 ≤ (getBar full 3).phase ∧ (getBar s 3).phase < (getBar s 3).released + 2 ∧
    (getBar s 3).count + 1 ≠ getf s (barCfgR 3) 16 0 ∧
    ((findDesc one ⟨1, 0, 1⟩).any fun q => dVariant q.2.1 == 2 &&
      (q.1.runs[1 - dPred q.2.1 0]?).any fun p => p.barPhase == some 0) = true ∧
    (getBar one 3).released ≤ 0 ∧ 0 < (getBar two 3).released := by decide +kernel

theorem witness_flagUpdates :
    let s := up [(flagRangeR 2, 0x00200010)]
    flagInRange s 2 0x10 = true ∧ flagInRange s 2 0x20 = true ∧ flagInRange s 2 0x0F = false ∧
    flagInRange s 2 0x21 = false ∧ flagInRange s 0 0xFFFF = true ∧ addedNow s 0x10 = none ∧
    addedNow { s with flagAdds := [(0x10, 4)] } 0x10 = some 4 ∧ s.flagAdds = [] ∧ (1#32) ≠ 0 := by decide +kernel

/-- A wait of flag 7 for 5, in almanac 1. -/
def waitDesc : BitVec 1024 := BitVec.ofNat 1024 (1 + 2 ^ 27 + 7 * 2 ^ 64 + 5 * 2 ^ 96)

theorem witness_wakes :
    let s := withDesc (up [(flagR 7, 5)]) waitDesc { Run.fresh with armed := true, reg0 := true, wait0 := some 0 }
    let u := withDesc (up [(flagR 7, 5)]) waitDesc { Run.fresh with armed := true }
    ((findDesc s d0).any fun q => q.2.2.phase == .waiting && decide (0 < dWaits q.2.1) && !q.2.2.woke.contains 0 &&
      q.2.2.held 0 && q.2.2.heldAt 0 == some 0 && decide (0 < ({ s with cycle := 1 } : State).cycle) && q.2.2.regd 0 && dWaitFlag q.2.1 0 == 7) = true ∧
    waitMet 5 (dWaitTarget waitDesc 0) = true ∧ waitMet 4 (dWaitTarget waitDesc 0) = false ∧
    ((findDesc u d0).any fun q => q.2.2.armed && !q.2.2.regd 0 && !q.2.2.held 0 && decide (unitWaits u (flagUnit 7) < unitCapacity)) = true ∧
    waitMet (flagVal u 7) (dWaitTarget waitDesc 0) = true := by decide +kernel

theorem witness_stalls :
    let s := { withDesc (up []) waitDesc { Run.fresh with armed := true, predsMet := true } with cycle := 1280 }
    getf s (almR 1 0x10) 25 21 ≠ 31 ∧ 1280 * 2 ^ min 26 (getf s (almR 1 0x10) 25 21) ≤ s.cycle ∧
    ¬ ({ s with cycle := 1279 } : State).cycle ≥ 1280 ∧ getf (up [(almR 1 0x10, 0x03E00000)]) (almR 1 0x10) 25 21 = 31 ∧
    ((findDesc s d0).any fun q => stallRuns q.2.2 q.2.1 && !q.2.2.stallReported && q.2.2.stallElapsed == 0 && q.2.2.stallFrom == 0) = true ∧
    getb s (almR 1 0x20) 4 = false ∧ getb (up [(almR 1 0x20, 0x10)]) (almR 1 0x20) 4 = true := by decide +kernel

/-- Twin mode on, almanac 1 twinned, its partner module 9, this TWIN_STATUS. -/
def twinUp (st : Word) : State := up [(Reg.straps, 5), (Reg.twinCtrl, 0x80090000), (Reg.twinStatus, st), (0x609010, 2)]

/-- A tally of one byte. -/
def oneTally (b : Byte) : TallyParts := ⟨[b], [], [], [], [], []⟩

/-- A descriptor that waits for its partner's tally since cycle 0. -/
def twinRun : Run := { runAt .computed with parts := some (oneTally 1), twinSent := some 0 }

theorem witness_twin :
    let s := withDesc (twinUp 0x80000000) 0 twinRun
    getb (up []) Reg.twinCtrl 31 = false ∧ (0x80090000#32).getLsbD 31 = true ∧ (up []).pool.twinHeard = [] ∧ ([2#32, 0, 0, 0, 0, 0, 0, 0] : List Word) ≠ [] ∧
    getb (twinUp 0x40000000) Reg.twinCtrl 31 = true ∧ (0x00090000#32).getLsbD 31 = false ∧
    twinState (twinUp 0x40000000) = 1 ∧ (9#6).toNat = twinPartner (twinUp 0x40000000) ∧
    ((5#6).toNat = ownId s ∧ ([2#32, 0, 0, 0, 0, 0, 0, 0] : List Word).map (·.toNat) = twinMaskRegs s) ∧
    ([3#32, 0, 0, 0, 0, 0, 0, 0] : List Word).map (·.toNat) ≠ twinMaskRegs s ∧
    ((findDesc s d0).any fun q => q.2.2.parts == some (oneTally 1) && q.2.2.phase == .computed && q.2.2.code == 0 &&
      !q.2.2.preempted && q.2.2.twinSent == some 0 && !q.2.2.twinOk) = true ∧
    get64 s Reg.twinCompared + 1 < 2 ^ 64 ∧ (oneTally 1).tally ≠ (oneTally 2).tally ∧ twinState s ≠ 3 ∧
    isTwinned s 1 = true ∧ 0 + timeoutCycles (getf s Reg.twinCtrl 4 0) ≤ ({ s with cycle := 1280 } : State).cycle := by
  decide +kernel

/-! Witnesses: streams, placement and groups. -/

/-- Two 4 KiB buffers, 9 and 10, and the registers of an arming of one row of 64 bytes from 9 to 10, record in buffer 9,
contexts 0 to 3 of tile 0 reserved. -/
def armUp (stm : List (Nat × StmCtx)) : State :=
  { up [(tileR 0 0, 0), (tileR 0 0x404, 4), (tileR 0 0x410, 9), (tileR 0 0x414, 10), (tileR 0 0x438, 64), (tileR 0 0x43C, 1)] with
    handles := [⟨9, 4096, 0, 0, 0xFFFF, 0, 0, 0, none, []⟩, ⟨10, 4096, 0, 0, 0xFFFF, 0, 0, 0, none, []⟩]
    tiles := [(0, { Tile.reset with stm := stm })] }

/-- The staged arming of those registers, and its start. -/
def arming0 : Arming := let a := stagedArming (armUp []) 0 false; { a with issued := armFirst a }

theorem witness_arm_new : directOf (armUp []) 0 = 4 ∧ getf (armUp []) (tileR 0 0x408) 5 0 = 0 ∧
    armingOk (armUp []) (stagedArming (armUp []) 0 false) = true ∧ armingOk (up []) (stagedArming (up []) 0 false) = false ∧
    ctxOf (armUp []) 0 0 = ⟨none, none, 0, none⟩ ∧ armIssued { arming0 with seq := 1 } = false ∧
    directOf (up []) 0 ≤ 0 ∧ 2 ≤ (2#32).toNat := by decide +kernel

theorem witness_arm_busy :
    let one := armUp [(0, ⟨some arming0, none, 1, none⟩)]
    let two := armUp [(0, ⟨some arming0, some arming0, 2, none⟩)]
    (ctxOf one 0 0).shadow = none ∧ (ctxOf one 0 0).active = some arming0 ∧ arming0.ended = false ∧
    armingOk one (stagedArming one 0 true) = true ∧ 0 < directOf one 0 ∧ (ctxOf two 0 0).active.isSome = true ∧
    (ctxOf two 0 0).shadow.isSome = true ∧ armingOk two (stagedArming two 0 false) = true ∧
    (let alone := armUp [(0, ⟨none, some { arming0 with recHandle := 9 }, 2, none⟩)]
     (ctxOf alone 0 0).active = none ∧ (ctxOf alone 0 0).shadow.isSome = true ∧
       (findHandle alone 9).any (fun h => h.kind == 0 && decide (32 * arming0.recIndex + 32 ≤ h.size)) = true) := by decide +kernel

theorem witness_direct :
    let one := armUp [(3, ⟨some arming0, none, 1, none⟩)]
    (64#32).toNat % 128 = 64 ∧ 64 < (65#32).toNat % 128 ∧ directFree (armUp []) 0 64 = true ∧
    directFree one 0 0 = false ∧ directFree one 0 4 = true ∧
    ({ Tile.reset with directWanted := some 64 } : Tile).directWanted = some 64 := by decide +kernel

theorem witness_granuleIssue :
    let s := { armUp [(0, ⟨some { arming0 with seq := 1 }, none, 1, none⟩)] with cycle := 5 }
    let y := getTile s 0
    y.issueCycle ≠ some s.cycle ∧ outstandingOf s 0 < 8 ∧ readyCarriers s 0 = [(3, .direct 0)] ∧
    (y.getCtx 0).active = some { arming0 with seq := 1 } ∧ arming0.issued = some 0 ∧
    (findHandle s arming0.src).any (fun h => (otherHome s h (armSrc arming0 0) 0).isNone) = true ∧
    readyCarriers { s with tiles := [(0, { Tile.reset with stm := [(0, ⟨some { arming0 with loop := true }, none, 1, none⟩)] })] } 0 =
      [(0, .direct 0)] ∧
    readyCarriers (armUp []) 0 = [] ∧ ({ y with issueCycle := some 5 } : Tile).issueCycle = some s.cycle ∧
    8 ≤ outstandingOf (armUp [(0, ⟨some { arming0 with outstanding := [0, 1, 2, 3, 4, 5, 6, 7] }, none, 1, none⟩)]) 0 := by
  decide +kernel

/-- The lowest class first; a class that has waited 256 cycles, or none of them so long, before it. -/
theorem witness_servedClass : servedClass 300 [(3, 44), (1, 45)] [(0, .direct 0), (3, .direct 1), (1, .direct 2)] = some 3 ∧
    servedClass 299 [(3, 44)] [(0, .direct 0), (3, .direct 1)] = some 0 ∧ (∀ w ∈ [((3 : Nat), (44 : Nat))], 299 < w.2 + 256) := by
  decide +kernel

theorem witness_granuleArrival :
    let a := { arming0 with outstanding := [0], issued := none }
    let s := armUp [(0, ⟨some a, none, 1, none⟩)]
    let lost := { s with handles := [⟨9, 4096, 0, 0, 0xFFFF, 0, 0, 0, none, [0]⟩, ⟨10, 4096, 0, 0, 0xFFFF, 0, 0, 0, none, []⟩] }
    onTheWay s 0 (.direct 0) 0 none = false ∧ (findHandle s a.src).isSome = true ∧ (findHandle s a.dst).isSome = true ∧ 0 ∈ a.outstanding ∧ 1 ∉ a.outstanding ∧
    ((findHandle s a.src).any fun h => h.kind == 0 && !rangeLost h (armSrc a 0) (armSrc a 0 + armLen a 0 - 1) &&
      (badGranule s h.id (armSrc a 0) (armLen a 0)).isNone) = true ∧
    ((findHandle s a.dst).any fun g => g.kind == 0 && !rangeLost g (armDst a 0) (armDst a 0 + armLen a 0 - 1) &&
      (badPart s g (armDst a 0) (armLen a 0)).isNone) = true ∧ a.ended = false ∧
    ((findHandle lost a.src).any fun h => rangeLost h (armSrc a 0) (armSrc a 0 + armLen a 0 - 1)) = true ∧
    (let b := { s with lpddr := { s.lpddr with badGranules := [(9, 0)] } }
     (badGranule b 9 (armSrc a 0) (armLen a 0)).isSome = true) := by
  decide +kernel

/-- A unit of descriptor 0 on tile 0 with one context of two elements of buffer 9, the first transfer under way. -/
def seqFill : Fill :=
  { emptyFill with places := [⟨0, 9, 16, 0, 0, 0, 0⟩, ⟨0, 9, 16, 64, 16, 0, 0⟩], issued := 1, outstanding := [0] }

/-- Tile 0 with that unit; its descriptor in this phase. -/
def seqState (ph : RunPhase) (ahead : List (Nat × Nat)) (f : Fill) (bad : List (Nat × Nat)) : State :=
  { withDesc (armUp []) 1 { runAt ph with runAhead := ahead } with
    tiles := [(0, { Tile.reset with threads := [(d0, 4)], units := [passUnit d0 [f]], built := 1 })]
    lpddr := { State.reset.lpddr with badGranules := bad } }

theorem witness_sequencer :
    let s := seqState .running [] seqFill []
    readyCarriers s 0 = [(1, .fill 0 0)] ∧ readyCarriers (seqState .waiting [] seqFill []) 0 = [] ∧
    fillOf (getTile s 0) 0 0 = some (passUnit d0 [seqFill], seqFill) ∧ (transfersOf seqFill.places)[0]? = some (0, 0) ∧
    (transfersOf seqFill.places)[1]? = some (0, 2) ∧ seqFill.remote = none ∧ onTheWay s 0 (.fill 0 0) 0 none = false ∧
    0 ∈ seqFill.outstanding ∧ 1 ∉ seqFill.outstanding ∧ (∀ p ∈ seqFill.places, fromWindow s p.handle = false) ∧
    readFails s (seqFill.places.map Place.elem) = none ∧ (passUnit d0 [seqFill]).work ≠ .other ∧
    (readFails (seqState .running [] seqFill [(9, 0)]) (seqFill.places.map Place.elem)).isSome = true ∧
    (runAt .running).going = true := by decide +kernel

/-- The run-ahead of a sealed handle: class 3 ahead of the start. -/
theorem witness_sequencer_ahead :
    let s := seqState .waiting [(0, 0)] seqFill []
    let s := { s with alms := [(1, { Alm.reset with subs := [⟨0, 2, 0, [BitVec.ofNat 256 (9 + 2 ^ 40)], [1],
      [{ runAt .waiting with runAhead := [(0, 0)] }], false, none, 0, 0, 0⟩] })] }
    readyCarriers s 0 = [(3, .fill 0 0)] := by decide +kernel

/-- A window handle's elements wait for the older ones; an output area's last granule. -/
theorem witness_sequencer_window :
    let f := { seqFill with issued := 2, outstanding := [0, 1] }
    let s := { seqState .running [] f [] with handles := [⟨9, 4096, 1, 0, 0xFFFF, 0, 0, 0, none, []⟩] }
    fromWindow s 9 = true ∧ f.outstanding.head? ≠ some 1 ∧
    (let o : OutArea := ⟨d0, 0, 2, 5, 4, 4, [3]⟩
     o.outstanding = [o.count - 1] ∧ o.issued = o.count ∧ 0 < o.count ∧
       onTheWay s 0 (.out o.no (BitVec.ofNat 3 o.slot).toNat) (o.count - 1) none = false) := by decide +kernel

theorem witness_armingDone :
    let a := { arming0 with issued := none, recHandle := 9, recIndex := 127 }
    let s := armUp [(0, ⟨some a, none, 1, none⟩)]
    (ctxOf s 0 0).active = some a ∧ a.outstanding = [] ∧ armIssued a = true ∧ (ctxOf s 0 0).shadow = none ∧
    ((findHandle s a.recHandle).any fun h => h.kind == 0 && decide (32 * a.recIndex + 32 ≤ h.size)) = true ∧ a.code = 0 ∧
    ({ a with code := 0x0403 } : Arming).code ≠ 0 ∧ arming0.recHandle = 0 ∧ armIssued arming0 = false := by decide +kernel

theorem witness_shadow :
    let s := { armUp [(0, ⟨none, some arming0, 1, none⟩)] with cycle := 1 }
    (ctxOf s 0 0).shadow = some arming0 ∧ (ctxOf s 0 0).active = none ∧ (ctxOf s 0 0).recordCycle.getD 0 < s.cycle ∧
    armIssued arming0 = false := by decide +kernel

theorem witness_arm_nothing :
    let s := up [(tileR 0 0, 0), (tileR 0 0x404, 4), (tileR 0 0x410, 9), (tileR 0 0x414, 10)]
    let s := { s with handles := (armUp []).handles }
    let a := { stagedArming s 0 false with seq := 1, issued := armFirst (stagedArming s 0 false) }
    armingOk s (stagedArming s 0 false) = true ∧ armIssued a = true ∧ findHandle s a.recHandle = none ∧
    ctxOf s 0 0 = ⟨none, none, 0, none⟩ ∧ 0 < directOf s 0 ∧
    (let u := { armUp [(0, ⟨none, some { arming0 with rows := 0, issued := none }, 1, none⟩)] with cycle := 1 }
     (ctxOf u 0 0).active = none ∧ armIssued { arming0 with rows := 0, issued := none } = true ∧ arming0.code = 0 ∧
     findHandle u arming0.recHandle = none) := by decide +kernel

theorem witness_group_refused : (0#8) = 0 ∧ 1024 < fld (0x80000401#32).toNat 10 0 ∧
    512 < loopTotal (up []) 3 (0xC0000201#32).toNat ∧ fld (0x80000400#32).toNat 10 0 ≤ 1024 ∧
    loopTotal (up []) 3 (0xC0000200#32).toNat ≤ 512 := by decide +kernel

/-- Descriptor 0 names group 3. -/
def group3 (w : Word) (held : List (Nat × Nat)) : State :=
  { withDesc (up [(tileR 0 0, 0), (groupR 3, w)]) (BitVec.ofNat 1024 (3 * 2 ^ 464)) (runAt .running) with groupHeld := held }

theorem witness_group_write : groupNamed (group3 0 []) 3 = true ∧ groupNamed (up []) 3 = false ∧
    (0x80000001#32).getLsbD 31 = true ∧ getb (up []) (groupR 3) 31 = false ∧ (0xC0000001#32).getLsbD 30 = true ∧
    (0x00000001#32).getLsbD 31 = false ∧ loopGroup (up [(groupR 3, 0xC0000001)]) 3 = true := by decide +kernel

theorem witness_group_held :
    let s := { up [(tileR 0 0, 0)] with groupHeld := [(3, 0x80000000)] }
    (s.groupHeld.find? fun p => p.1 == 3) = some (3, (0x80000000#32).toNat) ∧ groupNamed s 3 = false ∧
    groupNamed (group3 0 [(3, 0x80000000)]) 3 = true ∧ fld (0x80000000#32).toNat 10 0 = 0 ∧
    getb s (groupR 3) 30 = false ∧ ¬ (getb s (groupR 3) 31 = (0x80000000#32).getLsbD 31) := by decide +kernel

/-- Buffer 9 in this module's LPDDR6. -/
def migState (policy : Word) (copies : List PageCopy) : State :=
  { up [(Reg.straps, 0), (tileR 7 0, 0), (Reg.placePolicy, policy)] with
    handles := [⟨9, 4096, 0, 2, 0xFFFF, 0, 0, 0, none, []⟩], copies := copies }

/-- A page's accesses in an epoch, by tile and by module. -/
def hotPage : PageCount := ⟨9, 0, [(6, 3), (7, 64)], [(5, 64)]⟩

theorem witness_migration :
    let s := { migState 0x80000001 [] with cycle := 1250000 }
    let r := { migState 0x40010201 [] with cycle := 1250000 }
    s.engine.epochStart + 1250000 ≤ s.cycle ∧ ({ s with cycle := 1249999 } : State).cycle < s.engine.epochStart + 1250000 ∧
    getb s Reg.placePolicy 31 = true ∧ getb s Reg.placePolicy 30 = false ∧ countedPages s [hotPage] = [(9, 0)] ∧
    mayMigrate s 9 0 = true ∧
    hotTile (pageTotals s [hotPage] 9 0).1 = some (7, 64) ∧ 64 * max 1 (getf s Reg.placePolicy 7 0) ≤ 64 ∧
    ((findHandle s 9).any fun h => (placeOf s h 0).tier == 2) = true ∧ inService s 7 = true ∧
    usedPages s 7 1 0 < tilePages s 1 ∧ getb r Reg.placePolicy 31 = false ∧ getb r Reg.placePolicy 30 = true ∧
    mayMigrate r 9 0 = true ∧ countedPages r [hotPage] = [(9, 0)] ∧ remoteHot r (pageTotals r [hotPage] 9 0).2 = [5] ∧
    max 1 (getf r Reg.placePolicy 23 16) ≤ 1 + 0 ∧
    1 + 0 < max 1 (getf (migState 0x40020201 []) Reg.placePolicy 23 16) ∧
    getb (migState 1 []) Reg.placePolicy 31 = false ∧ getb (migState 1 []) Reg.placePolicy 30 = false := by decide +kernel

theorem witness_remap :
    let c : PageCopy := ⟨9, 0, ⟨0, 1, 7⟩, 7, none, 64, [], 0⟩
    let s := migState 0x80000001 [c]
    (s.copies.find? fun c => c.handle == 9 && c.page == 0) = some c ∧
    ((findHandle s 9).any fun h => decide (pageGranules h 0 ≤ c.issued) && decide (pageGranules h 0 = 64)) = true ∧
    c.outstanding = [] ∧ s.host.waiting = [] ∧ c.dest.tier ≤ 2 ∧ ({ c with issued := 63 } : PageCopy).issued < 64 ∧
    (s.copies.find? fun c => c.handle == 9 && c.page == 1) = none := by decide +kernel

/-- A tier move of the buffer 9, its fields these. -/
def tierDesc (w : Nat) : BitVec 1024 := BitVec.ofNat 1024 (4 + 48 + w * 2 ^ (8 * 0x78))

/-- Its state: view 0 is of handle 9. -/
def tierState (w : Nat) (handle : Handle) (mem : Nat) : State :=
  { up [(Reg.straps, 0), (tileR 0 0, 0), (Reg.memStatus, BitVec.ofNat 32 (mem * 2 ^ 29))] with
    handles := [handle]
    alms := [(1, { Alm.reset with subs := [⟨0, 3, 0, [9], [tierDesc w], [{ runAt .running with counts := [1, 1, 1, 1] }], false, none, 2 ^ 64 - 1, 0, 2 ^ 64 - 1⟩] })] }

theorem witness_tier :
    let h : Handle := ⟨9, 4096, 0, 2, 0xFFFF, 0, 0, 0, none, []⟩
    let ok := fun (w mem : Nat) => let s := tierState w h mem
      due s && (findDesc s d0).any fun q => dFamily q.2.1 == 4 && dVariant q.2.1 == 3 && dFw q.2.1 3 == w &&
        vHandle (slotView (runViews q.1 q.2.1 q.2.2) q.2.1 0) == 9 && !q.2.2.counts.contains 0 && pageFree s (some d0) 9 0 &&
        memState s == mem
    ok 0x13 2 = true ∧ ok 0x0B 2 = true ∧ ok 0x0A 2 = true ∧ ok 0x0A 1 = true ∧ pagesOf h.size = 1 ∧ fld 0x0A 1 0 = 2 ∧
    fld 0x13 1 0 = 3 ∧ bitOf 0x13 3 = false ∧ bitOf 0x13 4 = true ∧ bitOf 0x0B 3 = true ∧ bitOf 0x0B 4 = false := by decide +kernel

/-- A page space of 0: the whole near store of every tile of an empty group. -/
theorem witness_pin_fails :
    let h : Handle := ⟨9, 4096, 0, 2, 0xFFFF, 0, 0, 0, none, []⟩
    let s := tierState 0x0C h 2
    fld 0x0C 1 0 ≤ 1 ∧ bitOf 0x0C 3 = true ∧ bitOf 0x0C 4 = false ∧ bitOf 0x0C 2 = true ∧
    freePages s (pinTiles s 3 (bitOf 0x0C 2)) 0 h.id < pagesOf h.size := by decide +kernel

theorem witness_seam : crossesSeam 0 .north = false ∧ crossesSeam 16 .north = true ∧ crossesSeam 15 .south = true ∧
    crossesSeam (17 * 32) .east = true ∧ crossesSeam (18 * 32) .west = true ∧
    (findDesc (withDesc (up []) 0 (runAt .running)) d0).any (fun q => q.2.2.phase == .running && q.2.2.code == 0) = true := by
  decide +kernel

/-- A tree from column 2, row 3 by columns: the tiles of rows 3 and 4. -/
def route23 : DWord := BitVec.ofNat 64 (3 * 2 ^ 62 + 2 ^ 61 + 2 * 2 ^ 55 + 3 * 2 ^ 50 + 3)

theorem witness_multicast : treeReceivers route23.toNat = [67, 68] ∧
    ((treeReceivers route23.toNat).filter fun r => !([67, 68] : List Nat).contains r) = [] ∧
    ((treeReceivers route23.toNat).filter fun r => !([68] : List Nat).contains r) = [67] ∧
    2 ≤ ((treeReceivers route23.toNat).filter fun r => !([] : List Nat).contains r).length ∧
    getf (up [(tileR 0 0x824, 0)]) (tileR 0 0x824) 31 0 = 0 := by decide +kernel

/-- Descriptor 0 with a thread on tile 0 and a unit on each receiver; entry 1 holds the tree. -/
def treeState (ms : List Stream) (fill : Fill) : State :=
  { withDesc (armUp []) 1 (runAt .running) with
    regs := [(Reg.hostLink, 0x80000000), (tileR 0 0x824, 10)]
    tiles := [(0, { Tile.reset with threads := [(d0, 4)], routes := [(1, route23.toNat)], streams := ms }),
      (67, { Tile.reset with units := [passUnit d0 [fill]] }), (68, { Tile.reset with units := [passUnit d0 [fill]] })] }

/-- A stream that one receiver has held for `n` cycles. -/
def treeStream (loaded : Bool) (credits : List Nat) (n : Nat) : Stream :=
  ⟨1, d0, 0, emptyFill.ring, emptyFill.side, emptyFill.places, 0, false, loaded, credits, some (67, n, 4), []⟩

theorem witness_multicast_open :
    let s := treeState [] emptyFill
    ((getTile s 0).streams.find? fun m => m.entry == (1#6).toNat) = none ∧
    (openStream (setRoute s 0 1 route23.toNat) 0 1 d0 0 (treeReceivers route23.toNat)).isSome = true ∧
    treeReceivers route23.toNat ≠ [] ∧ treeReceivers 0 = [] := by decide +kernel

theorem witness_multicast_send :
    let fed := { emptyFill with remote := some (0, 1) }
    let st := fun l c n => treeState [treeStream l c n] fed
    let rs := treeReceivers (smGet 0 1 (getTile (st true [] 0) 0).routes)
    ((getTile (st true [] 0) 0).streams.find? fun m => m.entry == (1#6).toNat) = some (treeStream true [] 0) ∧
    (treeStream false [] 0).loaded = false ∧ (∀ r ∈ rs, r ∈ granted (st true [67, 68] 0) 0 (treeStream true [67, 68] 0)) ∧
    (let m := { treeStream true [68] 0 with heldBy := none }
     rs.filter (fun r => !(granted (treeState [m] fed) 0 m).contains r) = [67]) ∧
    2 ≤ (rs.filter fun r => !(granted (st true [] 0) 0 (treeStream true [] 0)).contains r).length := by decide +kernel

theorem witness_lag :
    let s := treeState [treeStream true [68] 11] emptyFill
    getf s (tileR 0 0x824) 31 0 = 10 ∧ 10 < 11 ∧ (treeStream true [68] 11).heldBy = some (67, 11, 4) ∧
    67 ∉ (treeStream true [68] 11).lagged ∧ 67 ∈ ({ treeStream true [68] 11 with lagged := [67] } : Stream).lagged ∧
    ({ treeStream true [68] 11 with heldBy := none } : Stream).heldBy = none ∧ getb s (tileR 0 0x828) 31 = false ∧
    getb (up [(tileR 0 0x828, 0x80000000)]) (tileR 0 0x828) 31 = true := by decide +kernel

/-- Fifteen replays so far, sixteen, and a link that has failed. -/
theorem witness_seam_replays :
    let k := linkOf 16 .north
    let s := fun n f => { up [] with hedge := { Hedge.reset with replays := [(k, n)], failed := f } }
    smGet 0 k (s 15 []).hedge.replays < 16 ∧ k ∉ (s 15 []).hedge.failed ∧ 16 ≤ smGet 0 k (s 16 []).hedge.replays ∧
    k ∈ (s 0 [k]).hedge.failed := by decide +kernel

/-- Routes between two corners, an empty Hedgerow and a step of the idle block. -/
theorem witness_hedgerow : (0 : TileIx) ≠ 1151 ∧ (up []).pending = [] ∧ (up []).mgmt.tileResetJob = none ∧
    (up []).hedge.queues = [] ∧ ∀ k, (smGet [] k (up []).hedge.queues).length ≤ 16 :=
  ⟨by decide, rfl, rfl, rfl, fun _ => Nat.zero_le 16⟩

/-! Witnesses: host link, windows and pools. -/

theorem witness_hostLink : 6 ≤ (6#4).toNat ∧ 16 ≤ (16#5).toNat ∧ (5#4).toNat < 6 ∧ (8#5).toNat < 16 ∧ 8 ≤ (8#5).toNat ∧
    3 ≤ (3#4).toNat ∧ (2#4).toNat < 3 ∧ (7#5).toNat < 8 ∧ State.reset.power.romBooted = false ∧
    (up []).power.romBooted = true := by decide +kernel

/-- BAR2 keeps the address bits above its size; AER's errors clear where 1 is written. -/
theorem test_config_writes : configKeeps 0 .bar2 (3 * 2 ^ 36) = 2 ^ 37 ∧ configKeeps 1 .bar2 (3 * 2 ^ 36) = 3 * 2 ^ 36 ∧
    configKeeps 0 .maxPayload 5 = 2 ∧
    configField (opDStateChange 0 false [(.aerCorrected, 1)] (opLinkSettled 6 16 true 0 3 (up []))) 0 .aerCorrected = 2 := by
  decide +kernel

theorem witness_vectorUnmask : vectorCount 0 ≤ (265#9).toNat ∧ (264#9).toNat < vectorCount 0 ∧ vectorCount 16 ≤ (256#9).toNat ∧
    (255#9).toNat < vectorCount 16 ∧ 0 ∉ (up []).host.d3hot := by decide +kernel

/-- Window 15 of function 1 on the buffer 9, OFFSET 64. -/
def winState (ctrl : Word) (lost : List Nat) : State :=
  { up [(winR 1 15 0, 9), (winR 1 15 4, ctrl), (winR 1 15 8, 64)] with
    handles := [⟨9, 4096, 0, 2, 0xFFFF, 0, 0, 0, none, lost⟩] }

theorem witness_windowEnable :
    let s := winState 0 []
    15 < windowCount 1 ∧ ¬ 16 < windowCount 1 ∧ getb s (winR 1 15 4) 31 = false ∧ (0x80000000#32).getLsbD 31 = true ∧
    openHandle (up []) 1 9 = none ∧ ((openHandle s 1 9).any fun h => decide (winOffset s 1 15 < h.size)) = true ∧
    ((openHandle { s with handles := [⟨9, 64, 0, 2, 0xFFFF, 0, 0, 0, none, []⟩] } 1 9).any fun h =>
      decide (h.size ≤ winOffset s 1 15)) = true ∧ getb (winState 0x80000000 []) (winR 1 15 4) 31 = true := by decide +kernel

theorem witness_windowAccess :
    let s := winState 0x80000000 []
    1 ∉ s.host.d3hot ∧ isNormal s = true ∧ getb s (winR 1 15 4) 31 = true ∧ getb (winState 0 []) (winR 1 15 4) 31 = false ∧
    ((findHandle s 9).any fun h => h.kind == 0 && decide (64 + 4032 ≤ h.size) && !rangeLost h 64 4095 &&
      (badGranule s 9 64 4032).isNone && (badPart s h 64 4032).isNone && decide (h.size ≤ 64 + 4032) &&
      !pageHeld s h 64 4032 && pageHeld { s with copies := [⟨9, 0, ⟨0, 1, 7⟩, 7, none, 0, [], 0⟩] } h 4095 1) = true ∧
    getb s (winR 1 15 4) 30 = false ∧ getb (winState 0xC0000000 []) (winR 1 15 4) 30 = true ∧
    ((findHandle (winState 0x80000000 [0]) 9).any fun h => byteLost h 64 && decide (64 < h.size)) = true := by decide +kernel

/-- Module 5 in a pool with these members, STATE with them, steward and deputy. -/
def poolUp (state steward deputy : Nat) (members : Nat) : State :=
  up [(Reg.straps, 5), (Reg.poolStatus + 4, BitVec.ofNat 32 (state * 2 ^ 29 + steward * 2 ^ 21 + deputy * 2 ^ 15)),
    (Reg.poolMembers, BitVec.ofNat 32 members), (Reg.memStatus, 0x40000000), (Reg.cfgStatus, 0x02000000)]

theorem witness_aperture :
    let s := { poolUp 2 5 7 0xA0 with handles := [⟨9, 4096, 0, 2, 0xFFFF, 0, 0, 5, none, []⟩] }
    poolState s = 2 ∧ isMember s 7 = true ∧ isMember s 6 = false ∧ (7 : Nat) ≠ ownId s ∧ poolState (up []) ≠ 2 ∧
    poolState (up []) ≠ 3 ∧ ((findHandle s 9).any fun h => h.kind == 0 && decide (4095 + 1 ≤ h.size) && !byteLost h 4095 &&
      (badGranule s 9 4095 1).isNone) = true := by decide +kernel

/-- Module 5 alone in its peer table, its entry's base that of its BAR2. -/
def peerUp (done mem base : Nat) : State :=
  let s := up [(Reg.straps, 5), (peerR 5, 1), (peerR 5 + 4, BitVec.ofNat 32 (7 * 2 ^ 5)),
    (Reg.memStatus, BitVec.ofNat 32 (mem * 2 ^ 29)), (Reg.cfgStatus, BitVec.ofNat 32 (done * 2 ^ 25))]
  { s with host := { s.host with config := [(cfgIndex .bar2, base * 2 ^ 37)] } }

/-- The module's own entry names its own base: no duplicate; another's: a duplicate. -/
theorem witness_form_own : poolState (peerUp 1 2 7) = 0 ∧ isNormal (peerUp 1 2 7) = true ∧ memState (peerUp 1 2 7) ≠ 3 ∧
    peerValid (peerUp 1 2 7) (ownId (peerUp 1 2 7)) = true ∧ donePin (peerUp 1 2 7) = true ∧
    donePin (peerUp 0 2 7) = false ∧ duplicateId (peerUp 1 2 7) = false ∧ duplicateId (peerUp 1 2 6) = true := by
  decide +kernel

theorem witness_form : poolState (up []) = 0 ∧ isNormal (up []) = true ∧ isNormal (low []) = false ∧
    poolState (poolUp 2 5 7 0xA0) ≠ 0 ∧ memState (up [(Reg.memStatus, 0x60000000)]) = 3 ∧ memState (up []) ≠ 3 ∧
    peerValid (up [(Reg.straps, 5)]) 5 = false := by decide +kernel

/-- Forming in module 5 with peer 7, this module's greetings sent in cycle 0. -/
def forming (pool : Pool) : State :=
  { up [(Reg.straps, 5), (Reg.poolStatus + 4, 0x20000000), (peerR 5, 1), (peerR 7, 1)] with pool := pool }

theorem witness_greeting :
    let s := forming Pool.reset
    let m := { poolUp 2 5 6 0x60 with regs := (peerR 7, 1) :: (poolUp 2 5 6 0x60).regs }
    takesPart s = true ∧ takesPart (low []) = false ∧ takesPart m = true ∧ m.pool.stewardLost = false ∧
    stewardId m = ownId m ∧ stewardId { poolUp 2 6 5 0x60 with regs := (peerR 7, 1) :: (poolUp 2 6 5 0x60).regs } ≠ 5 ∧
    poolState s = 1 ∧ s.pool.formWait = false ∧ peerValid s 7 = true ∧ (7 : Nat) ≠ ownId s ∧ memState s ≠ 3 ∧
    7 ∉ s.pool.answered ∧ 7 ∉ s.pool.excluded ∧ (6#6) ≠ (7#6) ∧ poolState m = 2 ∧ isMember m 7 = false ∧
    peerValid m 7 = true := by decide +kernel

/-- A greeting can carry this module's digest. -/
theorem witness_digest (s : State) : ∃ digest : DWord, digest.toNat = ownDigest s := ⟨_, rfl⟩

theorem witness_formationEnd :
    let s := forming { Pool.reset with answered := [7] }
    let w := forming Pool.reset
    let alone := up [(Reg.straps, 5), (Reg.poolStatus + 4, 0x20000000), (peerR 5, 1)]
    otherPeers s = [7] ∧ otherPeers alone = [] ∧ poolState alone = 1 ∧
    (∃ i ∈ otherPeers w, i ∉ w.pool.answered ∧ i ∉ w.pool.excluded) ∧
    (∀ i ∈ otherPeers s, i ∈ s.pool.answered ∨ i ∈ s.pool.excluded) ∧ w.cycle < w.pool.formAt + formTimeout w ∧
    ((List.range 64).filter fun i => i == ownId s || s.pool.answered.contains i) = [5, 7] ∧
    (([(7, 0x20#64)] : List (Nat × BitVec 64)).find? fun p => p.1 == 7) = some (7, 0x20#64) ∧ (0x20#64).getLsbD 5 = true := by
  refine ⟨by decide +kernel, by decide +kernel, by decide +kernel, ⟨7, by decide +kernel, by decide +kernel, by decide +kernel⟩, ?_⟩
  decide +kernel

/-- Sixteen members that all answered: the pool that forms. -/
theorem witness_sixteen :
    let s := { up ([(Reg.straps, 0), (Reg.poolStatus + 4, 0x20000000)] ++ (List.range 16).map fun i => (peerR i, 1)) with
      pool := { Pool.reset with answered := (List.range 15).map (· + 1) } }
    poolState s = 1 ∧ (otherPeers s).length = 15 ∧ (∀ i ∈ otherPeers s, i ∈ s.pool.answered) ∧
    16 ≤ ((List.range 64).filter fun i => i == ownId s || s.pool.answered.contains i).length := by decide +kernel

theorem witness_leave :
    let busy := { poolUp 2 5 7 0xA0 with regs := (winR 16 15 4, 0x80000000) :: (poolUp 2 5 7 0xA0).regs }
    poolState (poolUp 2 5 7 0xA0) = 2 ∧ leaveBusy (poolUp 2 5 7 0xA0) = false ∧ leaveBusy busy = true ∧ poolState busy = 2 ∧
    poolState (up []) ≠ 2 ∧ poolState (poolUp 3 5 7 0xA0) = 3 ∧
    (memberList (poolUp 3 5 7 0xA0)).filter (· != ownId (poolUp 3 5 7 0xA0)) ≠ [] ∧ (poolUp 3 5 7 0xA0).alms = [] := by
  decide +kernel

theorem witness_removal :
    let s := { poolUp 2 5 7 0x1A0 with pool := { Pool.reset with unreachable := [(8, 0)] }, cycle := 2 ^ 40 }
    let st := { poolUp 2 7 5 0x1A0 with pool := { Pool.reset with unreachable := [(7, 0)] }, cycle := 2 ^ 40 }
    let plain := poolUp 2 7 8 0x1A0
    isMember s 8 = true ∧ (8 : Nat) ≠ ownId s ∧ removalDue s 8 = true ∧ removalDue (poolUp 2 5 7 0x1A0) 8 = false ∧
    fencesOn s 8 = [] ∧ (∀ b, b < 256 → getb s (barCfgR b) 31 = true → barHome s b ≠ 8) ∧ (8 : Nat) ≠ stewardId s ∧
    (8 : Nat) ≠ deputyId s ∧ (7 : Nat) = stewardId st ∧ removalDue st 7 = true ∧ removalDue plain 8 = true ∧ s.pool.stewardLost = false ∧
    isMember s 6 = false := by decide +kernel

/-! Witnesses: instrument lanes and front-end cores. -/

/-- Port 7 with one receive lane of one converter of 16 bits, two octets a frame, 32 frames a multiframe, INSTCLK at
250 MHz; RX_CFG's high word is this, and these words beside. -/
def linkUp (hi : Word) (l : List (Nat × Word)) : State :=
  up ([(Reg.instclk, 0x8003D090), (lnkR 7 0, 0xFF000000), (lnkR 7 4, hi), (lnkR 7 0x10, 0x28101000)] ++ l)

theorem witness_linkEnable :
    let s := linkUp 0x000F8101 []
    let v : DWord := 0x800F8101FF000000#64
    linkOn s 7 false = false ∧ linkOn s 7 true = false ∧ v.getLsbD 63 = true ∧ paramsOk s 7 false = true ∧
    paramsOk (up []) 7 false = false ∧ linkOn (linkUp 0x800F8101 []) 7 false = true ∧ (0#64).getLsbD 63 = false := by
  decide +kernel

theorem witness_laneCgs :
    let s := linkUp 0x800F8101 [(lnkR 7 0x14, 0x20000000)]
    rxState s 7 = 1 ∧ rxState (linkUp 0x800F8101 [(lnkR 7 0x14, 0x80000000)]) 7 = 4 ∧ rxState (up []) 7 ≠ 1 ∧
    rxState (up []) 7 ≠ 4 ∧
    (let w := { linkUp 0x800F8101 [(lnkR 7 0x14, 0x80000000)] with cycle := 1 }
     let v := { w with cycle := 1000 }
     laneOctets w 7 (w.cycle - (getPort w 7).rxSince) < 5 * (linkParams w 7 false).f + 9 ∧
       5 * (linkParams v 7 false).f + 9 ≤ laneOctets v 7 (v.cycle - (getPort v 7).rxSince)) ∧ getb s Reg.instclk 31 = true ∧ getb s (laneR 7 7) 31 = false ∧ getb s (laneR 7 7) 30 = false ∧
    getb s (laneR 7 7) 29 = false ∧ (lanesInUse s 7).length < (linkParams s 7 false).lanes := by decide +kernel

/-- What lane 3 sends in its alignment sequence. -/
def ilas3 : LaneIlas := ⟨3, 0, 0, 0, 1, false, 2, 32, 1, 16, 16, 0, 1, false, 1, 1, true⟩

theorem witness_ilas :
    let s := linkUp 0x800F8101 [(lnkR 7 0x14, 0x40000000), (laneR 7 3, 0x20000000)]
    rxState s 7 = 2 ∧ lanesInUse s 7 = [3] ∧ ([ilas3].map (·.lid)).Nodup ∧ [ilas3].length = (linkParams s 7 false).lanes ∧
    ilasOk (linkParams s 7 false) ilas3 = true ∧ ilasOk (linkParams s 7 false) { ilas3 with fchkOk := false } = false := by
  decide +kernel

theorem witness_laneRelease :
    let s := { linkUp 0x800F8101 [(lnkR 7 0x14, 0x40000000), (laneR 7 3, 0x20000000)] with
      ports := [(7, { Port.reset with lanes := [(3, ⟨true, false, some 0⟩)] })] }
    rxState s 7 = 2 ∧ [32].length = (lanesInUse s 7).length ∧ (((getPort s 7).lane 3).logical.isSome) = true ∧
    32 ≤ getf s (lnkR 7 0x10) 12 8 * (linkParams s 7 false).f ∧ ¬ 33 ≤ getf s (lnkR 7 0x10) 12 8 * (linkParams s 7 false).f := by
  decide +kernel

theorem witness_sysref :
    let s := linkUp 0x800F8101 [(Reg.sysref, 0x80000000)]
    getb s Reg.instclk 31 = true ∧ getb (up [(Reg.instclk, 0)]) Reg.instclk 31 = false ∧ getb s Reg.sysref 31 = true ∧
    getb (linkUp 0 [(Reg.sysref, 0)]) Reg.sysref 31 = false ∧ ({ up [] with sysrefArmed := true } : State).sysrefArmed = true ∧
    linkOn s 7 false = true ∧ linkOn s 6 false = false ∧ linkOn s 6 true = false ∧ (0x80#8).getLsbD 7 = true ∧
    (0x40#8).getLsbD 7 = false ∧ getb s (lnkR 7 0x10) 19 = false ∧
    getb (up [(lnkR 7 0x10, 0x80000)]) (lnkR 7 0x10) 19 = true := by decide +kernel

theorem witness_synci :
    let s := linkUp 0 [(lnkR 7 8, 0xFF000000), (lnkR 7 0xC, 0x800F8101), (lnkR 7 0x14, 0x04000000)]
    txState s 7 = 1 ∧ txState (up [(lnkR 7 0x14, 0x0C000000)]) 7 = 3 ∧ txState (up []) 7 ≠ 1 ∧
    19 = 5 * (linkParams s 7 true).f + 9 := by decide +kernel

/-- Port 7's transmit link in this TX_STATE since cycle 0, its SYNCI high since cycle 0, its LMFC set to 0 in cycle 0. -/
def txUp (st now : Nat) : State :=
  { linkUp 0 [(lnkR 7 8, 0xFF000000), (lnkR 7 0xC, 0x800F8101), (lnkR 7 0x14, BitVec.ofNat 32 (st * 2 ^ 26))] with
    cycle := now, ports := [(7, { Port.reset with lmfcAligned := true, synci := some 0 })] }

theorem witness_tx_idle : still (txUp 1 999) ∧ (∀ e ∈ (txUp 1 999).tiles, e.2.passes = []) ∧ (txUp 1 999).pending = [] ∧
    (txUp 1 999).mgmt.tileResetJob = none :=
  ⟨by unfold still; decide +kernel, by decide +kernel, rfl, rfl⟩

/-- One multiframe is 64 octets: a cycle of the core clock after few of them, and after many. -/
theorem witness_tx_steps : let s := txUp 1 999
    getb s Reg.instclk 31 = true ∧ txState s 7 = 1 ∧ (getPort s 7).synci = some 0 ∧ txState (txUp 2 0) 7 = 2 ∧
    lmfcPassed { s with cycle := s.cycle + 1 } 7 true (max 0 (getPort s 7).txSince) = true ∧
    lmfcPassed { txUp 1 0 with cycle := 1 } 7 true (max 0 (getPort (txUp 1 0) 7).txSince) = false ∧
    4 * (linkParams s 7 true).f * (linkParams s 7 true).k ≤ laneOctets s 7 (s.cycle + 1 - (getPort s 7).txSince) ∧
    laneOctets (txUp 2 0) 7 (0 + 1 - (getPort (txUp 2 0) 7).txSince) <
      4 * (linkParams (txUp 2 0) 7 true).f * (linkParams (txUp 2 0) 7 true).k := by decide +kernel

theorem witness_laneFaults :
    let s := linkUp 0x800F8101 [(lnkR 7 0x14, 0x60000000), (laneR 7 3, 0x20000000)]
    rxState s 7 = 3 ∧ getb s (laneR 7 3) 31 = false ∧ getb s (laneR 7 3) 30 = false ∧ getb s (laneR 7 3) 29 = true ∧
    (8 : Nat) ≤ 8 ∧ (1000 : Nat) ≤ 1000 ∧ (7 : Nat) < 8 ∧ (1000 : Nat) < 1001 ∧ rxState (up []) 7 ≠ 3 := by decide +kernel

/-- The frame ring of port 7 in buffer 9, and the core started with LENGTH 16. -/
def fecUp (ctrl : Word) (l : List (Nat × Word)) (c : Core) : State :=
  { linkUp 0x800F8101 ([(lnkR 7 0x14, 0x60000000), (fecR 7, ctrl), (lnkR 7 0x108, 0x00070001), (lnkR 7 0x10C, 9)] ++ l) with
    handles := [⟨9, 8192, 0, 0, 0xFFFF, 0, 0, 0, none, []⟩], ports := [(7, { Port.reset with core := c })] }

theorem witness_fecRun :
    let s := fecUp 0 [] Core.reset
    let v : Word := 0xA0000001#32
    getb s (fecR 7) 31 = false ∧ v.getLsbD 31 = true ∧ 0 < fld v.toNat 29 16 ∧ fld v.toNat 29 16 ≤ 8192 ∧
    0 < fld v.toNat 15 0 ∧ (linkParams s 7 false).m * fld v.toNat 29 16 ≤ 8192 ∧ frameRingOk s 7 = true ∧
    fld (0x80000001#32).toNat 29 16 = 0 ∧ getb (fecUp 0x80100001 [] Core.reset) (fecR 7) 31 = true := by decide +kernel

theorem witness_batch :
    let s := fecUp 0x80100001 [] Core.reset
    let closed := fecUp 0x80100001 [(lnkR 7 0x110, 0x00200001), (lnkR 7 0x114, 0x00001000)] Core.reset
    getf s (fecR 7) 29 16 ≠ 0 ∧ 0 * getf s (fecR 7) 29 16 + 15 % getf s (fecR 7) 29 16 < 8192 ∧
    getb (fecUp 0x00100001 [] Core.reset) (fecR 7) 31 = false ∧
    getb s (fecR 7) 31 = true ∧ rxState s 7 = 3 ∧ (0#4).toNat < (linkParams s 7 false).m ∧ inWindow s 7 (mtrPhase s) = true ∧
    inWindow closed 7 (mtrPhase closed) = false ∧ (getPort s 7).core.waiting = none ∧
    (getPort (fecUp 0 [] { Core.reset with waiting := some (3, 5) }) 7).core.waiting = some (3, 5) ∧
    (getPort s 7).core.running = false := by decide +kernel

/-- A running core whose program has this instruction word at PC 0. -/
def coreAt (w : Nat) : Core := { Core.reset with program := [w], running := true }

theorem witness_fec :
    let s := fecUp 0x80100001 [] (coreAt 0)
    let c := (getPort s 7).core
    c.running = true ∧ (2#2).getLsbD 0 = false ∧ (1#2).getLsbD 0 = true ∧ 0 ≤ (31#6).toInt ∧ (32#6).toInt < 0 ∧
    1020 ≤ (1020#10).toNat ∧ (1019#10).toNat < 1020 ∧ (c.repLeft = 0 ∨ c.pc ≠ c.repLast) ∧ c.pc < 4096 ∧ c.word.op = 0 ∧
    ({ c with repLeft := 1 } : Core).pc = c.repLast ∧ (0#6) = 0 ∧ (63#6) ≠ 0 ∧ c.emitted = false := by decide +kernel

/-- Instruction words written from R307: OP [47:42], DST [41:38], SRC [37:34], XR [33:32], YR [31:30], IMM [23:0]. -/
theorem test_fec_words :
    ([0x00, 0x01, 0x02, 0x08, 0x09, 0x0A, 0x0B, 0x0C, 0x10, 0x11, 0x12, 0x13, 0x18, 0x19, 0x1A, 0x1B, 0x20, 0x21, 0x28,
      0x29, 0x2A].all fun op => (coreAt (op * 2 ^ 42)).word.op == op) = true ∧
    (coreAt 0b001001001100000111_000000_000000000000000000000000).word = ⟨9, 3, 0, 1, 3, 0⟩ ∧
    (coreAt 0b001010000100001000_000000_000000000000000000000000).word = ⟨10, 1, 0, 2, 0, 0⟩ ∧
    (coreAt 0b100000000001010000_000000_000000000000001111111011).word = ⟨0x20, 0, 5, 0, 0, 1019⟩ ∧
    (coreAt 0b000010000000000000_000000_001111110000000000000010).word = ⟨2, 0, 0, 0, 0, 63 * 2 ^ 16 + 2⟩ ∧
    (coreAt 0b100001000000000000_000000_000000000000010000000001).word = ⟨0x21, 0, 0, 0, 0, 1025⟩ := by decide +kernel

/-- MAC A3, X1, Y3 of that word runs; the same word is no MSU, and no instruction runs while no invocation does. -/
theorem test_fec_runs :
    let c := coreAt 0b001001001100000111_000000_000000000000000000000000
    c.word.op = 0x09 ∧ c.word.dst = (3#2).toNat ∧ c.word.xr = (1#2).toNat ∧ c.word.yr = (3#2).toNat ∧ c.word.op ≠ 0x0B ∧
    ({ c with running := false } : Core).running = false := by decide +kernel

theorem witness_emit :
    let s := fecUp 0x80100001 [] { Core.reset with running := true }
    (1#11).toNat = 1 ∧ (1020#11).toNat ≤ 1020 ∧ 1020 < (1021#11).toNat ∧ getf s (lnkR 7 0x108) 63 32 = 9 ∧
    ((findHandle s 9).any fun h => h.kind == 0 && decide (4096 * 2 ^ getf s (lnkR 7 0x108) 3 0 ≤ h.size)) = true ∧
    getf s (lnkR 7 0x108) 31 16 = 7 := by decide +kernel

/-! Witnesses: output slots, the meridian, weight swaps and plots. -/

/-- The meridian running with 10 ticks a cycle, LOCKED, in its last phase. -/
def mtrUp (m : Meridian) (l : List (Nat × Word)) : State :=
  { up ([(Reg.mtrCfg, 10), (Reg.mtrCfg + 4, 0x80000000), (Reg.mtrStatus, 0x40000000)] ++ l) with meridian := m }

/-- Cycle 5, tick 9. -/
def lastTick : Meridian := ⟨5, 9 * 2 ^ 24 / 10, 9, 0, some 4, some false, 0, true, true⟩

/-- Slot 31 of port 7 on word 0 of a loop buffer, converter 0, point 0, EXPECT 0. -/
def slotState (ctrl : Word) (flag : Word) (l : List (Nat × Word)) : State :=
  { mtrUp lastTick ([(slotR 7 31 0, ctrl), (slotR 7 31 4, 9), (slotR 7 31 0xC, 0x00010007), (slotR 7 31 0x10, 1), (flagR 7, flag),
      (groupR 3, 0xC0000001)] ++ l) with
    handles := [⟨9, 4096, 0, 0, 0xFFFF, 0, 0, 0, some ⟨0, true, 3⟩, []⟩] }

theorem witness_slotEnable :
    let s := slotState 0 0 []
    let far := slotState 0 0 [(slotR 7 31 8, 4096)]
    slotOn s 7 31 = false ∧ (0x80000000#32).getLsbD 31 = true ∧ loopPin s 9 ≠ none ∧ loopPin (up []) 0 = none ∧
    getf s (slotR 7 31 8) 31 0 % 4 = 0 ∧ getf s (slotR 7 31 8) 31 0 + 4 ≤ handleSize s 9 ∧
    handleSize far 9 < getf far (slotR 7 31 8) 31 0 + 4 := by decide +kernel

theorem witness_slotFire :
    let s := slotState 0x80000000 1 []
    s.meridian.running = true ∧ unfired s 7 31 s.meridian.cycleNo = true ∧ getf s (slotR 7 31 0) 23 0 ≤ mtrPhase s ∧
    outranked s 7 (getf s (slotR 7 31 0) 27 24) 31 = false ∧
    outranked { s with ports := [(7, { Port.reset with heldBy := [(0, 31, s.cycle)] })] } 7 0 30 = true ∧
    loopPin s 9 ≠ none ∧ waitMet (flagVal s 7) (getf s (slotR 7 31 0x10) 31 0) = true ∧
    waitMet (flagVal (slotState 0x80000000 0 []) 7) (getf s (slotR 7 31 0x10) 31 0) = false ∧
    ((findHandle s 9).any fun h => h.kind == 0) = true ∧ getb s (slotR 7 31 0) 30 = false ∧
    getb (slotState 0xC0000000 1 []) (slotR 7 31 0) 30 = true ∧ unfired (slotState 0 1 []) 7 31 5 = false ∧
    mtrPhase (slotState 0x80FFFFFF 1 []) < getf (slotState 0x80FFFFFF 1 []) (slotR 7 31 0) 23 0 := by decide +kernel

theorem witness_heldCode :
    let s := up [(lnkR 7 8, 0xFF000000), (lnkR 7 0xC, 0x800F8101), (lnkR 7 0x14, 0x0C000000)]
    txState s 7 = 3 ∧ (0#4).toNat < (linkParams s 7 true).m ∧ (linkParams s 7 true).m ≤ (1#4).toNat ∧
    txState (up []) 7 ≠ 3 := by decide +kernel

theorem witness_mtrCfg :
    let v : DWord := 0x8000000001000000#64
    getb (up []) Reg.mtrCfg 63 = false ∧ v.getLsbD 63 = true ∧ fld v.toNat 24 0 = 2 ^ 24 ∧
    fld (0x8000000000000001#64).toNat 24 0 = 1 ∧ fld (0x8000000000000000#64).toNat 24 0 = 0 ∧ mtrTicks (up []) = 0 ∧
    getb (mtrUp lastTick []) Reg.mtrCfg 63 = true ∧ (0#64).getLsbD 63 = false := by decide +kernel

theorem witness_ticks :
    let s := mtrUp lastTick []
    let u := mtrUp { lastTick with tick := 8 } []
    getb s Reg.mtrCfg 63 = true ∧ s.meridian.prevZero = some false ∧ s.meridian.tick + 1 = mtrTicks s ∧
    u.meridian.tick + 1 ≠ mtrTicks u ∧ 1 ≤ mtrTicks s ∧ (mtrUp Meridian.reset []).meridian.running = false ∧
    ¬ (true = true ∧ (mtrUp Meridian.reset []).meridian.prevZero = some false) ∧
    mtrState (mtrUp Meridian.reset []) ≠ 3 ∧ mtrState (up [(Reg.mtrStatus, 0x60000000)]) = 3 ∧
    0 + 1 < max 1 (getf (up [(Reg.mtrCfg + 4, 0x80000200)]) Reg.mtrCfg 47 40) ∧
    max 1 (getf s Reg.mtrCfg 47 40) ≤ s.meridian.errors + 1 := by decide +kernel

theorem witness_mtrLost :
    let s := { mtrUp lastTick [] with cycle := 8 }
    s.meridian.d = some 4 ∧ s.meridian.tickCycle + max 2 (getf s Reg.mtrCfg 39 32) * 4 ≤ s.cycle ∧
    ¬ s.meridian.tickCycle + max 2 (getf s Reg.mtrCfg 39 32) * 4 ≤ 7 := by decide +kernel

/-- A descriptor with a deadline at phase 0 of its ready cycle. -/
theorem witness_transitLate :
    let s := withDesc (mtrUp lastTick []) (BitVec.ofNat 1024 (2 ^ 255)) { Run.fresh with ready := some 0, readyCycle := some 5 }
    ((findDesc s d0).any fun q => q.2.2.phase == .waiting && q.2.2.ready.isSome && pastDeadline s q.2.1 q.2.2) = true := by
  decide +kernel

/-- Pair 15 of two loop buffers of one size. -/
def swapState (ctrl : Word) (g : Handle) (l : List (Nat × Word)) : State :=
  { mtrUp lastTick ([(swapR 15 0, ctrl), (swapR 15 4, 9), (swapR 15 8, 10), (groupR 3, 0xC0000001)] ++ l) with
    handles := [⟨9, 4096, 0, 0, 0xFFFF, 0, 0, 0, some ⟨0, true, 3⟩, []⟩, g] }

theorem witness_swapEnable :
    let s := swapState 0 ⟨10, 4096, 0, 0, 0xFFFF, 0, 0, 0, some ⟨0, true, 3⟩, []⟩ []
    let far := swapState 0 ⟨10, 4096, 0, 0, 0xFFFF, 0, 0, 0, none, []⟩ []
    getb s (swapR 15 0) 31 = false ∧ (0x80000000#32).getLsbD 31 = true ∧ handleSize s 9 = handleSize s 10 ∧
    loopPin s 9 ≠ none ∧ loopPin s 9 = loopPin s 10 ∧ loopPin far 9 ≠ loopPin far 10 ∧ findHandle (up []) 0 = none ∧
    handleSize (swapState 0 ⟨10, 64, 0, 0, 0xFFFF, 0, 0, 0, none, []⟩ []) 10 ≠ handleSize s 9 := by decide +kernel

theorem witness_swap :
    let h : Handle := ⟨10, 4096, 0, 0, 0xFFFF, 0, 0, 0, some ⟨0, true, 3⟩, []⟩
    let s := swapState 0xA0000000 h [(swapR 15 0x10, 5)]
    getb s (swapR 15 0) 29 = true ∧ getb (swapState 0x80000000 h []) (swapR 15 0) 29 = false ∧
    fld (5#64).toNat 39 0 ≤ s.meridian.cycleNo ∧ s.meridian.cycleNo < fld (6#64).toNat 39 0 ∧
    getf s (swapR 15 0x10) 39 0 ≤ s.meridian.cycleNo ∧ s.meridian.cycleNo < getf (swapState 0 h [(swapR 15 0x10, 6)]) (swapR 15 0x10) 39 0 ∧
    smGet 0 15 ({ s with swapOld := [(15, 9)] } : State).swapOld = 9 ∧ readsMember s 9 = false ∧
    readsMember (withDesc s 0 { runAt .running with reads := [9] }) 9 = true := by decide +kernel

/-- Plot 31 in this state. -/
def plotUp (st : Nat) (x : Plot) (l : List (Nat × Word)) : State :=
  { up ([(pltR 31 4, BitVec.ofNat 32 (st * 2 ^ 29))] ++ l) with plots := [(31, x)] }

theorem witness_plotCommands :
    plotState (plotUp 1 Plot.reset []) 31 = 1 ∧ plotState (plotUp 2 Plot.reset []) 31 = 2 ∧
    plotState (plotUp 5 Plot.reset []) 31 = 5 ∧ (plotUp 2 Plot.reset []).cfg.run = none ∧
    (getPlot (plotUp 2 Plot.reset []) 31).units = [] ∧ (getPlot (plotUp 2 Plot.reset []) 31).accepted = [] ∧
    (getPlot (plotUp 2 { Plot.reset with units := [(d0, 2)] } []) 31).units ≠ [] ∧
    (getPlot (plotUp 5 { Plot.reset with releasing := true } []) 31).releasing = true ∧ (∀ e ∈ [16, 17], 16 ≤ e) ∧
    (∃ e ∈ [16, 15], e < 16) := by decide +kernel

/-- A host's request of the first granule. -/
def hostReq : PortReq := ⟨none, 0, .read 64, true, 0⟩

theorem witness_plotPort :
    let full := plotUp 1 { Plot.reset with accepted := List.replicate 32 hostReq } []
    let one := plotUp 1 { Plot.reset with waiting := [hostReq] } []
    let q := withDesc (plotUp 1 Plot.reset []) 0 (runAt .running)
    validRequest (2 ^ 32 - 64) (.read 64) = true ∧ validRequest 0 (.write [1]) = true ∧
    plotServes (plotUp 1 Plot.reset []) 31 = true ∧ plotServes (plotUp 2 Plot.reset []) 31 = false ∧
    32 ≤ (getPlot full 31).accepted.length ∧ ((getPlot full 31).waiting.filter fun w => w.source.isNone).length < 256 ∧
    256 ≤ ((List.replicate 256 hostReq).filter fun w => w.source.isNone).length ∧ (getPlot one 31).waiting = hostReq :: [] ∧
    (getPlot one 31).accepted.length < 32 ∧ plotServes one 31 = true ∧ plotServes q 31 = true ∧
    ((findDesc q d0).any fun r => r.2.2.phase == .running && r.2.2.code == 0) = true := by decide +kernel

/-- VIO of bank 11, nominally 1.8 V: 1,890 mV is its upper bound. -/
theorem witness_bank :
    let s := { up [(bankR 11, 0x30000000)] with banks := [(11, 1)], cycle := 12500000 }
    getf s (bankR 11) 29 28 = 3 ∧ getf (up []) (bankR 11) 29 28 = 0 ∧ (299#16).toNat < 300 ∧
    vioFits (nominalMv 3) (1890#16).toNat = true ∧ vioFits (nominalMv 3) (1710#16).toNat = true ∧
    vioFits (nominalMv 3) (1891#16).toNat = false ∧ smGet 0 11 s.banks ≠ 0 ∧ smGet 0 11 s.banks + 12500000 ≤ s.cycle + 1 ∧
    getf s (bankR 11) 31 30 ≠ 2 ∧ getf (up [(bankR 11, 0xB0000000)]) (bankR 11) 31 30 = 2 ∧
    bitOf (up []).power.alertHold 5 = false := by decide +kernel

theorem witness_fieldTile :
    let s := up [(groupR 3, 0x80000001)]
    attachBad s (0x80000004#32).toNat = true ∧ attachBad s (0x80000003#32).toNat = false ∧
    attachNamed s 31 (0x80000003#32).toNat = false ∧
    attachNamed (group3 0x80000001 []) 31 (0x80000003#32).toNat = true ∧
    attachBad (group3 0x80000001 []) (0x80000003#32).toNat = false ∧
    (getPlot (plotUp 1 { Plot.reset with ftHeld := some 0x80000003 } []) 31).ftHeld = some (0x80000003#32).toNat := by decide +kernel

/-- A design that runs, and one that a commit is loading. -/
theorem witness_logicRing :
    let s := { up [] with cfg := { (up []).cfg with tilesReleased := true, frames := [(0, 0)] } }
    s.pending = [] ∧ s.mgmt.tileResetJob = none ∧ s.cfg.tilesReleased = true ∧ s.cfg.frames ≠ [] := by decide +kernel

/-! Witnesses: configuration. -/

/-- CFG_STATUS with this STATE and these low bits, and this configuration machinery. -/
def cfgUp (st lo : Nat) (c : Cfg → Cfg) : State :=
  { up [(Reg.straps, 0), (Reg.cfgStatus, BitVec.ofNat 32 (st * 2 ^ 28 + lo))] with cfg := c Cfg.reset }

/-- The strap's load source. -/
def withSource (n : Nat) : State := up [(Reg.straps, BitVec.ofNat 32 (n * 2 ^ 8))]

theorem witness_fullLoadStart :
    cfgState (withSource 0) = 0 ∧ cfgState (cfgUp 1 0 id) ≠ 0 ∧ (withSource 0).power.romBooted = true ∧
    getf (withSource 0) Reg.straps 9 8 = 0 ∧ getf (withSource 1) Reg.straps 9 8 = 1 ∧ getf (withSource 2) Reg.straps 9 8 = 2 ∧
    getf (withSource 3) Reg.straps 9 8 = 3 ∧ (withSource 0).cfg.journalBegin = none ∧
    (cfgUp 0 0 fun c => { c with journalBegin := some (1, []) }).cfg.journalBegin ≠ none ∧
    (cfgUp 0 0 fun c => { c with journalBegin := some (1, []) }).cfg.journalEnd = false ∧
    (cfgUp 0 0 fun c => { c with journalBegin := some (1, []), journalEnd := true }).cfg.journalEnd = true ∧
    (⟨true, true, true, false, true, false, 28, []⟩ : NorDevice).signature = true ∧
    (⟨false, true, true, false, true, false, 28, []⟩ : NorDevice).signature = false := by decide +kernel

theorem witness_fullLoadSteps :
    let s := cfgUp 4 0x1000000 fun c => { c with framesWritten := true, trainingEnded := true, releaseBegun := true }
    cfgState (cfgUp 1 0 id) = 1 ∧ cfgState (cfgUp 2 0 id) = 2 ∧ (cfgUp 2 0 fun c => { c with reread := true }).cfg.reread = true ∧
    cfgState (cfgUp 3 0 id) = 3 ∧ cfgState s = 4 ∧ s.cfg.framesWritten = true ∧ s.cfg.trainingEnded = true ∧
    getb s Reg.cfgStatus 24 = true ∧ getb (cfgUp 4 0 id) Reg.cfgStatus 24 = false ∧ s.pool.formWait = false ∧ s.cfg.run = none ∧
    s.cfg.releaseBegun = true ∧ (cfgUp 4 0 id).cfg.releaseBegun = false ∧
    (let u := { cfgUp 5 0 id with regs := [(Reg.cfgStatus, 0x50000000)] }
     cfgState u = 5 ∧ u.host.degraded = false ∧ isNormal u = false) ∧ isNormal (cfgUp 5 0 id) = true := by decide +kernel

/-- A key record: a modulus of 4,096 bits, big-endian, and the exponent. -/
def keyBytes : List Host.Cell := [(0, 0x80), (511, 1), (0x200, 1), (0x202, 1)]

theorem witness_cfgCommands :
    let busy := { up [(Reg.cfgCmdStatus, 0x80000000)] with cfg := Cfg.reset }
    let five := cfgUp 5 0 fun c => { c with staging := keyBytes }
    (fld (0x01#32).toNat 3 0 = 1 ∧ cmdRefusal five 1 0 = none) ∧ (fld (0x02#32).toNat 3 0 = 2 ∧ cmdRefusal (cfgUp 6 0 id) 2 0 = none) ∧
    (fld (0x1F03#32).toNat 3 0 = 3 ∧ cmdRefusal five 3 31 = none) ∧ cmdRefusal five 4 0 = none ∧ cmdRefusal five 5 0 = none ∧
    cmdRefusal five 6 0 = none ∧ cmdRefusal five 7 0 = none ∧ cmdRefusal five 8 0 = none ∧
    (∀ n ∈ [1, 2, 3, 4, 5, 6, 7, 8], cmdRefusal busy n 0 = some 0x0B0C) ∧ fld (0x10#32).toNat 3 0 = 0 ∧
    9 ≤ fld (0x0F#32).toNat 3 0 ∧ 9 ≤ fld (0x09#32).toNat 3 0 := by decide +kernel

theorem witness_cfgEnds :
    let run := fun (n : Nat) (b : Bool) => cfgUp 5 0 fun c => { c with run := some ⟨n, 31, 0, false, b, false⟩ }
    ((run 4 true).cfg.run.any fun r => r.committing) = true ∧ ((run 1 false).cfg.run.any fun r => r.committing) = false ∧
    (let s := { run 5 false with regs := [(Reg.hostLink, 0x80000000), (Reg.stageSrc, 9), (Reg.stageLen, 4096)],
                                 handles := [⟨9, 4096, 0, 0, 0xFFFF, 0, 0, 0, none, []⟩] }
     s.cfg.run.isSome = true ∧ getf s Reg.stageLen 31 0 ≤ 4096 ∧
     ((findHandle s (getf s Reg.stageSrc 31 0)).any fun h => h.kind == 0 && decide (getf s Reg.stageLen 31 0 ≤ h.size) &&
       !rangeLost h 0 (getf s Reg.stageLen 31 0 - 1)) = true) ∧
    rangeLost ⟨9, 4096, 0, 0, 0xFFFF, 0, 0, 0, none, [0]⟩ 0 4095 = true ∧
    (let s := { run 3 false with regs := [(pltR 31 4, 0x80000000)] }
     s.cfg.run = some ⟨3, 31, 0, false, false, false⟩ ∧ plotState s 31 = 4) := by decide +kernel

theorem witness_stageWindow :
    (0x7FFFC#19).toNat % 4 = 0 ∧ (0x7FFF8#19).toNat % 8 = 0 ∧ cfgBusy (up []) = false ∧
    cfgBusy (up [(Reg.cfgCmdStatus, 0x80000000)]) = true := by decide +kernel

theorem witness_presence :
    let s := { cfgUp 5 0 (fun c => { c with run := some ⟨8, 0, 0, false, false, false⟩ }) with
      mgmt := { Mgmt.reset with presence := some (0x18, 0, true) }, cycle := 37500000000 }
    let u := { up [] with mgmt := { Mgmt.reset with presence := some (0x62, 0, false), jobs := [(2, ⟨0, 1, 3, 0x62⟩)] } }
    s.mgmt.presence = some (0x18, 0, true) ∧ 0 + 37500000000 ≤ s.cycle ∧ s.cfg.run ≠ none ∧
    u.mgmt.presence = some (0x62, 0, false) ∧ (getJob u 2).state = 3 ∧ u.cycle < 0 + 37500000000 := by decide +kernel

theorem witness_presence_given :
    let s := { cfgUp 5 0 (fun c => { c with run := some ⟨8, 0, 0, false, false, false⟩ }) with
      mgmt := { Mgmt.reset with presence := some (0x18, 0, true) }, cycle := 37499999999 }
    s.cfg.run.isSome = true ∧ s.power.pwrOk = true ∧ s.power.strapsPending = false ∧ 0 < 37499999999 - 62500000 ∧
    37499999999 - 62500000 + 62500000 ≤ s.cycle ∧ s.cycle < 0 + 37500000000 ∧
    s.mgmt.presence = some (0x18, 0, true) := by decide +kernel

theorem witness_gleaner :
    let s := { up [(Reg.gleanCtrl, 0x80000000)] with cfg := { Cfg.reset with masks := [(63 * 2 ^ 14, 2)] } }
    isNormal s = true ∧ isNormal (low []) = false ∧ getb s Reg.gleanCtrl 31 = true ∧ s.cfg.scanAt + 1 < 16384 + 34 * 14336 ∧
    scanFrame s.cfg.scanAt = 63 * 2 ^ 14 ∧ sitePlot s 63 = none ∧
    smGet 0 (63 * 2 ^ 14) s.cfg.frames = smGet 0 (63 * 2 ^ 14) s.cfg.golden ∧
    (smGet allMatter (63 * 2 ^ 14) s.cfg.masks).testBit (1#11).toNat = true ∧
    (smGet allMatter (63 * 2 ^ 14) s.cfg.masks).testBit (0#11).toNat = false := by decide +kernel

/-! Witnesses: the LPDDR6 tier. -/

/-- Booted, training still to end, this map of packages. -/
def beforeTraining (map : Word) : State := low [(Reg.straps, 0), (Reg.pkgMap, 0x76543210), (Reg.pkgMap + 4, map)]

/-- All thirteen packages pass but these. -/
def passedBut (l : List Nat) : List (BitVec 4) := (List.range 13).map fun p => if l.contains p then 7 else 15

theorem witness_training :
    let s := beforeTraining 0x000CBA98
    let good := fun l p => decide (((passedBut l)[p]?).getD 0 = 15)
    s.cfg.trainingEnded = false ∧ s.power.romBooted = true ∧ (passedBut []).length = 13 ∧
    (∀ l : Fin 12, physPackage s l.val < 13) ∧ (∀ l : Fin 12, good [] (physPackage s l.val) = true) ∧ fallowPackage s = 12 ∧
    good [11] (physPackage s 11) = false ∧ (∀ k : Fin 12, k ≠ 11 → good [11] (physPackage s k.val) = true) ∧
    good [11] 12 = true ∧ good [3, 12] 12 = false ∧ (∀ k : Fin 12, k < 3 → good [3, 12] (physPackage s k.val) = true) ∧
    13 ≤ fallowPackage (beforeTraining 0x000FBA98) ∧ memState (up [(Reg.memStatus, 0x20000000)]) = 1 ∧ memState s ≠ 1 := by
  decide +kernel

/-- Buffer 9 in an LPDDR6 tier in service. -/
def memUp (l : Lpddr → Lpddr) (regs : List (Nat × Word)) : State :=
  { up ([(Reg.straps, 0), (Reg.memStatus, 0x40000000), (Reg.pkgMap, 0x76543210), (Reg.pkgMap + 4, 0x000CBA98)] ++ regs) with
    handles := [⟨9, 4096, 0, 2, 0xFFFF, 0, 0, 0, none, []⟩], lpddr := l Lpddr.reset
    cfg := { Cfg.reset with trainingEnded := true } }

/-- The last granule of the buffer; a table of its bank that is full, and one that is not. -/
theorem witness_readCheck :
    let s := memUp id []
    64 * 63 < 4096 ∧ ((findHandle s 9).any fun h => decide (64 * 63 < h.size) && inLpddr s h (64 * 63)) = true ∧ memState s = 2 ∧
    s.lpddr.badGranules.contains (9, 63) = false ∧
    (memUp (fun l => { l with badGranules := [(9, 63)] }) []).lpddr.badGranules.contains (9, 63) = true ∧
    getb s Reg.memErrLast 63 = false ∧ getb (memUp id [(Reg.memErrLast + 4, 0x80000000)]) Reg.memErrLast 63 = true := by
  decide +kernel

/-- Subchannel 95 of a cold package and of a hot one, at its first refresh and one cycle before. -/
theorem witness_refresh :
    let s := { memUp id [] with cycle := 50 * 95 }
    let hot := { memUp (fun l => { l with hot := [(11, none)] }) [] with cycle := 25 * 95 }
    let due := fun (step off from_ : Nat) => off + step * ((from_ - off + step - 1) / step)
    packageHot s 11 = false ∧ packageHot hot 11 = true ∧ smGet (0, 0) 95 s.lpddr.refreshes = (0, 0) ∧
    s.cfg.trainingEnded = true ∧ s.lpddr.origin + due 4880 (50 * 95) 0 ≤ s.cycle ∧
    hot.lpddr.origin + due 2440 (25 * 95) 0 ≤ hot.cycle ∧ 50 * 95 - 1 < s.lpddr.origin + due 4880 (50 * 95) 0 ∧
    (up []).cfg.trainingEnded = false := by decide +kernel

theorem witness_neighbours :
    let s := memUp (fun l => { l with tables := [(16 * 95 + 15, [(5, 4096), (6, 4095)])] }) [(Reg.memNrt, 2)]
    (∃ n, (5, n) ∈ bankTable s 95 15 ∧ 1024 * 2 ^ getf s Reg.memNrt 1 0 ≤ n) ∧
    (∀ p ∈ bankTable s 95 15, p.1 = 6 → p.2 < 1024 * 2 ^ getf s Reg.memNrt 1 0) :=
  ⟨⟨4096, by decide +kernel, by decide +kernel⟩, by decide +kernel⟩

theorem witness_temperature :
    let s := { memUp (fun l => { l with hot := [(12, some 0)] }) [] with cycle := 1000 * 1250000 }
    hotEntry s 12 = some (some 0) ∧ hotEntry s 11 = none ∧ (0 : Nat) + 1000 * 1250000 ≤ s.cycle ∧ 12 < (List.replicate 13 80).length := by
  decide +kernel

theorem witness_spare :
    let s := memUp id []
    let going := memUp (fun l => { l with spare := some (11, 0) }) []
    (0x80000000#32).getLsbD 31 = true ∧ s.fallow.job = none ∧ s.lpddr.spare = none ∧ going.lpddr.spare = some (11, 0) ∧
    fallowPackage s = 12 ∧ fallowPackage (beforeTraining 0x000FBA98) = 15 ∧ memState s = 2 ∧ memState (beforeTraining 0) ≠ 2 ∧
    (0x8000000B#32).toNat % 16 ≤ 11 ∧ 11 < (0x8000000C#32).toNat % 16 ∧
    ({ s with fallow := { s.fallow with auto := [(2, 11, 4)] } } : State).fallow.auto.contains (2, 11, 4) = true ∧
    s.fallow.auto.contains (2, 11, 4) = false ∧ physPackage going 11 < 13 ∧ physPackage going 11 ≠ fallowPackage going ∧
    going.fallow.waiting = [] := by decide +kernel

/-! Witnesses: management packets. -/

/-- A request of this opcode, SEQUENCE 7. -/
def req (op : Nat) (payload : List Byte) : List Byte :=
  leBytes 4 (7 * 2 ^ 16 + op) ++ leBytes 4 payload.length ++ List.replicate 8 0 ++ payload

/-- A state with that request in the mailbox. -/
def boxed (s : State) (q : List Byte) : State := { s with mgmt := { s.mgmt with mbxRequest := some q } }

/-- Each opcode with a payload of a length that it takes: what its own effect asks for is met. -/
theorem witness_asks : ∀ x ∈ [(0x01, 0, false), (0x02, 0, false), (0x03, 0, false), (0x04, 8, false), (0x05, 8, false),
      (0x06, 4, false), (0x10, 12, false), (0x20, 4, true), (0x21, 8, true), (0x30, 0, true), (0x31, 4, true),
      (0x32, 4, true), (0x33, 4, true), (0x34, 4, true), (0x35, 4, true), (0x40, 0, false), (0x41, 12, false), (0x42, 8, false),
      (0x43, 0, false), (0x44, 0, false), (0x50, 24, true), (0x51, 4, true), (0x52, 4, true), (0x53, 0, true), (0x60, 0, false),
      (0x61, 4, true), (0x62, 0, false), (0x63, 0, false), (0x64, 16, true), (0x11, 4, false), (0x15, 12, true)],
    let q := req x.1 (List.replicate x.2.1 0)
    asks (boxed (up []) q) .mailbox q x.1 x.2.2 true (· == x.2.1) := by
  unfold asks stands
  decide +kernel

theorem witness_checks :
    let q := req 0x50 (List.replicate 24 0)
    let odd := req 0x50 (List.replicate 23 0)
    requestOf (up []) .mailbox = none ∧ requestOf (boxed (up []) q) .mailbox = some q ∧ qOp q ≠ 0x51 ∧
    requestOf (up []) (.mctp q) = some q ∧ overMctp (.mctp q) = true ∧ isNormal (low []) = false ∧ qReserved q = false ∧
    qReserved (req 0x150 []) = true ∧ (qLen odd == 24) = false ∧ (q.take 20).length < 16 + qLen q ∧
    remembered { boxed (up []) q with mgmt := { Mgmt.reset with mbxRequest := some q, lastMbx := some (q, [1]) } } .mailbox q = some [1] ∧
    assignedOps.contains (qOp q) = true ∧ assignedOps.contains (qOp (req 0x07 [])) = false := by decide +kernel

theorem witness_regRead :
    let q := fun off n => req 0x04 (leBytes 4 off ++ leBytes 4 n)
    qWord (q 0x0FFFFC 1) 0 + 4 * qWord (q 0x0FFFFC 1) 4 = 0x0FFFFF + 1 ∧ qWord (q 0x800000 1024) 4 = 1024 ∧
    qWord (q 2 1) 0 % 4 ≠ 0 ∧ qWord (q 0 0) 4 = 0 ∧ 1024 < qWord (q 0 1025) 4 ∧
    (∀ b ∈ [(0x000000, 0x0FFFFF), (0x100000, 0x1000FF), (0x400000, 0x4FFFFF), (0x500000, 0x5FFFFF), (0x700000, 0x7FFFFF),
      (0x800000, 0x8FFFFF)], ¬ (b.1 ≤ qWord (q 0x0FFFFC 2) 0 ∧ qWord (q 0x0FFFFC 2) 0 + 8 ≤ b.2 + 1)) ∧
    qWord (req 0x20 (leBytes 4 32)) 0 = 32 ∧ qWord (req 0x20 (leBytes 4 31)) 0 < 32 := by decide +kernel

theorem witness_actions :
    let w := fun a b => req 0x05 (leBytes 4 a ++ leBytes 4 b)
    let stage := fun off r => req 0x10 (leBytes 4 off ++ leBytes 4 r ++ [1, 2, 3, 4])
    let diag := fun addr space n => req 0x64 (leBytes 8 addr ++ leBytes 4 space ++ leBytes 4 n)
    let on := { up [] with mgmt := { Mgmt.reset with debug := true } }
    qWord (w Reg.alertCause 1) 0 = Reg.alertCause ∧ qWord (w Reg.alertEnable 1) 0 = Reg.alertEnable ∧
    qWord (w 0 1) 0 ≠ Reg.alertCause ∧ qWord (w 0 1) 0 ≠ Reg.alertEnable ∧
    qWord (stage (2 ^ 28 - 4) 0) 0 + (qLen (stage (2 ^ 28 - 4) 0) - 8) = 2 ^ 28 ∧ 2 ^ 28 < qWord (stage (2 ^ 28) 0) 0 + 4 ∧
    qWord (stage 0 1) 4 ≠ 0 ∧ qWord (req 0x21 (leBytes 4 1 ++ leBytes 4 0)) 0 % 2 ^ 28 ≠ 0 ∧ qWord (req 0x21 (leBytes 4 0 ++ leBytes 4 32)) 4 = 32 ∧
    jobRuns (up []) 3 = false ∧ jobRuns { up [] with mgmt := { Mgmt.reset with jobs := [(3, ⟨0, 1, 1, 0x61⟩)] } } 3 = true ∧
    256 ≤ qWord (diag 0 256 1) 8 ∧ qWord (diag 0 255 1) 8 < 256 ∧ qWord (diag 0 1 255) 12 ≠ 256 ∧
    63 * 2 ^ 14 < 2 ^ 20 ∧ 63 * 2 ^ 14 % 2 ^ 14 < siteFrames (63 * 2 ^ 14 / 2 ^ 14) ∧ diagBad (diag 0 0 1) on = none ∧
    on.mgmt.debug = true ∧ tierBad on 0 0 1 = false := by decide +kernel

/-- A granule of tier 2 that is uncorrectable, and a presence window that stands open. -/
theorem witness_actions_more :
    let bad := { memUp (fun l => { l with badGranules := [(9, 0)] }) [] with mgmt := { Mgmt.reset with debug := true } }
    diagBad (req 0x64 (leBytes 8 (2 * 2 ^ 48) ++ leBytes 4 0 ++ leBytes 4 1)) bad = none ∧ (up []).vrn.sealIsOpen = false ∧
    ({ Vrn.reset with sealIsOpen := true } : Vrn).sealIsOpen = true ∧ (up []).mgmt.presence = none ∧ jobRuns (up []) 2 = false := by
  decide +kernel

theorem witness_cfgPackets :
    let five := cfgUp 5 0 id
    let q := fun n w => req (0x10 + n) (leBytes 4 w)
    2 ^ 18 ≤ qWord (q 1 (2 ^ 18)) 0 ∧ fld (qWord (q 1 (2 ^ 13)) 0) 15 13 ≠ 0 ∧ fld (qWord (q 1 (2 ^ 5)) 0) 7 5 ≠ 0 ∧
    (fld (qWord (q 1 1) 0) 3 0 = 1 ∧ cmdRefusal five 1 0 = none) ∧ fld (qWord (q 1 2) 0) 3 0 ≠ 1 ∧
    cmdRefusal (up [(Reg.cfgCmdStatus, 0x80000000)]) 1 0 = some 0x0B0C := by decide +kernel

/-- A BUFFER_ALLOC request. -/
def allocReq (size w p : Nat) : List Byte := req 0x50 (leBytes 8 size ++ leBytes 4 w ++ leBytes 4 p ++ leBytes 8 0)

theorem witness_alloc :
    let s := poolUp 2 5 7 0xA0
    allocBad (allocReq 4096 0 0) s = none ∧ noPool s = false ∧ noPool (up []) = true ∧
    2 ^ 20 ≤ qWord (allocReq 4096 (2 ^ 20) 0) 8 ∧ 256 ≤ qWord (allocReq 4096 0 256) 12 ∧
    fld (qWord (allocReq 4096 (3 * 2 ^ 18) 0) 8) 19 18 = 3 ∧ declNat (allocReq 0 0 0) 16 8 = 0 ∧
    2 ^ 44 < declNat (allocReq (2 ^ 44 + 1) 0 0) 16 8 ∧ declNat (allocReq (2 ^ 44) 0 0) 16 8 = 2 ^ 44 ∧
    fld (qWord (allocReq 4096 (2 ^ 18) 32) 8) 19 18 = 1 ∧ 32 ≤ qWord (allocReq 4096 (2 ^ 18) 32) 12 ∧
    (memberList s).length * (1472 * 2 ^ 14) < pagesReserved s + pagesOf (2 ^ 44) := by decide +kernel

theorem witness_alloc_full (h : Handle) :
    1048576 ≤ ({ poolUp 2 5 7 0xA0 with handles := List.replicate 1048576 h } : State).handles.length :=
  Nat.le_of_eq List.length_replicate.symm

theorem witness_free :
    let s := { poolUp 2 5 7 0xA0 with handles := [⟨9, 4096, 0, 2, 0xFFFF, 0, 0, 5, none, []⟩] }
    let used := { s with regs := (fecR 0, 0x80000000) :: (lnkR 0 0x10C, 9) :: s.regs }
    qWord (req 0x51 (leBytes 4 9)) 0 = 9 ∧ (findHandle s 9).isSome = true ∧ findHandle s 8 = none ∧ handleUsed s 9 = false ∧
    noPool s = false ∧ (findHandle s 9).any (fun h => h.kind == 0) = true ∧ handleUsed used 9 = true := by decide +kernel

/-! Witnesses: MCTP control, SPDM and the Vernier. -/

theorem witness_spdmLength : 0 < Config.spdmCertLen ∧ (0#16).toNat < Config.spdmCertLen ∧ (7#3) ≠ 0 :=
  ⟨Nat.succ_pos _, Nat.succ_pos _, by decide⟩

theorem witness_spdm : (up []).power.romBooted = true ∧ State.reset.power.romBooted = false ∧
    (0x85#8).toNat ∉ [0x84, 0xE1, 0xE3, 0x81, 0x82, 0x83, 0xE0] ∧ (0x84#8).toNat ∈ [0x84, 0xE1, 0xE3, 0x81, 0x82, 0x83, 0xE0] ∧
    (up []).mgmt.spdmNegotiated = false ∧ ({ Mgmt.reset with spdmNegotiated := true } : Mgmt).spdmNegotiated = true ∧
    7 < (8#8).toNat ∧ (254#8).toNat < 255 ∧ 1 ≤ (1#8).toNat ∧ (7#8).toNat ≤ 7 := by decide +kernel

theorem witness_energy :
    let s := { up [] with vrn := { Vrn.reset with msSamples := 999 } }
    s.vrn.powered = true ∧ 1000 ≤ s.vrn.msSamples + 1 ∧ (up []).vrn.msSamples + 1 < 1000 ∧
    ({ Vrn.reset with powered := false } : Vrn).powered = false := by decide +kernel

theorem witness_recording :
    let s := { up [] with vrn := { Vrn.reset with fwRunning := true, upUs := 1000000, sampleUs := 1000000 } }
    s.vrn.powered = true ∧ s.vrn.fwRunning = true ∧ s.vrn.upUs % 1000000 = 0 ∧ s.vrn.sampleUs ≠ 0 ∧
    (up []).vrn.fwRunning = false ∧ (up []).vrn.replacing = none ∧ (up []).vrn.stored = none ∧ (up []).vrn.sampleUs = 0 ∧
    ({ Vrn.reset with stored := some [1] } : Vrn).stored = some [1] := by decide +kernel

theorem witness_seal :
    let s := { up [] with vrn := { Vrn.reset with replacing := some (2, [1]), sealIsOpen := true },
                          mgmt := { Mgmt.reset with jobs := [(2, ⟨0, 1, 1, 0x43⟩)] } }
    s.vrn.powered = true ∧ s.vrn.replacing = some (2, [1]) ∧ s.vrn.fwRunning = false ∧ jobRuns s 2 = true ∧
    s.vrn.sealIsOpen = true ∧ (up []).vrn.sealIsOpen = false := by decide +kernel

theorem witness_vernierPackets :
    let s := { up [] with vrn := { Vrn.reset with records := [[2], [1]], nextInterval := 2, fwRunning := true } }
    let q := fun first => req 0x41 (leBytes 8 first ++ leBytes 4 5)
    s.vrn.records = [2] :: [[1]] ∧ (up []).vrn.records = [] ∧
    s.vrn.nextInterval - min s.vrn.nextInterval 2097152 ≤ declNat (q 0) 16 8 ∧ declNat (q 1) 16 8 < s.vrn.nextInterval ∧
    s.vrn.nextInterval ≤ declNat (q 2) 16 8 ∧ s.vrn.marks.length < 4 ∧ 4 ≤ (List.replicate 4 (⟨1, 2, 3⟩ : Mark)).length ∧
    2097153 - min 2097153 2097152 = 1 := by decide +kernel

/-! Witnesses: faults, wear and fallow capacity. -/

/-- Tile 1151 with this TILE_ID.STATE, tile 1150 fallow, and this policy. -/
def tileUp (st policy : Nat) (x : Tile) : State :=
  { up [(Reg.straps, 0), (Reg.fltPolicy, BitVec.ofNat 32 policy), (tileR 1151 0, BitVec.ofNat 32 (st * 2 ^ 29)),
      (tileR 1150 0, 0x40000000)] with tiles := [(1151, x)] }

/-- A request that names the last tile. -/
def lastTile : List Byte := leBytes 4 0x231F

theorem witness_tileRetire :
    let s := tileUp 0 0 Tile.reset
    qWord (req 0x32 lastTile) 0 = 1151 / 32 * 256 + 1151 % 32 ∧ tileState s 1151 ≤ 1 ∧ jobRuns s 1 = false ∧
    2 ≤ tileState (tileUp 2 0 Tile.reset) 1151 ∧ 65536 ≤ qWord (req 0x32 (leBytes 4 65536)) 0 ∧
    36 ≤ qWord (req 0x32 (leBytes 4 0x2400)) 0 / 256 ∧ 32 ≤ qWord (req 0x32 (leBytes 4 0x20)) 0 % 256 ∧
    jobRuns { s with mgmt := { Mgmt.reset with jobs := [(1, ⟨0, 1, 1, 0x32⟩)] } } 1 = true ∧
    (s.fallow.auto.contains (1, 1151, 2)) = false ∧
    ({ s with fallow := { s.fallow with auto := [(1, 1151, 2)] } } : State).fallow.auto.contains (1, 1151, 2) = true := by
  decide +kernel

theorem witness_tileRetired :
    let s := tileUp 3 0 { Tile.reset with retiring := some ⟨some 1150, 2, false, 5⟩ }
    (getTile s 1151).retiring = some ⟨some 1150, 2, false, 5⟩ ∧ tileState s 1151 = 3 ∧ tileIdle s 1151 = true ∧
    (getTile (tileUp 3 0 Tile.reset) 1151).retiring = none ∧
    tileIdle (tileUp 3 0 { Tile.reset with threads := [(d0, 2)] }) 1151 = false := by decide +kernel

theorem witness_tileReset :
    tileState (tileUp 1 0 Tile.reset) 1151 = 1 ∧ tileState (tileUp 4 0 Tile.reset) 1151 = 4 ∧
    (tileState (tileUp 2 0 Tile.reset) 1151 = 2 ∧ jobRuns (tileUp 2 0 Tile.reset) 3 = false) ∧
    (tileState (tileUp 0 0 { Tile.reset with threads := [(d0, 2)] }) 1151 = 0 ∧
      tileIdle (tileUp 0 0 { Tile.reset with threads := [(d0, 2)] }) 1151 = false) ∧
    jobRuns { up [] with mgmt := { Mgmt.reset with jobs := [(3, ⟨0, 1, 1, 0x61⟩)] } } 3 = true ∧
    qWord (req 0x61 lastTile) 0 = 1151 / 32 * 256 + 1151 % 32 := by decide +kernel

theorem witness_coreSpare :
    let s := up []
    let going := { s with fallow := { s.fallow with coreSparing := some ⟨7, false, false⟩ } }
    qWord (req 0x34 (leBytes 4 7)) 0 = 7 ∧ 8 ≤ qWord (req 0x34 (leBytes 4 8)) 0 ∧ noCore s = false ∧ jobRuns s 1 = false ∧
    noCore { s with fallow := { s.fallow with cores := [(8, 2)] } } = true ∧ fallowCore going = some 8 ∧
    going.fallow.coreSparing = some ⟨7, false, false⟩ ∧ going.fallow.waiting = [] ∧ (getPort going 7).core.xInit.length ≤ 8192 ∧
    fallowCore { s with fallow := { s.fallow with cores := [(8, 2)] } } = none ∧
    ({ s with fallow := { s.fallow with auto := [(3, 7, 4)] } } : State).fallow.auto.contains (3, 7, 4) = true := by decide +kernel

theorem witness_relocate :
    let s := up []
    let going := { s with fallow := { s.fallow with relocating := some (31, true) } }
    qWord (req 0x35 (leBytes 4 31)) 0 = 31 ∧ 32 ≤ qWord (req 0x35 (leBytes 4 32)) 0 ∧ fallowSite s = some 32 ∧
    fallowSite { s with fallow := { s.fallow with sites := [(32, 2), (33, 2)] } } = none ∧ plotLoads s 31 = false ∧
    plotLoads { s with cfg := { Cfg.reset with run := some ⟨3, 31, 0, false, false, false⟩ } } 31 = true ∧
    going.fallow.relocating = some (31, true) ∧ plotState going 31 ≠ 1 ∧ plotState going 31 ≠ 2 ∧
    plotState (plotUp 2 Plot.reset []) 31 = 2 ∧ smWf (fun _ => 0) going.cfg.golden = true ∧ fallowSite going = some 32 ∧
    ({ s with fallow := { s.fallow with auto := [(4, 31, 4)] } } : State).fallow.auto.contains (4, 31, 4) = true := by decide +kernel

theorem witness_tileFault :
    let s := { withDesc (tileUp 0 0 Tile.reset) 0 { runAt .running with tiles := [1151] } with cycle := 9 }
    (getTile s 1151).selfTest = false ∧ tileState s 1151 ≠ 4 ∧ attemptsOn s 1151 = [d0] ∧
    attemptsOn (tileUp 0 0 Tile.reset) 1151 = [] ∧
    (let t := tileUp 2 0 { Tile.reset with selfTest := true, faults := [3, 2, 1] }
     (getTile t 1151).selfTest = true ∧ 3 ≤ (getTile t 1151).faults.length ∧ tileState t 1151 ≤ 2 ∧
     ([2, 1] : List Nat).length < 3 ∧ 3 ≤ tileState (tileUp 3 0 Tile.reset) 1151) := by decide +kernel

/-- Thresholds of 0x500 to warn and 0x600 to retire. -/
theorem witness_wear :
    let s := fun policy => { tileUp 0 policy Tile.reset with regs := (Reg.fltThresh, 0x50060000) :: (tileUp 0 policy Tile.reset).regs }
    getf (s 0) Reg.fltThresh 31 20 = 0x500 ∧ getf (s 0) Reg.fltThresh 19 8 = 0x600 ∧ getf (s 0) (wearR 1151) 31 16 < 0x500 ∧
    0x500 ≤ (0x5FF#16).toNat ∧ 0x600 ≤ (0x600#16).toNat ∧ tileState (s 0) 1151 ≤ 1 ∧ policyMode (s 2) 1 = 2 ∧ policyMode (s 1) 1 = 1 ∧
    (s 1).fallow.proposals.length < 16 := by decide +kernel

theorem witness_rowSpare :
    let s := fun used => tileUp 0 0xA { Tile.reset with spareUsed := [(15, used)] }
    policyMode (s 0) 5 = 2 ∧ policyMode (tileUp 0 0 Tile.reset) 5 ≠ 2 ∧ smGet 0 15 (getTile (s 40) 1151).spareUsed = 40 ∧
    41 ≤ smGet 0 15 (getTile (s 41) 1151).spareUsed ∧ tileState (s 41) 1151 ≤ 1 ∧ policyMode (s 41) 1 = 2 := by decide +kernel

theorem witness_approve :
    let s := { up [] with fallow := { Fallow.reset with proposals := [⟨7, 1, 2, 1151⟩] } }
    qWord (req 0x31 (leBytes 4 7)) 0 = 7 ∧ s.fallow.proposals.find? (·.id == 7) = some ⟨7, 1, 2, 1151⟩ ∧
    (∀ p, p ∈ (up []).fallow.proposals → p.id ≠ 7) ∧ jobRuns s 1 = false ∧ s.fallow.waiting = [] ∧
    16 ≤ qWord (req 0x33 (leBytes 4 16)) 0 ∧ qWord (req 0x33 (leBytes 4 11)) 0 ≤ 11 := by decide +kernel

/-! Witnesses: rest, roles in the pool, windows and copies. -/

theorem witness_quiet : quiet (up []) := ⟨⟨by unfold still; decide +kernel, by decide +kernel⟩, by decide +kernel⟩

/-- The steward of a formed pool whose deputy is another module, and a member of it. -/
theorem witness_steward :
    let s := poolUp 2 5 7 0xA0
    let m := poolUp 2 7 5 0xA0
    isSteward s = true ∧ deputyId s ≠ ownId s ∧ isSteward m = false ∧ noPool m = false ∧ deputyId m = ownId m ∧
    (∀ x ∈ [s, m], allocBad (allocReq 4096 0 0) x = none) ∧ isMember s 7 = true ∧ (7 : Nat) ≠ ownId s ∧ isMember s 6 = false ∧
    qOp (allocReq 4096 0 0) = 0x50 ∧ qOp (req 0x51 (leBytes 4 9)) = 0x51 ∧
    (allocBad (allocReq 0 0 0) s).isSome = true ∧ (∀ h ∈ s.handles, h.id ≠ 1) ∧ s.handles.length < 1048576 := by decide +kernel

/-- What another module's answers can be. -/
theorem witness_answers : (⟨0, [1, 0, 0, 0], false⟩ : PoolAnswer).code = 0 ∧ (⟨0x0803, [], false⟩ : PoolAnswer).code ≠ 0 ∧
    (⟨0, [], true⟩ : PoolAnswer).busy = true ∧ ofOwn (.mctp []) := ⟨rfl, by decide, rfl, trivial⟩

theorem witness_reservedCommand : fld (qWord (req 0x11 (leBytes 4 0)) 0) 3 0 = 0 ∧ 9 ≤ fld (qWord (req 0x11 (leBytes 4 9)) 0) 3 0 ∧
    ¬ (2 ^ 18 ≤ qWord (req 0x11 (leBytes 4 9)) 0 ∨ fld (qWord (req 0x11 (leBytes 4 9)) 0) 15 13 ≠ 0 ∨
      fld (qWord (req 0x11 (leBytes 4 9)) 0) 7 5 ≠ 0) := by decide +kernel

/-- A running TALLY of one element of a window handle of plot 31; a request below its window, and one after the last. -/
theorem witness_windowSlot :
    let x := BitVec.ofNat 1024 (10 + 2 ^ 896 + 2 ^ 928)
    let r := { runAt .running with counts := [1, 1, 1, 1] }
    let s := fun (r : Run) => { plotUp 1 Plot.reset [(Reg.straps, 5)] with
      handles := [⟨9, 4096, 1, 0, 0xFFFF, 31, 64, 5, none, []⟩]
      alms := [(1, { Alm.reset with subs := [⟨0, 2, 0, [9], [x], [r], false, none, 0, 0, 0⟩] })] }
    let slot := fun (r : Run) (addr : Nat) => (findDesc (s r) d0).bind fun q => windowSlot (s r) q.1 x q.2.2 31 addr 4
    slot r 64 = some 0 ∧ slot r 63 = none ∧ slot { r with windowNext := [(0, 72)] } 68 = none ∧
    slot { r with windowNext := [(0, 72)] } 72 = some 0 ∧ plotServes (s r) 31 = true := by decide +kernel

/-- A tier move to LPDDR6 that has not begun, of a page in near store; and one whose copies are done. -/
theorem witness_tier_copies :
    let h : Handle := ⟨9, 4096, 0, 1, 0xFFFF, 0, 0, 0, none, []⟩
    let s := { tierState 0x0A h 2 with places := [(pageKey 9 0, ⟨0, 1, 7⟩)] }
    livePages h = [0] ∧ (placeOf s h 0).module = ownId s ∧ (placeOf s h 0).tier = 1 ∧ lpddrRoom s = true ∧
    heldNear s 9 = false ∧ pageFree s (some d0) 9 0 = true ∧ s.copies = [] ∧ bitOf 0x0A 3 = true ∧ bitOf 0x0A 4 = false ∧
    (runAt .running).tierBegun = false ∧ ({ runAt .running with tierBegun := true } : Run).tierBegun = true ∧
    (let l := { h with lost := [0] }; l.lost ≠ [] ∧ fld 0x0B 1 0 ≠ 2) := by decide +kernel

/-- The reads of a pool-scope FENCE are out with the count at 2. -/
theorem witness_fence_reads :
    let r := { runAt .running with fencePending := [3], fenceIssued := some 2 }
    (∀ k ∈ r.fencePending, k = 3) ∧ (∃ k ∈ ({ r with fencePending := [3, 4] } : Run).fencePending, k ≠ 3) ∧
    (2 : Nat) ≤ ({ Pool.reset with writeNo := 2 } : Pool).writeNo ∧ (runAt .running).pinNew = none ∧
    ({ r with pinNew := some (9, none) } : Run).pinNew = some (9, none) := by decide +kernel

/-- An attempt that runs keeps its thread when the waiting ones leave a tile. -/
theorem witness_tileReset_running :
    let s := { withDesc (tileUp 0 0 { Tile.reset with threads := [(d0, 2)] }) 0 { runAt .running with tiles := [1151] } with free := 0 }
    tileState s 1151 = 0 ∧ tileIdle (leaveWaiting s 1151) 1151 = false ∧ jobRuns s 3 = false ∧
    tileIdle (leaveWaiting (withDesc (tileUp 0 0 { Tile.reset with threads := [(d0, 2)] }) 0 { runAt .waiting with tiles := [1151] })
      1151) 1151 = true := by decide +kernel

/-- R199: from (0, 0) to (2, 1) by columns first and by rows first. -/
theorem test_routes : routeTiles 65 false 68 0 = [32, 64, 65] ∧ routeTiles 65 true 68 0 = [1, 33, 65] ∧ tileHops 0 65 = 3 := by
  decide +kernel

/-! Steps and values that the manual works out itself. -/

/-- R6: the window of tile (17, 15), and the last one. -/
theorem test_tile_windows : tileR (32 * 17 + 15) 0 = 0x122F000 ∧ tileR 1151 0 = 0x147F000 := by decide +kernel

/-- The k-steps of the worked dot product of chapter 02: k = 0 and 1, then all eight in either overflow mode. -/
def dot (strict inf : Bool) (n : Nat) : Nat :=
  let a := [0x3FC00000, 0x3FA00000, 0x71C00000, 0xBF000000, 0x3F800000, 0x7FC12345, 0x3E800000, 0xC0000000]
  let b := [0x40000000, 0x3F400000, 0x4E800000, 0x40400000, 0x3F800000, 0x40000000, 0x40800000, 0x3F000000]
  (((List.range 8).zip (a.zip b)).take n).foldl
    (fun x t => (cellStep ⟨0, 1, strict, inf⟩ 0 x [(t.1, decodeNum 1 t.2.1, decodeNum 1 t.2.2)]).1) 0

theorem test_dot_fast : dot false true 1 = 0x40400000 ∧ dot false true 2 = 0x407C0000 ∧ dot false true 3 = 0x7F800000 ∧
    dot false true 5 = 0x7F800000 ∧ dot false true 8 = 0x7FC00000 ∧ dot false false 3 = 0x7F7FFFFF ∧
    dot false false 5 = 0x7F7FFFFF ∧ dot false false 8 = 0x7FC00000 := by decide +kernel

theorem test_dot_strict : dot true true 2 = 0x407C0000 ∧ dot true true 3 = 0x7F800000 ∧ dot true true 5 = 0x7F800000 ∧
    dot true false 3 = 0x7F7FFFFF ∧ dot true false 5 = 0x7F7FFFFF ∧ dot true false 8 = 0x7FC00000 := by decide +kernel

/-- The two short FP32 passes of chapter 03: L = 3 and D = 38. -/
theorem test_pass_times :
    let p := { onePass with aFmt := 1, bFmt := 1, accFmt := 1, outFmt := 1, kSteps := 64, mExt := 32, nExt := 32 }
    stepCycles p = 1 ∧ passLatency p = 3 ∧ drainCycles p = 38 := by decide +kernel

/-- The hazard of R120: FADD V5, V3, V4 at 0x023, one cycle before V3's FMUL lands. -/
theorem test_ve_hazard :
    let s := veState fun v => { v with checking := true, pc := 0x23, cyc := 3, pend := [⟨4, .v 3, List.replicate 64 0, 2 ^ 64 - 1, 0⟩] }
    (match exec (.fadd 0 5 3 4) s with
      | .next t => (getReg t (tileR 0 0x84)).toNat
      | _ => 0) = 0xA230C200 := by decide +kernel

/-- The same without checking: V3 still reads 1.0, so V5 is to become 2.0. -/
theorem test_ve_early_read :
    let s := veState fun v => { v with pc := 0x23, cyc := 3, v := [(3, List.replicate 64 0x3F800000), (4, List.replicate 64 0x3F800000)],
                                       pend := [⟨4, .v 3, List.replicate 64 0x40C00000, 2 ^ 64 - 1, 0⟩] }
    (match exec (.fadd 0 5 3 4) s with
      | .next t => (getTile t 0).ve.pend.any fun p => p.dest == .v 5 && p.lanes == List.replicate 64 0x40000000
      | _ => false) = true := by decide +kernel

/-- The table under R404: tier offset 0x1_0000_0040 in each order. -/
theorem test_row_orders :
    let p := fun o => granulePlace o 0x100000040
    ((p 0).sub, (p 0).bank, (p 0).row) = (36, 11, 1456) ∧ ((p 1).sub, (p 1).bank, (p 1).row) = (4, 8, 17476) ∧
    ((p 2).sub, (p 2).bank, (p 2).row) = (66, 5, 1456) := by decide +kernel

/-- Cycle 4,660 at phase 11,744,051 (R315). -/
theorem test_count : mtrCount { up [] with meridian := ⟨4660, 11744051, 0, 0, none, none, 0, false, false⟩ } = 0x1234B33333 := by
  decide +kernel

/-- The window example of chapter 08: window 3 on 36,864 bytes, OFFSET 0x8000. -/
theorem test_window :
    let s := { up [(winR 0 3 0, 0x1003), (winR 0 3 4, 0x80000000), (winR 0 3 8, 0x8000)] with
      handles := [⟨0x1003, 36864, 0, 2, 0xFFFF, 0, 0, 0, none, []⟩],
      mem := [(0x1003 * 2 ^ 44 + 36860, 1), (0x1003 * 2 ^ 44 + 36863, 4)] }
    (match exec (.windowAccess 0 3 0x0FFC (.read 4)) s with
      | .next t => t.host.readBytes == [1, 0, 0, 4] && !getb t (winR 0 3 4) 17
      | _ => false) = true ∧
    (match exec (.windowAccess 0 3 0x1000 (.read 4)) s with
      | .next t => t.host.readBytes == [0xFF, 0xFF, 0xFF, 0xFF] && getb t (winR 0 3 4) 17
      | _ => false) = true := by decide +kernel

/-- The mailbox example of chapter 13: REG_READ of DOME_THERMAL, and the same with COUNT 0. -/
theorem test_reg_read :
    let q := fun n => leBytes 4 0x01020004 ++ leBytes 4 8 ++ List.replicate 8 0 ++ leBytes 4 0x110 ++ leBytes 4 n
    let reply := fun n => match exec (.regRead .mailbox) (boxed (up [(Reg.thermal, 0x47202900)]) (q n)) with
      | .next t => [getReg t 0x1010, getReg t 0x1014, getReg t 0x1018, getReg t 0x101C, getReg t 0x3000]
      | _ => []
    reply 1 = [0x01020104, 4, 0, 0, 0x47202900] ∧ reply 0 = [0x01020104, 0x03050000, 4, 0, 0] := by decide +kernel

/-- The marker of chapter 14's example: JOB 0x22 at 350,000 µs and 5,000,665,000 mJ. -/
theorem test_mark :
    let s := { up [] with vrn := { Vrn.reset with fwRunning := true, joules := 5000665000 * 10 ^ 15, sampleUs := 350000 } }
    (match exec (.vernierMark .mailbox) (boxed s (req 0x42 (leBytes 8 0x22))) with
      | .next t => t.vrn.marks
      | _ => []) = [⟨0x22, 0x12A1017A8, 0x55730⟩] := by decide +kernel

/-- The log entry of chapter 15's example: tile (5, 20) retired for wear, (5, 21) in its place. -/
theorem test_retired_entry :
    let t := logWrite (up []) 4 0x0F05 180 (1 * 2 ^ 32 + 181)
    getReg t 0x840000 = 0x00040F05 ∧ get64 t 0x840010 = 180 ∧ get64 t 0x840018 = 0x1000000B5 ∧ getReg t Reg.logHead = 1 := by
  decide +kernel
end Sys2Proof.Tests
end

section
/-!
The vector engine's issue, said once for every instruction that touches no memory and runs on (R110, R120), and with it the
special functions, the tree reductions and LBCAST (R113, R114, R116).
-/
namespace Sys2Proof.Machine
open Sys2Proof Sys2Proof.Claims

/-! Writes landing leave the engine's clock and its checker alone. -/

@[simp] theorem Ve.land_cyc (ve : Ve) (p : VePend) : (ve.land p).cyc = ve.cyc := by
  unfold Ve.land; split <;> rfl

@[simp] theorem Ve.land_checking (ve : Ve) (p : VePend) : (ve.land p).checking = ve.checking := by
  unfold Ve.land; split <;> rfl

theorem Ve.foldl_land_cyc (l : List VePend) (ve : Ve) : (l.foldl Ve.land ve).cyc = ve.cyc := by
  induction l generalizing ve with
  | nil => rfl
  | cons p l ih => rw [List.foldl_cons, ih, Ve.land_cyc]

theorem Ve.foldl_land_checking (l : List VePend) (ve : Ve) : (l.foldl Ve.land ve).checking = ve.checking := by
  induction l generalizing ve with
  | nil => rfl
  | cons p l ih => rw [List.foldl_cons, ih, Ve.land_checking]

@[simp] theorem Ve.settle_cyc (ve : Ve) : ve.settle.cyc = ve.cyc := Ve.foldl_land_cyc _ _

@[simp] theorem Ve.settle_checking (ve : Ve) : ve.settle.checking = ve.checking := Ve.foldl_land_checking _ _

theorem veNow_checking (s : State) (t : Nat) : (veNow s t).1.checking = (getTile s t).ve.checking :=
  Ve.settle_checking _

/-! The checker lets a scheduled instruction pass. -/

/-- A register instruction whose sources have no pending write, and whose destination none that takes effect together with
its own, meets no trap (R120). -/
theorem veHazard_eq_none {ve : Ve} {a : VeAction} (hmem : a.mem = none)
    (hclear : ∀ p ∈ ve.pend, p.dest ∉ a.reads ∧ (a.dest = some p.dest → p.due ≠ ve.cyc + a.lat)) :
    veHazard ve a = none := by
  have hreads : ∀ d ∈ a.reads, ve.pend.filter (fun p => decide (p.dest = d)) = [] := fun d hd =>
    List.filter_eq_nil_iff.mpr fun p hp he => (hclear p hp).1 (of_decide_eq_true he ▸ hd)
  have hfind : (a.reads.find? fun d => decide
      (0 < (ve.pend.filter fun p => decide (p.dest = d)).foldl (fun x p => max x (p.due - ve.cyc)) 0)) = none :=
    List.find?_eq_none.mpr fun d hd => by simp [hreads d hd]
  cases hdest : a.dest with
  | none => simp only [veHazard, hfind, hmem, hdest]
  | some d =>
    have hwrite : ∀ p ∈ ve.pend, p.dest = d → p.due ≠ ve.cyc + a.lat := fun p hp he =>
      (hclear p hp).2 (he ▸ hdest)
    simpa [veHazard, hfind, hmem, hdest] using hwrite

/-- A scheduled register instruction passes the checker, on or off. -/
theorem checker_passes {s : State} {t : Nat} {a : VeAction} (hmem : a.mem = none)
    (hsch : veScheduled s t a.reads a.dest a.lat) :
    (if (veNow s t).1.checking then veHazard (veNow s t).1 a else none) = none := by
  rcases hsch with hoff | hclear
  · simp [veNow_checking, hoff]
  · simp [veHazard_eq_none hmem hclear]

/-! One register instruction issued. -/

/-- The instruction reads `reads`, writes `dst` with what `val` computes `lat` cycles later and goes on. -/
def regAction (reads : List VeDest) (dst : VeDest) (lat : Nat) (val : Ve → VeVal) : VeAction :=
  ⟨reads, none, some dst, lat, fun ve _ => val ve, .plain⟩

/-- A scheduled register instruction on a running engine queues its result and raises its flags, and nothing else of the
module changes (R110, R112). -/
theorem veStep_regAction {s : State} {t : Nat} {reads : List VeDest} {dst : VeDest} {lat : Nat} {val : Ve → VeVal}
    (hrun : veRuns s t) (hsch : veScheduled s t reads (some dst) lat) :
    veStep t (regAction reads dst lat val) s =
      (let x := val (veNow s t).1
       veAfter s t { (veNow s t).1 with
         pend := (veNow s t).1.pend ++ [⟨(veNow s t).1.cyc + lat, dst, x.lanes, x.mask, x.addr⟩]
         flags := (veNow s t).1.flags ||| x.flags } (veNow s t).2) := by
  obtain ⟨r, hr⟩ := Option.isSome_iff_exists.mp hrun
  have hpass := checker_passes (a := regAction reads dst lat val) rfl hsch
  have hnow : settleStores (getTile s t).ve.settle (getTile s t).store (getTile s t).ve.settle.cyc = veNow s t := by
    rw [Ve.settle_cyc]; rfl
  simp only [veStep, hr, veIssue, hnow, hpass]
  rfl

theorem laneTree_eq (f : Word → Word → Word × Nat) (l : List Word) :
    laneTree f l = ⟨List.replicate 64 ((treeUp f 6 l 0).1.headD 0), 0, 0, (treeUp f 6 l 0).2⟩ := by
  simp only [laneTree]

/-- The tree's result in every lane, `lat` cycles later (R114). -/
theorem veStep_laneTree {s : State} {t : Nat} {vd va lat : Nat} (f : Word → Word → Word × Nat)
    (hrun : veRuns s t) (hsch : veScheduled s t [.v va] (some (.v vd)) lat) :
    veStep t (regAction [.v va] (.v vd) lat fun ve => laneTree f (ve.getV va)) s =
      veWrites s t lat vd (List.replicate 64 ((treeUp f 6 ((veNow s t).1.getV va) 0).1.headD 0))
        (treeUp f 6 ((veNow s t).1.getV va) 0).2 := by
  rw [veStep_regAction hrun hsch]
  simp only [laneTree_eq, veWrites]

/-- A one-source lane instruction: its lane function in every lane. -/
theorem veStep_actR1 {s : State} {t : Nat} {lat : Nat} {vd va : BitVec 6} (f : Word → Word × Nat) (hrun : veRuns s t)
    (hsch : veScheduled s t [.v va.toNat] (some (.v vd.toNat)) lat) :
    veStep t (actR1 lat f vd.toNat va.toNat) s = veLane s t lat (fun a _ => f a) vd va va :=
  veStep_regAction (val := fun ve => veLanes2 (fun a _ => f a) (ve.getV va.toNat) (ve.getV va.toNat)) hrun hsch

/-- LBCAST: one lane in every lane. -/
theorem veStep_actLbcast {s : State} {t : Nat} {vd va lane : Nat} (hrun : veRuns s t)
    (hsch : veScheduled s t [.v va] (some (.v vd)) 2) :
    veStep t (actLbcast vd va lane) s =
      veWrites s t 2 vd (List.replicate 64 (((veNow s t).1.getV va)[lane]?.getD 0)) 0 := by
  have hlane : (((veNow s t).1.getV va).drop lane).headD 0 = ((veNow s t).1.getV va)[lane]?.getD 0 := by
    rw [List.headD_eq_head?_getD, List.head?_drop]
  rw [← hlane]
  exact veStep_regAction (val := fun ve => ⟨List.replicate 64 (((ve.getV va).drop lane).headD 0), 0, 0, 0⟩) hrun hsch

end Sys2Proof.Machine

namespace Sys2Proof.Claims
open Sys2Proof Sys2Proof.Machine

/-- Settles O8: each instruction is a register instruction, so `veStep_regAction` says the whole next state and what is left
is what its lanes are. -/
theorem veSpecialAndTrees : Obligations.VeSpecialAndTrees := by
  intro s t vd va hrun
  refine ⟨fun h => ⟨?frcp, ?frsq⟩, fun h => ⟨?fexp2, ?flog2⟩, fun h => ?ftanh, fun h => ?lsum, fun h => ?lmax,
    fun lane h => ?lbcast⟩
  case frcp => exact congrArg _ (veStep_actR1 (laneFun frcpNum) hrun h)
  case frsq => exact congrArg _ (veStep_actR1 (laneFun frsqNum) hrun h)
  case fexp2 => exact congrArg _ (veStep_actR1 (laneFun fexp2Num) hrun h)
  case flog2 => exact congrArg _ (veStep_actR1 (laneFun flog2Num) hrun h)
  case ftanh => exact congrArg _ (veStep_actR1 (laneFun ftanhNum) hrun h)
  case lsum => exact congrArg _ (veStep_laneTree laneAdd hrun h)
  case lmax => exact congrArg _ (veStep_laneTree (lanePick true) hrun h)
  case lbcast => exact congrArg _ (veStep_actLbcast hrun h)

end Sys2Proof.Claims
end

section
/-!
LPDDR6: the end of training and package sparing (R396 to R398, R404, R411, R413). Both replace a package by the fallow one
and record a memory event; each of these is said once, and the outcomes are read off them.
-/
namespace Sys2Proof.Machine
open Sys2Proof Sys2Proof.Claims

section Fields
variable {s t : State} {o p hi lo hi' lo' v : Nat}

/-! Fields of register words. -/

theorem getf_congr (h : getReg t o = getReg s o) (h' : getReg t (o + 4) = getReg s (o + 4)) :
    getf t o hi lo = getf s o hi lo := by
  simp only [getf, get64, h, h']

theorem getf_congr_low (hh : hi < 32) (h : getReg t o = getReg s o) : getf t o hi lo = getf s o hi lo := by
  simp only [getf, hh, if_true, h]

theorem getb_congr {i : Nat} (hi : i < 32) (h : getReg t o = getReg s o) : getb t o i = getb s o i :=
  congrArg (· == 1) (getf_congr_low hi h)

/-- A field put into a number leaves the bits of a field apart from it. -/
theorem fld_putFld_apart {n : Nat} (hl : lo ≤ hi) (h : hi < lo' ∨ hi' < lo) (hl' : lo' ≤ hi') :
    fld (putFld n hi lo v) hi' lo' = fld n hi' lo' := by
  refine Nat.eq_of_testBit_eq fun i => ?_
  simp only [fld, Nat.testBit_mod_two_pow, Nat.testBit_shiftRight, testBit_putFld]
  by_cases hi : i < hi' - lo' + 1
  · rw [if_neg (by omega)]
  · simp [hi]

/-- A field of a low word set leaves every other field: of another register, or of other bits of its own. -/
theorem getf_setf_apart (hh : hi < 32) (hh' : hi' < 32) (hl : lo ≤ hi) (hl' : lo' ≤ hi')
    (h : p ≠ o ∨ hi < lo' ∨ hi' < lo) : getf (setf s o hi lo v) p hi' lo' = getf s p hi' lo' := by
  by_cases hp : p = o
  · subst hp
    simp only [getf, hh', if_true, getReg_setf_self hh, BitVec.toNat_ofNat]
    rw [Nat.mod_eq_of_lt (putFld_lt hh hl (getReg s p).isLt), fld_putFld_apart hl (h.resolve_left (· rfl)) hl']
  · exact getf_congr_low hh' (getReg_setf_ne hh hp)

theorem getb_setf_apart {i : Nat} (hh : hi < 32) (hi' : i < 32) (hl : lo ≤ hi) (h : p ≠ o ∨ hi < i ∨ i < lo) :
    getb (setf s o hi lo v) p i = getb s p i :=
  congrArg (· == 1) (getf_setf_apart hh hi' hl le_rfl h)

theorem getf_setb_apart {i : Nat} {b : Bool} (hi : i < 32) (hh' : hi' < 32) (hl' : lo' ≤ hi')
    (h : p ≠ o ∨ i < lo' ∨ hi' < i) : getf (setb s o i b) p hi' lo' = getf s p hi' lo' :=
  getf_setf_apart hi hh' le_rfl hl' h

theorem getb_setb_apart {i j : Nat} {b : Bool} (hi : i < 32) (hj : j < 32) (h : p ≠ o ∨ i < j ∨ j < i) :
    getb (setb s o i b) p j = getb s p j := getb_setf_apart hi hj le_rfl h

theorem getb_setb_self {i : Nat} {b : Bool} (hi : i < 32) : getb (setb s o i b) o i = b := by
  unfold getb setb
  rw [getf_setf_self hi le_rfl]
  cases b <;> simp [b2n]

theorem get64_setReg_ne {w : Word} (h : p ≠ o) (h' : p + 4 ≠ o) : get64 (setReg s o w) p = get64 s p := by
  unfold get64
  rw [getReg_setReg_ne w h, getReg_setReg_ne w h']

/-- Two 64-bit registers that do not overlap. -/
theorem get64_set64_ne (h : p + 4 < o ∨ o + 4 < p) : get64 (set64 s o v) p = get64 s p := by
  unfold set64
  rw [get64_setReg_ne (by omega) (by omega), get64_setReg_ne (by omega) (by omega)]

end Fields

/-! The package map (MEM_PKG_MAP); FALLOW lies where an entry of a logical package 12 would. -/

section PackageMap
variable {s t : State} {k l o v : Nat}

/-- An entry of the package map set. -/
def setPackage (s : State) (l v : Nat) : State := setf s Reg.pkgMap (4 * l + 3) (4 * l) v

/-- An entry lies in one of the map's two words. -/
theorem physPackage_eq_word (hl : l < 16) :
    physPackage s l = getf s (Reg.pkgMap + 4 * (l / 8)) (4 * (l % 8) + 3) (4 * (l % 8)) := by
  obtain ⟨hq, hr⟩ | ⟨hq, hr⟩ : l / 8 = 0 ∧ l % 8 = l ∨ l / 8 = 1 ∧ l % 8 = l - 8 := by omega
  · rw [hq, hr]; rfl
  · rw [hq, hr]
    unfold physPackage getf
    rw [if_neg (by omega), if_pos (by omega), if_pos (by omega), show 4 * l + 3 - 32 = 4 * (l - 8) + 3 by omega,
      show 4 * l - 32 = 4 * (l - 8) by omega]

theorem setPackage_eq_word (hl : l < 16) :
    setPackage s l v = setf s (Reg.pkgMap + 4 * (l / 8)) (4 * (l % 8) + 3) (4 * (l % 8)) v := by
  obtain ⟨hq, hr⟩ | ⟨hq, hr⟩ : l / 8 = 0 ∧ l % 8 = l ∨ l / 8 = 1 ∧ l % 8 = l - 8 := by omega
  · rw [hq, hr]; rfl
  · rw [hq, hr]
    unfold setPackage setf
    rw [if_neg (by omega), if_pos (by omega), if_pos (by omega), show 4 * l + 3 - 32 = 4 * (l - 8) + 3 by omega,
      show 4 * l - 32 = 4 * (l - 8) by omega]

theorem physPackage_setPackage (hl : l < 16) (hk : k < 16) :
    physPackage (setPackage s l v) k = if k = l then v % 16 else physPackage s k := by
  rw [physPackage_eq_word hk, setPackage_eq_word hl]
  split
  · next h =>
    subst h
    rw [getf_setf_self (by omega) (by omega), show 4 * (k % 8) + 3 - 4 * (k % 8) + 1 = 4 by omega]; rfl
  · next h =>
    rw [getf_setf_apart (by omega) (by omega) (by omega) (by omega) (by omega), physPackage_eq_word hk]

theorem getReg_setPackage_ne (hl : l < 16) (h : o ≠ Reg.pkgMap) (h' : o ≠ Reg.pkgMap + 4) :
    getReg (setPackage s l v) o = getReg s o := by
  rw [setPackage_eq_word hl]
  refine getReg_setf_ne (by omega) ?_
  obtain hq | hq : l / 8 = 0 ∨ l / 8 = 1 := by omega
  · simpa [hq] using h
  · simpa [hq] using h'

theorem physPackage_congr (h : getReg t Reg.pkgMap = getReg s Reg.pkgMap)
    (h' : getReg t (Reg.pkgMap + 4) = getReg s (Reg.pkgMap + 4)) (l : Nat) : physPackage t l = physPackage s l :=
  getf_congr h h'

theorem physPackage_lt : physPackage s l < 16 := by
  unfold physPackage getf
  split_ifs <;> refine (fld_lt _ _ _).trans_eq ?_
  · rw [show 4 * l + 3 - 4 * l + 1 = 4 by omega]; rfl
  · rw [show 4 * l + 3 - 32 - (4 * l - 32) + 1 = 4 by omega]; rfl
  · rw [show 4 * l + 3 - 4 * l + 1 = 4 by omega]; rfl

theorem fallowPackage_lt : fallowPackage s < 16 := physPackage_lt (l := 12)

end PackageMap

/-! What a memory event records: MEM_STATUS.CODE, an entry of the event log and an alert (R456 to R461). -/

/-- Nothing but registers, interrupt messages and the stamp of the alerts changes. -/
def recordsOnly (s t : State) : Prop :=
  ∃ regs sent msix stamp, t = { s with
    regs := regs, sent := sent, host := { s.host with msix := msix }, power := { s.power with alertStamp := stamp } }

section Records
variable {s t u : State} {o hi lo v i : Nat}

theorem recordsOnly.refl : recordsOnly s s := ⟨_, _, _, _, rfl⟩

theorem recordsOnly.trans (h : recordsOnly s t) (h' : recordsOnly t u) : recordsOnly s u := by
  obtain ⟨_, _, _, _, rfl⟩ := h
  obtain ⟨_, _, _, _, rfl⟩ := h'
  exact ⟨_, _, _, _, rfl⟩

/-- What the claims read of the other fields. -/
theorem recordsOnly.keeps (h : recordsOnly s t) : t.mem = s.mem ∧ t.handles = s.handles ∧ t.places = s.places ∧
    t.cycle = s.cycle ∧ t.cfg = s.cfg ∧ t.lpddr = s.lpddr ∧ t.fallow = s.fallow := by
  obtain ⟨_, _, _, _, rfl⟩ := h
  exact ⟨rfl, rfl, rfl, rfl, rfl, rfl, rfl⟩

theorem recordsOnly_setReg {w : Word} : recordsOnly s (setReg s o w) := ⟨_, _, _, _, rfl⟩

theorem recordsOnly_set64 : recordsOnly s (set64 s o v) := recordsOnly_setReg.trans recordsOnly_setReg

theorem recordsOnly_setf : recordsOnly s (setf s o hi lo v) :=
  ⟨_, s.sent, s.host.msix, s.power.alertStamp, setf_frame s o hi lo v⟩

theorem recordsOnly_setb {b : Bool} : recordsOnly s (setb s o i b) := recordsOnly_setf

theorem recordsOnly_msix {fn vec : Nat} : recordsOnly s (msix s fn vec) :=
  ⟨s.regs, _, _, s.power.alertStamp, msix_frame s fn vec⟩

theorem recordsOnly_risen {fn vec : Nat} {c : State → Bool} {f : State → State} (h : recordsOnly s (f s)) :
    recordsOnly s (risen fn vec c f s) := by
  unfold risen
  split
  · exact h.trans recordsOnly_msix
  · exact h

theorem recordsOnly_alertSet : recordsOnly s (alertSet s i) := by
  unfold alertSet
  extract_lets stamp _ t
  have h : recordsOnly s t := ⟨s.regs, s.sent, s.host.msix, stamp, rfl⟩
  exact h.trans (recordsOnly_risen recordsOnly_setb)

end Records

section MemLog
variable {s t : State} {o code loc det : Nat}

theorem logEntry_class4 : logEntry s 4 code loc det =
    alertSet (risen 0 257 logCond (fun s => setb s Reg.logStatus 4 true) (logWrite s 4 code loc det)) 6 := by
  simp [logEntry]

theorem recordsOnly_logWrite {cls : Nat} : recordsOnly s (logWrite s cls code loc det) :=
  recordsOnly_setReg.trans (recordsOnly_setReg.trans (recordsOnly_set64.trans (recordsOnly_set64.trans
    (recordsOnly_set64.trans recordsOnly_setReg))))

theorem recordsOnly_memLog : recordsOnly s (memLog s 4 code loc det) := by
  unfold memLog memCode
  rw [logEntry_class4]
  exact recordsOnly_logWrite.trans ((recordsOnly_risen recordsOnly_setb).trans
    (recordsOnly_alertSet.trans recordsOnly_setf))

/-- Beside the alert causes, an entry of class 4 changes what `logWrite` changes and NEW. -/
theorem getReg_logEntry (h : o ≠ Reg.alertCause) : getReg (logEntry s 4 code loc det) o =
    getReg (setb (logWrite s 4 code loc det) Reg.logStatus 4 true) o := by
  rw [logEntry_class4, getReg_alertSet _ (by decide) h, getReg_risen_setb]

theorem getReg_logEntry_ne (h : o ≠ Reg.alertCause) (h' : o ≠ Reg.logStatus) :
    getReg (logEntry s 4 code loc det) o = getReg (logWrite s 4 code loc det) o := by
  rw [getReg_logEntry h, setb, getReg_setf_ne (by decide) h']

theorem getReg_logWrite_below {cls : Nat} (h : o < Reg.logHead) : getReg (logWrite s cls code loc det) o = getReg s o := by
  unfold Reg.logHead at h
  simp only [logWrite, getReg_setReg, getReg_set64, Reg.logHead]
  repeat rw [if_neg (by omega)]

/-- A memory event leaves the registers between MEM_STATUS and the log. -/
theorem getReg_memLog_ne (h : Reg.memStatus < o) (h' : o < Reg.logHead) :
    getReg (memLog s 4 code loc det) o = getReg s o := by
  have hne : o ≠ Reg.alertCause ∧ o ≠ Reg.logStatus := by
    unfold Reg.memStatus Reg.logHead Reg.alertCause Reg.logStatus at *
    omega
  unfold memLog memCode
  rw [getReg_setf_ne (by decide) h.ne', getReg_logEntry_ne hne.1 hne.2, getReg_logWrite_below h']

theorem getf_memLog_code : getf (memLog s 4 code loc det) Reg.memStatus 15 0 = code % 2 ^ 16 :=
  getf_setf_self (by decide) (by decide)

/-- The address of the entry that the log's head stands at. -/
def logSlot (s : State) : Nat := 0x840000 + 32 * ((getReg s Reg.logHead).toNat % 4096)

theorem logHead_eq : getf s Reg.logHead 31 0 = (getReg s Reg.logHead).toNat := by
  simpa [getf, fld] using Nat.mod_eq_of_lt (getReg s Reg.logHead).isLt

theorem logWrite_eq {cls : Nat} : logWrite s cls code loc det =
    setReg (set64 (set64 (set64 (setReg (setReg s (logSlot s) (BitVec.ofNat 32 (cls * 2 ^ 16 + code))) (logSlot s + 4)
      (getReg s Reg.logHead)) (logSlot s + 8) s.cycle) (logSlot s + 16) loc) (logSlot s + 24) det) Reg.logHead
      (getReg s Reg.logHead + 1) := by
  have hhead : BitVec.ofNat 32 ((getReg s Reg.logHead).toNat + 1) = getReg s Reg.logHead + 1 := by
    rw [BitVec.ofNat_add]; simp
  simp only [logWrite, logHead_eq, logSlot, hhead, BitVec.ofNat_toNat, BitVec.setWidth_eq, setReg_cycle]

/-- The entry that `logWrite` writes. -/
theorem logWrite_entry {cls : Nat} :
    let t := logWrite s cls code loc det
    getReg t Reg.logHead = getReg s Reg.logHead + 1 ∧ getReg t (logSlot s) = BitVec.ofNat 32 (cls * 2 ^ 16 + code) ∧
    get64 t (logSlot s + 8) = s.cycle % 2 ^ 64 ∧ get64 t (logSlot s + 16) = loc % 2 ^ 64 ∧
    get64 t (logSlot s + 24) = det % 2 ^ 64 := by
  have hb : Reg.logHead < logSlot s := by unfold logSlot Reg.logHead; omega
  rw [logWrite_eq]
  generalize logSlot s = b at hb
  refine ⟨getReg_setReg_self _ _, ?_, ?_, ?_, ?_⟩
  · rw [getReg_setReg_ne _ (by omega)]
    simp only [getReg_set64, getReg_setReg]
    repeat rw [if_neg (by omega)]
    exact if_pos trivial
  · rw [get64_setReg_ne (by omega) (by omega), get64_set64_ne (by omega), get64_set64_ne (by omega), get64_set64_self]
  · rw [get64_setReg_ne (by omega) (by omega), get64_set64_ne (by omega), get64_set64_self]
  · rw [get64_setReg_ne (by omega) (by omega), get64_set64_self]

/-- A memory event is logged. -/
theorem logged_memLog : logged s (memLog s 4 code loc det) 4 code loc det := by
  have hreg : ∀ o, o ≠ Reg.alertCause → o ≠ Reg.memStatus → getReg (memLog s 4 code loc det) o =
      getReg (setb (logWrite s 4 code loc det) Reg.logStatus 4 true) o := fun o h hm => by
    unfold memLog memCode
    rw [getReg_setf_ne (by decide) hm, getReg_logEntry h]
  have hword : ∀ o, Reg.logStatus < o ∨ o = Reg.logHead →
      getReg (memLog s 4 code loc det) o = getReg (logWrite s 4 code loc det) o := fun o h => by
    unfold Reg.logStatus Reg.logHead at h
    rw [hreg o (by unfold Reg.alertCause; omega) (by unfold Reg.memStatus; omega), setb,
      getReg_setf_ne (by decide) (by unfold Reg.logStatus; omega)]
  have hb : Reg.logStatus < logSlot s := by unfold logSlot Reg.logStatus; omega
  have hword64 : ∀ k, get64 (memLog s 4 code loc det) (logSlot s + k) =
      get64 (logWrite s 4 code loc det) (logSlot s + k) := fun k => by
    unfold get64
    rw [hword _ (.inl (by omega)), hword _ (.inl (by omega))]
  obtain ⟨hhead, hcode, htime, hloc, hdet⟩ :=
    logWrite_entry (s := s) (cls := 4) (code := code) (loc := loc) (det := det)
  refine ⟨(hword _ (.inr rfl)).trans hhead, (hword _ (.inl hb)).trans hcode, (hword64 8).trans htime,
    (hword64 16).trans hloc, (hword64 24).trans hdet, ?_⟩
  calc getb (memLog s 4 code loc det) Reg.logStatus 4
    _ = getb (setb (logWrite s 4 code loc det) Reg.logStatus 4 true) Reg.logStatus 4 :=
      getb_congr (by decide) (hreg _ (by decide) (by decide))
    _ = true := getb_setb_self (by decide)

/-- The log's words decide what was logged, wherever else two states differ. -/
theorem logged_congr {s' t' : State} {cls : Nat} (hs : ∀ o, Reg.logHead ≤ o → getReg s' o = getReg s o)
    (ht : ∀ o, Reg.logHead ≤ o → getReg t' o = getReg t o) (hc : s'.cycle = s.cycle) (h : logged s t cls code loc det) :
    logged s' t' cls code loc det := by
  have hget64 : ∀ o, Reg.logHead ≤ o → get64 t' o = get64 t o := fun o ho => by
    unfold get64; rw [ht o ho, ht (o + 4) (by omega)]
  obtain ⟨hhead, hcode, htime, hloc, hdet, hnew⟩ := h
  have hb : Reg.logHead ≤ 0x840000 + 32 * ((getReg s Reg.logHead).toNat % 4096) := by unfold Reg.logHead; omega
  unfold logged
  rw [hs _ le_rfl, hc]
  extract_lets b
  refine ⟨(ht _ le_rfl).trans hhead, (ht _ hb).trans hcode, (hget64 _ (by omega)).trans htime,
    (hget64 _ (by omega)).trans hloc, (hget64 _ (by omega)).trans hdet, ?_⟩
  rw [← hnew]
  exact congrArg (· == 1) (getf_congr (ht _ (by decide)) (ht _ (by decide)))

/-- Above CODE, a memory event leaves MEM_STATUS. -/
theorem getb_memLog_memStatus {i : Nat} (hi : 15 < i) (hi' : i < 32) :
    getb (memLog s 4 code loc det) Reg.memStatus i = getb s Reg.memStatus i := by
  unfold memLog memCode
  rw [getb_setf_apart (by decide) hi' (by decide) (.inr (.inl hi))]
  refine getb_congr hi' ?_
  rw [getReg_logEntry_ne (by decide) (by decide), getReg_logWrite_below (by decide)]

/-- An event recorded after changes that leave the log and the clock. -/
theorem logged_memLog_of {u : State} (hs : ∀ o, Reg.logHead ≤ o → getReg u o = getReg s o) (hc : u.cycle = s.cycle) :
    logged s (memLog u 4 code loc det) 4 code loc det :=
  logged_congr (fun o ho => (hs o ho).symm) (fun _ _ => rfl) hc.symm logged_memLog

end MemLog

/-! A package's information (MEM_PKG_INFOp) and its replacement. -/

section Packages
variable {s t : State} {o p q v l k : Nat}

theorem pkgInfoR_inj : pkgInfoR p = pkgInfoR q ↔ p = q := by unfold pkgInfoR; omega

/-- A word outside MEM_PKG_ERR and MEM_PKG_INFO. -/
def outsidePackages (o : Nat) : Prop := o < 0x500100 ∨ 0x500200 ≤ o

theorem outsidePackages.ne (h : outsidePackages o) (hp : p < 16) : o ≠ pkgInfoR p := by
  unfold outsidePackages at h
  unfold pkgInfoR
  omega

theorem outsidePackages_of_logHead_le (h : Reg.logHead ≤ o) : outsidePackages o := by
  unfold Reg.logHead at h
  exact .inr (by omega)

theorem getReg_setPkgState_ne (hp : p < 16) (ho : outsidePackages o) : getReg (setPkgState s p v) o = getReg s o :=
  getReg_setf_ne (by decide) (ho.ne hp)

theorem recordsOnly_setPkgState : recordsOnly s (setPkgState s p v) := recordsOnly_setf

theorem getf_setPkgState : getf (setPkgState s p v) (pkgInfoR q) 31 30 =
    if q = p then v % 4 else getf s (pkgInfoR q) 31 30 := by
  unfold setPkgState
  split
  · next h => rw [h]; exact getf_setf_self (by decide) (by decide)
  · next h => exact getf_setf_apart (by decide) (by decide) (by decide) (by decide) (.inl (pkgInfoR_inj.not.mpr h))

theorem getf_setPkgState_channels : getf (setPkgState s p v) (pkgInfoR q) 3 0 = getf s (pkgInfoR q) 3 0 :=
  getf_setf_apart (by decide) (by decide) (by decide) (by decide) (.inr (.inr (by decide)))

theorem substitutePackage_eq : substitutePackage s l =
    setf (setPkgState (setPkgState (setPackage (setPackage s l (fallowPackage s)) 12 15) (physPackage s l) 2)
      (fallowPackage s) 1) Reg.fltFallow 11 8 0 := rfl

theorem recordsOnly_substitutePackage : recordsOnly s (substitutePackage s l) :=
  recordsOnly_setf.trans (recordsOnly_setf.trans (recordsOnly_setPkgState.trans
    (recordsOnly_setPkgState.trans recordsOnly_setf)))

theorem getReg_substitutePackage_ne (hl : l < 16) (ho : outsidePackages o) (h : o ≠ Reg.pkgMap) (h' : o ≠ Reg.pkgMap + 4)
    (hf : o ≠ Reg.fltFallow) : getReg (substitutePackage s l) o = getReg s o := by
  rw [substitutePackage_eq, getReg_setf_ne (by decide) hf, getReg_setPkgState_ne fallowPackage_lt ho,
    getReg_setPkgState_ne physPackage_lt ho, getReg_setPackage_ne (by decide) h h', getReg_setPackage_ne hl h h']

theorem physPackage_setPkgState (hp : p < 16) : physPackage (setPkgState s p v) l = physPackage s l :=
  physPackage_congr (getReg_setPkgState_ne hp (.inl (by decide))) (getReg_setPkgState_ne hp (.inl (by decide))) l

/-- The map after a replacement: the fallow package serves `l`, and none is fallow. -/
theorem physPackage_substitutePackage (hl : l < 12) (hk : k < 13) : physPackage (substitutePackage s l) k =
    if k = 12 then 15 else if k = l then fallowPackage s else physPackage s k := by
  have hmap : ∀ {t : State}, physPackage (setf t Reg.fltFallow 11 8 0) k = physPackage t k :=
    physPackage_congr (getReg_setf_ne (by decide) (by decide)) (getReg_setf_ne (by decide) (by decide)) k
  rw [substitutePackage_eq, hmap, physPackage_setPkgState fallowPackage_lt, physPackage_setPkgState physPackage_lt,
    physPackage_setPackage (by decide) (by omega), physPackage_setPackage (by omega) (by omega),
    Nat.mod_eq_of_lt fallowPackage_lt]

/-- The packages' states after a replacement: the old one is retired, the new one in use. -/
theorem getf_substitutePackage_state (h : physPackage s l ≠ fallowPackage s) :
    getf (substitutePackage s l) (pkgInfoR (physPackage s l)) 31 30 = 2 ∧
      getf (substitutePackage s l) (pkgInfoR (fallowPackage s)) 31 30 = 1 := by
  have hinfo : ∀ {t : State} {q : Nat}, q < 16 →
      getf (setf t Reg.fltFallow 11 8 0) (pkgInfoR q) 31 30 = getf t (pkgInfoR q) 31 30 := fun hq =>
    getf_setf_apart (by decide) (by decide) (by decide) (by decide)
      (.inl (outsidePackages.ne (o := Reg.fltFallow) (.inr (by decide)) hq).symm)
  rw [substitutePackage_eq, hinfo physPackage_lt, hinfo fallowPackage_lt]
  simp only [getf_setPkgState, h, if_false, if_true]
  decide

theorem getf_substitutePackage_fallow : getf (substitutePackage s l) Reg.fltFallow 11 8 = 0 := by
  rw [substitutePackage_eq, getf_setf_self (by decide) (by decide), Nat.zero_mod]

/-- A word of MEM_PKG_INFO lies between MEM_STATUS and the log and is not MEM_SPARE_STATUS. -/
theorem pkgInfoR_bounds (hp : p < 16) :
    Reg.memStatus < pkgInfoR p ∧ pkgInfoR p < Reg.logHead ∧ pkgInfoR p ≠ Reg.spareStatus := by
  unfold Reg.memStatus Reg.logHead Reg.spareStatus pkgInfoR
  omega

/-- Beside MEM_STATUS and MEM_SPARE_STATUS, the registers of the tier are those that the replacement of `l`'s package
leaves. -/
def showsReplacement (s : State) (l : Nat) (t : State) : Prop :=
  ∀ o, Reg.memStatus < o → o < Reg.logHead → o ≠ Reg.spareStatus → getReg t o = getReg (substitutePackage s l) o

theorem showsReplacement.map (h : showsReplacement s l t) (hl : l < 12) (hk : k < 13) : physPackage t k =
    if k = 12 then 15 else if k = l then fallowPackage s else physPackage s k :=
  (physPackage_congr (h _ (by decide) (by decide) (by decide)) (h _ (by decide) (by decide) (by decide)) k).trans
    (physPackage_substitutePackage hl hk)

/-- The old package is retired, the fallow one in use, and none is fallow. -/
theorem showsReplacement.states (h : showsReplacement s l t) (hne : physPackage s l ≠ fallowPackage s) :
    getf t (pkgInfoR (physPackage s l)) 31 30 = 2 ∧ getf t (pkgInfoR (fallowPackage s)) 31 30 = 1 ∧
      getf t Reg.fltFallow 11 8 = 0 := by
  have hinfo : ∀ p, p < 16 →
      getf t (pkgInfoR p) 31 30 = getf (substitutePackage s l) (pkgInfoR p) 31 30 := fun p hp => by
    obtain ⟨hlow, hhigh, hspare⟩ := pkgInfoR_bounds hp
    exact getf_congr_low (by decide) (h _ hlow hhigh hspare)
  rw [hinfo _ physPackage_lt, hinfo _ fallowPackage_lt,
    getf_congr_low (by decide) (h _ (by decide) (by decide) (by decide)), getf_substitutePackage_fallow]
  obtain ⟨hold, hnew⟩ := getf_substitutePackage_state hne
  exact ⟨hold, hnew, rfl⟩

end Packages

/-! The tier's state (R397, R398). -/

section TierState
variable {s t u : State} {o l v : Nat}

theorem onlyRegs_refl {p : Nat → Prop} : onlyRegs s s p := ⟨rfl, fun _ _ => rfl⟩

/-- One more field of the named registers. -/
theorem onlyRegs_setf {hi lo : Nat} {p : Nat → Prop} (hh : hi < 32) (hp : p o) (h : onlyRegs s t p) :
    onlyRegs s (setf t o hi lo v) p := by
  refine ⟨?_, fun q hq => (getReg_setf_ne hh fun e : q = o => hq (e ▸ hp)).trans (h.2 q hq)⟩
  rw [setf_frame, h.1]

theorem onlyRegs_setb {i : Nat} {b : Bool} {p : Nat → Prop} (hi : i < 32) (hp : p o) (h : onlyRegs s t p) :
    onlyRegs s (setb t o i b) p := onlyRegs_setf hi hp h

theorem recordsOnly_of_onlyRegs {p : Nat → Prop} (h : onlyRegs s t p) : recordsOnly s t :=
  ⟨_, t.sent, t.host.msix, t.power.alertStamp, by rw [h.1]⟩

/-- MEM_STATUS.STATE set. -/
def setTier (s : State) (v : Nat) : State := setf s Reg.memStatus 31 29 v

theorem memState_setTier (hv : v < 8) : memState (setTier s v) = v :=
  (getf_setf_self (by decide) (by decide)).trans (Nat.mod_eq_of_lt hv)

theorem getReg_setTier_ne (h : o ≠ Reg.memStatus) : getReg (setTier s v) o = getReg s o := getReg_setf_ne (by decide) h

theorem getf_setTier_low {hi lo : Nat} (h : hi < 29) (hl : lo ≤ hi) :
    getf (setTier s v) Reg.memStatus hi lo = getf s Reg.memStatus hi lo :=
  getf_setf_apart (by decide) (by omega) (by decide) hl (.inr (.inr h))

theorem recordsOnly_setTier : recordsOnly s (setTier s v) := recordsOnly_setf

/-- A tier's state that is decided with a memory event: the event stands in the log and in MEM_STATUS. -/
theorem setTier_memLog {code det : Nat} (hs : ∀ o, Reg.logHead ≤ o → getReg t o = getReg s o) (hc : t.cycle = s.cycle)
    (hcode : code < 2 ^ 16) :
    logged s (setTier (memLog t 4 code 0 det) v) 4 code 0 det ∧
      getf (setTier (memLog t 4 code 0 det) v) Reg.memStatus 15 0 = code := by
  refine ⟨logged_congr (fun _ _ => rfl) (fun o ho => getReg_setTier_ne ?_) rfl (logged_memLog_of hs hc), ?_⟩
  · unfold Reg.logHead at ho
    unfold Reg.memStatus
    omega
  · rw [getf_setTier_low (by decide) (by decide), getf_memLog_code, Nat.mod_eq_of_lt hcode]

theorem getReg_setTier_memLog_ne {code det : Nat} (h : Reg.memStatus < o) (h' : o < Reg.logHead) :
    getReg (setTier (memLog s 4 code 0 det) v) o = getReg s o := by
  rw [getReg_setTier_ne h.ne', getReg_memLog_ne h h']

end TierState

/-! The end of training (R396, R397, R404). -/

section Training
variable {s t : State} {passed : List Nat} {o p l : Nat}

/-- A package's channels that passed. -/
def channels (passed : List Nat) (p : Nat) : Nat := (passed[p]?).getD 0

/-- The logical packages that failed. -/
def failing (passed : List Nat) (s : State) : List Nat :=
  (List.range 12).filter fun l => channels passed (physPackage s l) != 15

theorem mem_failing : l ∈ failing passed s ↔ l < 12 ∧ channels passed (physPackage s l) ≠ 15 := by
  simp [failing]

/-- CHANNELS of the thirteen packages. -/
def noteChannels (passed : List Nat) (s : State) : State :=
  (List.range 13).foldl (fun s p => setf s (pkgInfoR p) 3 0 (channels passed p)) s

/-- ORDER taken from NEXT. -/
def takeOrder (s : State) : State := setf s Reg.memStatus 28 27 (getf s Reg.memMap 1 0)

/-- Training over at `now`, the refreshes and the tables begun anew. -/
def endTraining (now : Nat) (s : State) : State :=
  { s with cfg := { s.cfg with trainingEnded := true }
           lpddr := { s.lpddr with origin := now, refreshes := [], tables := [] } }

/-- STATE of the fallow package. -/
def noteFallow (passed : List Nat) (s : State) : State :=
  if fallowPackage s < 13 then
    setPkgState s (fallowPackage s) (if channels passed (fallowPackage s) = 15 then 0 else 3)
  else s

/-- STATE of the packages that the map names. -/
def noteStates (bad : List Nat) (s : State) : State :=
  (List.range 12).foldl (fun s l => setPkgState s (physPackage s l) (if bad.contains l then 3 else 1)) s

/-- What every end of training does before it decides the tier's state. -/
def surveyed (passed : List Nat) (s : State) : State :=
  noteStates (failing passed s) (noteFallow passed (endTraining s.cycle (takeOrder (noteChannels passed s))))

theorem getReg_noteChannels (ho : outsidePackages o) : getReg (noteChannels passed s) o = getReg s o :=
  List.foldlRecOn (motive := fun t => getReg t o = getReg s o) _ _ rfl fun _ h p hp =>
    (getReg_setf_ne (by decide) (ho.ne (by have := List.mem_range.mp hp; omega))).trans h

theorem getReg_takeOrder (ho : o ≠ Reg.memStatus) : getReg (takeOrder s) o = getReg s o :=
  getReg_setf_ne (by decide) ho

theorem getReg_endTraining {now : Nat} : getReg (endTraining now s) o = getReg s o := rfl

theorem getReg_noteFallow (ho : outsidePackages o) : getReg (noteFallow passed s) o = getReg s o := by
  unfold noteFallow
  split
  · exact getReg_setPkgState_ne fallowPackage_lt ho
  · rfl

theorem getReg_noteStates {bad : List Nat} (ho : outsidePackages o) : getReg (noteStates bad s) o = getReg s o :=
  List.foldlRecOn (motive := fun t => getReg t o = getReg s o) _ _ rfl fun _ h _ _ =>
    (getReg_setPkgState_ne physPackage_lt ho).trans h

theorem getReg_surveyed (ho : outsidePackages o) (hm : o ≠ Reg.memStatus) : getReg (surveyed passed s) o = getReg s o := by
  rw [surveyed, getReg_noteStates ho, getReg_noteFallow ho, getReg_endTraining, getReg_takeOrder hm, getReg_noteChannels ho]

theorem recordsOnly_foldl {f : State → Nat → State} (h : ∀ t l, recordsOnly t (f t l)) (ls : List Nat) :
    recordsOnly s (ls.foldl f s) :=
  List.foldlRecOn (motive := recordsOnly s) _ _ .refl fun _ ht _ _ => ht.trans (h _ _)

theorem recordsOnly_noteFallow : recordsOnly s (noteFallow passed s) := by
  unfold noteFallow
  split
  · exact recordsOnly_setPkgState
  · exact .refl

/-- A survey changes records and ends the training. -/
theorem recordsOnly_surveyed : recordsOnly (endTraining s.cycle s) (surveyed passed s) := by
  have h : recordsOnly s (takeOrder (noteChannels passed s)) :=
    (recordsOnly_foldl (fun _ _ => recordsOnly_setf) _).trans recordsOnly_setf
  have h' : recordsOnly (endTraining s.cycle s) (endTraining s.cycle (takeOrder (noteChannels passed s))) := by
    obtain ⟨_, _, _, _, h⟩ := h
    rw [h]
    exact ⟨_, _, _, _, rfl⟩
  exact h'.trans (recordsOnly_noteFallow.trans (recordsOnly_foldl (fun _ _ => recordsOnly_setPkgState) _))

theorem physPackage_surveyed : physPackage (surveyed passed s) l = physPackage s l :=
  physPackage_congr (getReg_surveyed (.inl (by decide)) (by decide)) (getReg_surveyed (.inl (by decide)) (by decide)) l

/-- The tier out of service for logical package `l`. -/
def loseTier (l : Nat) (s : State) : State :=
  setTier (memLog s 4 0x0C02 0 (pkgDetail (physPackage s l))) 3

/-- The fallow package in the place of logical package `l`. -/
def replaceFailed (l : Nat) (s : State) : State :=
  setTier (memLog (substitutePackage s l) 4 0x0C01 0 (pkgDetail (physPackage s l))) 1

/-- What an end of training decides, with the fallow package `f` and the logical packages that failed. -/
def decideTier (passed : List Nat) (f : Nat) (s : State) : List Nat → State
  | [] => setTier s 1
  | [l] => if f < 13 ∧ channels passed f = 15 then replaceFailed l s else loseTier l s
  | l :: _ => loseTier l s

theorem failing_congr (h : ∀ l, physPackage t l = physPackage s l) : failing passed t = failing passed s := by
  simp only [failing, h]

/-- The end of training is a survey and a decision. -/
theorem opTrainingEnd_eq (ht : s.cfg.trainingEnded = false) (hb : s.power.romBooted = true) (hl : passed.length = 13) :
    opTrainingEnd passed s = decideTier passed (fallowPackage s) (surveyed passed s) (failing passed s) := by
  let u := endTraining s.cycle (takeOrder (noteChannels passed s))
  have hu : ∀ k, physPackage u k = physPackage s k := by
    have hreg : ∀ o, outsidePackages o → o ≠ Reg.memStatus → getReg u o = getReg s o := fun o ho hm => by
      rw [getReg_endTraining, getReg_takeOrder hm, getReg_noteChannels ho]
    exact physPackage_congr (hreg _ (.inl (by decide)) (by decide)) (hreg _ (.inl (by decide)) (by decide))
  have hn : ∀ k, physPackage (noteFallow passed u) k = physPackage s k := fun k =>
    (physPackage_congr (getReg_noteFallow (.inl (by decide))) (getReg_noteFallow (.inl (by decide))) k).trans (hu k)
  have hraw : opTrainingEnd passed s = decideTier passed (fallowPackage u)
      (noteStates (failing passed (noteFallow passed u)) (noteFallow passed u)) (failing passed (noteFallow passed u)) := by
    rw [opTrainingEnd, if_neg (by simp [ht, hb, hl])]
    unfold decideTier
    rfl
  rw [hraw, failing_congr hn, show fallowPackage u = fallowPackage s from hu 12]
  rfl

/-! The fields that a survey writes. -/

/-- A field of MEM_PKG_INFO written package by package. -/
theorem getf_foldl_pkgInfo {hi lo : Nat} (hh : hi < 32) (hl : lo ≤ hi) (q : Nat → Nat) (w : Nat → Nat) (ls : List Nat) :
    getf (ls.foldl (fun t i => setf t (pkgInfoR (q i)) hi lo (w (q i))) s) (pkgInfoR p) hi lo =
      if p ∈ ls.map q then w p % 2 ^ (hi - lo + 1) else getf s (pkgInfoR p) hi lo := by
  induction ls generalizing s with
  | nil => simp
  | cons i ls ih =>
    rw [List.foldl_cons, ih]
    by_cases h : p ∈ ls.map q
    · simp [h]
    · by_cases hp : p = q i
      · subst hp
        simp [h, getf_setf_self hh hl]
      · simp [h, hp, getf_setf_apart hh hh hl hl (.inl (pkgInfoR_inj.not.mpr hp))]

theorem getf_noteChannels (hp : p < 13) :
    getf (noteChannels passed s) (pkgInfoR p) 3 0 = channels passed p % 16 := by
  refine (getf_foldl_pkgInfo (by decide) (by decide) id (channels passed) _).trans ?_
  rw [if_pos (by simpa using hp)]
  rfl

/-- The map stands while the states are written. -/
theorem noteStates_eq (bad : List Nat) : noteStates bad s =
    (List.range 12).foldl (fun t l => setPkgState t (physPackage s l) (if bad.contains l then 3 else 1)) s := by
  unfold noteStates
  generalize List.range 12 = ls
  induction ls generalizing s with
  | nil => simp only [List.foldl_nil]
  | cons l ls ih =>
    rw [List.foldl_cons, List.foldl_cons, ih]
    simp only [physPackage_setPkgState physPackage_lt]

theorem getf_noteStates_nil (hl : l < 12) : getf (noteStates [] s) (pkgInfoR (physPackage s l)) 31 30 = 1 := by
  rw [noteStates_eq]
  refine (getf_foldl_pkgInfo (by decide) (by decide) (physPackage s) (fun _ => 1) _).trans (if_pos ?_)
  exact List.mem_map_of_mem (List.mem_range.mpr hl)

theorem getf_noteFallow_channels : getf (noteFallow passed s) (pkgInfoR p) 3 0 = getf s (pkgInfoR p) 3 0 := by
  unfold noteFallow
  split
  · exact getf_setPkgState_channels
  · rfl

theorem getf_noteStates_channels {bad : List Nat} : getf (noteStates bad s) (pkgInfoR p) 3 0 = getf s (pkgInfoR p) 3 0 :=
  List.foldlRecOn (motive := fun t => getf t (pkgInfoR p) 3 0 = getf s (pkgInfoR p) 3 0) _ _ rfl
    fun _ h _ _ => getf_setPkgState_channels.trans h

theorem getf_surveyed_channels (hp : p < 13) :
    getf (surveyed passed s) (pkgInfoR p) 3 0 = channels passed p % 16 := by
  have hm : pkgInfoR p ≠ Reg.memStatus := ((outsidePackages.ne (.inl (by decide))) (by omega)).symm
  rw [surveyed, getf_noteStates_channels, getf_noteFallow_channels, ← getf_noteChannels hp]
  exact getf_congr_low (by decide) ((getReg_endTraining).trans (getReg_takeOrder hm))

/-- ORDER is what NEXT was. -/
theorem getf_surveyed_order : getf (surveyed passed s) Reg.memStatus 28 27 = getf s Reg.memMap 1 0 := by
  have hmem : getReg (surveyed passed s) Reg.memStatus = getReg (takeOrder (noteChannels passed s)) Reg.memStatus := by
    rw [surveyed, getReg_noteStates (.inl (by decide)), getReg_noteFallow (.inl (by decide)), getReg_endTraining]
  have hnext : getf (noteChannels passed s) Reg.memMap 1 0 = getf s Reg.memMap 1 0 :=
    getf_congr_low (by decide) (getReg_noteChannels (.inl (by decide)))
  rw [getf_congr_low (by decide) hmem, takeOrder, getf_setf_self (by decide) (by decide), hnext]
  exact Nat.mod_eq_of_lt (fld_lt _ 1 0)

end Training

section Outcomes
variable {s : State} {passed : List Nat} {l k : Nat}

theorem surveyed_keeps : (surveyed passed s).mem = s.mem ∧ (surveyed passed s).handles = s.handles ∧
    (surveyed passed s).cycle = s.cycle ∧ (surveyed passed s).cfg.trainingEnded = true ∧
    (surveyed passed s).lpddr = { s.lpddr with origin := s.cycle, refreshes := [], tables := [] } := by
  obtain ⟨hmem, hhandles, -, hcycle, hcfg, hlpddr, -⟩ := (recordsOnly_surveyed (passed := passed) (s := s)).keeps
  exact ⟨hmem, hhandles, hcycle, congrArg Cfg.trainingEnded hcfg, hlpddr⟩

theorem getReg_surveyed_log (o : Nat) (h : Reg.logHead ≤ o) : getReg (surveyed passed s) o = getReg s o :=
  getReg_surveyed (outsidePackages_of_logHead_le h) (by unfold Reg.logHead at h; unfold Reg.memStatus; omega)

/-! The logical packages that failed, from what the claims say of them. -/

theorem failing_eq_nil (h : ∀ l, l < 12 → channels passed (physPackage s l) = 15) : failing passed s = [] :=
  List.eq_nil_iff_forall_not_mem.mpr fun l hl => (mem_failing.mp hl).2 (h l (mem_failing.mp hl).1)

/-- The first that failed heads the list. -/
theorem failing_eq_cons (hl : l < 12) (hbad : channels passed (physPackage s l) ≠ 15)
    (hfirst : ∀ k, k < l → channels passed (physPackage s k) = 15) : ∃ rest, failing passed s = l :: rest := by
  refine List.head?_eq_some_iff.mp ?_
  rw [failing, List.head?_filter, List.find?_range_eq_some]
  exact ⟨by simpa using hbad, List.mem_range.mpr hl, fun k hk => by simpa using hfirst k hk⟩

/-- The only one that failed. -/
theorem failing_eq_singleton (hl : l < 12) (hbad : channels passed (physPackage s l) ≠ 15)
    (honly : ∀ k, k < 12 → k ≠ l → channels passed (physPackage s k) = 15) : failing passed s = [l] := by
  obtain ⟨rest, h⟩ := failing_eq_cons hl hbad fun k hk => honly k (by omega) (by omega)
  have hnodup : (l :: rest).Nodup := h ▸ List.nodup_range.filter _
  have hrest : rest = [] := List.eq_nil_iff_forall_not_mem.mpr fun k hk => by
    obtain ⟨hk', hkbad⟩ := mem_failing.mp (h ▸ List.mem_cons_of_mem l hk)
    exact hkbad (honly k hk' fun e => (List.nodup_cons.mp hnodup).1 (e ▸ hk))
  rw [h, hrest]

/-! The three outcomes of a survey. -/

theorem physPackage_setTier {t : State} {v : Nat} : physPackage (setTier t v) l = physPackage t l :=
  physPackage_congr (getReg_setTier_ne (by decide)) (getReg_setTier_ne (by decide)) l

theorem getf_setTier_pkgInfo {t : State} {v p hi lo : Nat} (hp : p < 16) (hh : hi < 32) :
    getf (setTier t v) (pkgInfoR p) hi lo = getf t (pkgInfoR p) hi lo :=
  getf_congr_low hh (getReg_setTier_ne (pkgInfoR_bounds hp).1.ne')

/-- Where none failed, the packages that the map names are in use. -/
theorem getf_surveyed_state (h : failing passed s = []) (hl : l < 12) :
    getf (surveyed passed s) (pkgInfoR (physPackage s l)) 31 30 = 1 := by
  rw [surveyed, h]
  set u := noteFallow passed (endTraining s.cycle (takeOrder (noteChannels passed s))) with hu
  have hmap : physPackage u l = physPackage s l := by
    rw [← physPackage_surveyed (s := s) (passed := passed), surveyed, ← hu]
    exact (physPackage_congr (getReg_noteStates (.inl (by decide))) (getReg_noteStates (.inl (by decide))) l).symm
  rw [← hmap]
  exact getf_noteStates_nil hl

theorem memState_replaceFailed {t : State} : memState (replaceFailed l t) = 1 := memState_setTier (by decide)

theorem memState_loseTier {t : State} : memState (loseTier l t) = 3 := memState_setTier (by decide)

theorem recordsOnly_replaceFailed {t : State} : recordsOnly t (replaceFailed l t) :=
  recordsOnly_substitutePackage.trans (recordsOnly_memLog.trans recordsOnly_setTier)

theorem recordsOnly_loseTier {t : State} : recordsOnly t (loseTier l t) := recordsOnly_memLog.trans recordsOnly_setTier

theorem showsReplacement_replaceFailed {t : State} : showsReplacement t l (replaceFailed l t) :=
  fun _ h h' _ => getReg_setTier_memLog_ne h h'

/-- The replacement is recorded, as the failed package's. -/
theorem logged_replaceFailed {t : State} (hl : l < 12) (hs : ∀ o, Reg.logHead ≤ o → getReg t o = getReg s o)
    (hc : t.cycle = s.cycle) : logged s (replaceFailed l t) 4 0x0C01 0 (physPackage t l * 2 ^ 59) ∧
      getf (replaceFailed l t) Reg.memStatus 15 0 = 0x0C01 := by
  obtain ⟨-, -, -, hcycle, -⟩ := (recordsOnly_substitutePackage (s := t) (l := l)).keeps
  refine setTier_memLog (fun o ho => ?_) (hcycle.trans hc) (by decide)
  have hne : ∀ r, r < Reg.logHead → o ≠ r := fun r hr => by omega
  rw [getReg_substitutePackage_ne (by omega) (outsidePackages_of_logHead_le ho) (hne _ (by decide)) (hne _ (by decide))
    (hne _ (by decide)), hs o ho]

/-- The loss of the tier is recorded, as the package's that failed first. -/
theorem logged_loseTier {t : State} (hs : ∀ o, Reg.logHead ≤ o → getReg t o = getReg s o) (hc : t.cycle = s.cycle) :
    logged s (loseTier l t) 4 0x0C02 0 (physPackage t l * 2 ^ 59) ∧ getf (loseTier l t) Reg.memStatus 15 0 = 0x0C02 :=
  setTier_memLog hs hc (by decide)

theorem get64_loseTier_map {t : State} : get64 (loseTier l t) Reg.pkgMap = get64 t Reg.pkgMap := by
  unfold loseTier get64
  rw [getReg_setTier_memLog_ne (by decide) (by decide), getReg_setTier_memLog_ne (by decide) (by decide)]

theorem get64_surveyed_map : get64 (surveyed passed s) Reg.pkgMap = get64 s Reg.pkgMap := by
  unfold get64
  rw [getReg_surveyed (.inl (by decide)) (by decide), getReg_surveyed (.inl (by decide)) (by decide)]

theorem decideTier_nil {t : State} {f : Nat} : decideTier passed f t [] = setTier t 1 := by rw [decideTier]

/-- A tier that the fallow package cannot save is lost, for the first package that failed. -/
theorem decideTier_lost {t : State} {f : Nat} {rest : List Nat}
    (h : rest ≠ [] ∨ 13 ≤ f ∨ channels passed f ≠ 15) : decideTier passed f t (l :: rest) = loseTier l t := by
  cases rest with
  | nil => exact if_neg fun hf => by simp [hf] at h; omega
  | cons => rfl

end Outcomes
end Sys2Proof.Machine

namespace Sys2Proof.Claims
open Sys2Proof Sys2Proof.Machine

section TrainingClaims
variable {s : State} {passed : List (BitVec 4)} {l : Nat}

/-- The channels that passed, as numbers. -/
def channelCounts (passed : List (BitVec 4)) : List Nat := passed.map (·.toNat)

theorem channels_channelCounts (p : Nat) : channels (channelCounts passed) p = ((passed[p]?).getD 0).toNat := by
  unfold channels channelCounts
  rw [List.getElem?_map]
  cases passed[p]? <;> rfl

theorem channels_eq_15 {p : Nat} : channels (channelCounts passed) p = 15 ↔ (passed[p]?).getD 0 = 15 := by
  rw [channels_channelCounts]
  exact BitVec.toNat_inj (y := 15)

/-- What training that ends does, as a survey and a decision. -/
theorem exec_trainingEnd (ht : s.cfg.trainingEnded = false) (hb : s.power.romBooted = true) (hl : passed.length = 13)
    {bad : List Nat} (hbad : failing (channelCounts passed) s = bad) : exec (.lpddr6TrainingEnd passed) s =
      .next (decideTier (channelCounts passed) (fallowPackage s) (surveyed (channelCounts passed) s) bad) := by
  rw [← hbad, ← opTrainingEnd_eq ht hb (by rw [channelCounts, List.length_map, hl])]
  rfl

end TrainingClaims

theorem lpddr6Training : Claims.Lpddr6Training := by
  intro s
  refine ⟨?stays, ?ends, fun h => ?notInitialising, fun h => ?initialised⟩
  case stays =>
    intro passed h
    refine congrArg Host.Outcome.next (if_pos ?_)
    simpa using h
  case notInitialising => exact congrArg Host.Outcome.next (if_neg h)
  case initialised =>
    exact ⟨setTier s 2, congrArg Host.Outcome.next (if_pos h), memState_setTier (by decide),
      onlyRegs_setf (by decide) rfl onlyRegs_refl⟩
  intro passed ht hb hlen hphys good f
  have hexec := fun bad => exec_trainingEnd (bad := bad) ht hb hlen
  set u := surveyed (channelCounts passed) s with hu
  obtain ⟨humem, huhandles, hucycle, huended, hulpddr⟩ := surveyed_keeps (passed := channelCounts passed) (s := s)
  have humap : ∀ k, physPackage u k = physPackage s k := fun k => physPackage_surveyed
  have hulog : ∀ o, Reg.logHead ≤ o → getReg u o = getReg s o := getReg_surveyed_log
  refine ⟨fun hgood => ?good, fun l hbad honly hf hfgood => ?replaced, fun l hbad hfirst hmore => ?lost⟩
  case good =>
    have hnil : failing (channelCounts passed) s = [] := failing_eq_nil fun l hl => channels_eq_15.mpr (hgood ⟨l, hl⟩)
    obtain ⟨hmem, hhandles, -, -, hcfg, hlpddr, -⟩ := (recordsOnly_setTier (s := u) (v := 1)).keeps
    refine ⟨setTier u 1, (hexec _ hnil).trans (congrArg _ decideTier_nil), memState_setTier (by decide), ?_, ?_, fun l => ⟨?_, ?_⟩, fun p => ?_, ?_, ?_,
      hmem.trans humem, hhandles.trans huhandles⟩
    · rw [hcfg, huended]
    · rw [getf_setTier_low (by decide) (by decide), hu, getf_surveyed_order]
    · rw [physPackage_setTier, humap]
    · rw [getf_setTier_pkgInfo physPackage_lt (by decide), hu, getf_surveyed_state hnil l.isLt]
    · rw [getf_setTier_pkgInfo (by omega) (by decide), hu, getf_surveyed_channels p.isLt, channels_channelCounts]
      exact Nat.mod_eq_of_lt (BitVec.isLt _)
    · rw [hlpddr, hulpddr]
    · rw [hlpddr, hulpddr]
  case replaced =>
    have hone : failing (channelCounts passed) s = [l.val] := failing_eq_singleton l.isLt (channels_eq_15.not.mpr hbad)
      fun k hk hkl => channels_eq_15.mpr (honly ⟨k, hk⟩ fun e => hkl (congrArg Fin.val e))
    have hne : physPackage u l.val ≠ fallowPackage u := by
      rw [humap, show fallowPackage u = f from humap 12]
      exact fun e => hbad (by rw [e]; exact hfgood)
    obtain ⟨hold, hnew, hfallow⟩ := showsReplacement_replaceFailed.states hne
    obtain ⟨hlogged, hcode⟩ := logged_replaceFailed l.isLt hulog hucycle
    have hmap : ∀ k, k < 13 → physPackage (replaceFailed l.val u) k =
        if k = 12 then 15 else if k = l.val then fallowPackage u else physPackage u k := fun k hk =>
      showsReplacement_replaceFailed.map l.isLt hk
    simp only [humap, show fallowPackage u = f from humap 12] at hold hnew hlogged hmap
    have hdecide : decideTier (channelCounts passed) f u [l.val] = replaceFailed l.val u :=
      if_pos ⟨hf, channels_eq_15.mpr hfgood⟩
    refine ⟨replaceFailed l.val u, (hexec _ hone).trans (congrArg Host.Outcome.next hdecide),
      memState_replaceFailed, ?_, fun k hkl => ?_, hmap 12 (by decide), hold, hnew, hfallow, hcode, hlogged,
      recordsOnly_replaceFailed.keeps.1.trans humem⟩
    · rw [hmap _ (by omega), if_neg (by omega), if_pos rfl]
    · rw [hmap _ (by omega), if_neg (by omega), if_neg fun e => hkl (Fin.ext e)]
  case lost =>
    obtain ⟨rest, hcons⟩ := failing_eq_cons l.isLt (channels_eq_15.not.mpr hbad)
      fun k hk => channels_eq_15.mpr (hfirst ⟨k, hk.trans l.isLt⟩ hk)
    have hrest : rest ≠ [] ∨ 13 ≤ f ∨ channels (channelCounts passed) f ≠ 15 := by
      refine hmore.imp (fun ⟨k, hkl, hkbad⟩ hnil => ?_) (Or.imp_right channels_eq_15.not.mpr)
      have hk : k.val ∈ failing (channelCounts passed) s := mem_failing.mpr ⟨k.isLt, channels_eq_15.not.mpr hkbad⟩
      rw [hcons, hnil, List.mem_singleton] at hk
      exact hkl.ne' (Fin.ext hk)
    obtain ⟨hlogged, hcode⟩ := logged_loseTier (l := l.val) hulog hucycle
    rw [humap] at hlogged
    exact ⟨loseTier l.val u, (hexec _ hcons).trans (congrArg Host.Outcome.next (decideTier_lost hrest)), memState_loseTier,
      hcode, hlogged, get64_loseTier_map.trans get64_surveyed_map, recordsOnly_loseTier.keeps.1.trans humem⟩

end Sys2Proof.Claims

namespace Sys2Proof.Machine
open Sys2Proof Sys2Proof.Claims

/-! Package sparing (R411, R413). -/

section Sparing
variable {s : State} {o l k code cause : Nat}

/-- A mechanism that no background command set off ends without a trace. -/
theorem endMech_of_no_job {kind : Nat} (h : s.fallow.job = none) : endMech s kind l code = s :=
  if_neg (by simp [h])

theorem recordsOnly_mgmtEvent {i : Nat} : recordsOnly s (mgmtEvent s i) := recordsOnly_risen recordsOnly_setb

theorem getReg_mgmtEvent_ne {i : Nat} (hi : i < 32) (h : o ≠ Reg.mbxStatus) : getReg (mgmtEvent s i) o = getReg s o := by
  rw [mgmtEvent, getReg_risen_setb, setb, getReg_setf_ne hi h]

/-- Memory, the LPDDR6 tier and the proposals stand, and of the registers all but DOME_MBX_STATUS. -/
def tierStands (s t : State) : Prop :=
  t.mem = s.mem ∧ t.handles = s.handles ∧ t.places = s.places ∧ t.lpddr = s.lpddr ∧
    t.fallow.proposals = s.fallow.proposals ∧ ∀ o, o ≠ Reg.mbxStatus → getReg t o = getReg s o

theorem tierStands_mgmtEvent {i : Nat} (hi : i < 32) : tierStands s (mgmtEvent s i) := by
  obtain ⟨hmem, hhandles, hplaces, -, -, hlpddr, hfallow⟩ := (recordsOnly_mgmtEvent (s := s) (i := i)).keeps
  exact ⟨hmem, hhandles, hplaces, hlpddr, by rw [hfallow], fun o ho => getReg_mgmtEvent_ne hi ho⟩

theorem tierStands_endJob {area : Nat} : tierStands s (endJob s area code) := by
  unfold endJob
  split
  · exact tierStands_mgmtEvent (s := setJob s area { getJob s area with state := 2, code := code }) (by decide)
  · exact ⟨rfl, rfl, rfl, rfl, rfl, fun _ _ => rfl⟩

/-- The end of a mechanism ends its background command too, if there is one. -/
theorem tierStands_endMech {kind : Nat} : tierStands s (endMech s kind l code) := by
  unfold endMech
  split
  · exact tierStands_endJob (s := { s with fallow := { s.fallow with job := none } })
  · exact ⟨rfl, rfl, rfl, rfl, rfl, fun _ _ => rfl⟩

theorem dropProposals_of_none_waiting {p : Proposal → Bool} (h : s.fallow.waiting = []) : dropProposals s p =
    { s with fallow := { s.fallow with proposals := s.fallow.proposals.filter fun x => !p x } } := by
  simp [dropProposals, refillProposals, h]

/-- A START that is refused changes CODE. -/
theorem startOrRefuse_refused (h : spareRefusal s l = some code) (hjob : s.fallow.job = none) (hcode : code < 2 ^ 16) :
    onlyRegs s (startOrRefuse l cause s) (· = Reg.spareStatus) ∧
      getf (startOrRefuse l cause s) Reg.spareStatus 15 0 = code ∧
      getb (startOrRefuse l cause s) Reg.spareStatus 31 = getb s Reg.spareStatus 31 := by
  have heq : startOrRefuse l cause s = setf s Reg.spareStatus 15 0 code := by
    rw [startOrRefuse, h]
    exact endMech_of_no_job hjob
  rw [heq]
  exact ⟨onlyRegs_setf (by decide) rfl onlyRegs_refl,
    (getf_setf_self (by decide) (by decide)).trans (Nat.mod_eq_of_lt hcode),
    getb_setf_apart (by decide) (by decide) (by decide) (.inr (.inl (by decide)))⟩

theorem spareRefusal_none (hs : s.lpddr.spare = none) (hf : fallowPackage s ≠ 15) (hm : memState s = 2) (hl : l ≤ 11) :
    spareRefusal s l = none := by
  simp [spareRefusal, hs, hf, hm, Nat.not_lt.mpr hl]

/-- The record of what is spared, and since when. -/
def setSpare (s : State) (x : Option (Nat × Nat)) : State := { s with lpddr := { s.lpddr with spare := x } }

@[simp] theorem physPackage_setSpare {x : Option (Nat × Nat)} : physPackage (setSpare s x) l = physPackage s l := rfl

@[simp] theorem fallowPackage_setSpare {x : Option (Nat × Nat)} : fallowPackage (setSpare s x) = fallowPackage s := rfl

/-- The registers that show a sparing begun. -/
def showSparing (s : State) : State :=
  setb (setb (setf (setf s Reg.spareStatus 26 16 0) Reg.spareStatus 15 0 0) Reg.spareStatus 31 true) Reg.memStatus 25 true

/-- A START that is not refused begins the sparing. -/
theorem startOrRefuse_of_not_refused (h : spareRefusal s l = none) :
    startOrRefuse l cause s = showSparing (setSpare s (some (l, s.cycle))) := by
  rw [startOrRefuse, h]
  rfl

theorem onlyRegs_showSparing : onlyRegs s (showSparing s) (fun o => o = Reg.spareStatus ∨ o = Reg.memStatus) :=
  onlyRegs_setb (by decide) (.inr rfl) (onlyRegs_setb (by decide) (.inl rfl)
    (onlyRegs_setf (by decide) (.inl rfl) (onlyRegs_setf (by decide) (.inl rfl) onlyRegs_refl)))

/-- BUSY stands in both registers, and the permille and the code start at zero. -/
theorem showSparing_fields : getb (showSparing s) Reg.spareStatus 31 = true ∧
    getf (showSparing s) Reg.spareStatus 26 16 = 0 ∧
    getf (showSparing s) Reg.spareStatus 15 0 = 0 ∧ getb (showSparing s) Reg.memStatus 25 = true := by
  unfold showSparing
  refine ⟨?busy, ?permille, ?code, getb_setb_self (by decide)⟩
  case busy => rw [getb_setb_apart (by decide) (by decide) (.inl (by decide)), getb_setb_self (by decide)]
  case permille =>
    rw [getf_setb_apart (by decide) (by decide) (by decide) (.inl (by decide)),
      getf_setb_apart (by decide) (by decide) (by decide) (.inr (.inr (by decide))),
      getf_setf_apart (by decide) (by decide) (by decide) (by decide) (.inr (.inl (by decide))),
      getf_setf_self (by decide) (by decide), Nat.zero_mod]
  case code =>
    rw [getf_setb_apart (by decide) (by decide) (by decide) (.inl (by decide)),
      getf_setb_apart (by decide) (by decide) (by decide) (.inr (.inr (by decide))),
      getf_setf_self (by decide) (by decide), Nat.zero_mod]

/-- The registers that show a copy that has ended. -/
def showCopied (s : State) : State :=
  setb (setf (setf (setb s Reg.spareStatus 31 false) Reg.spareStatus 26 16 1000) Reg.spareStatus 15 0 0x0C04)
    Reg.memStatus 25 false

theorem onlyRegs_showCopied : onlyRegs s (showCopied s) (fun o => o = Reg.spareStatus ∨ o = Reg.memStatus) :=
  onlyRegs_setb (by decide) (.inr rfl) (onlyRegs_setf (by decide) (.inl rfl)
    (onlyRegs_setf (by decide) (.inl rfl) (onlyRegs_setb (by decide) (.inl rfl) onlyRegs_refl)))

theorem showCopied_fields : getb (showCopied s) Reg.spareStatus 31 = false ∧
    getf (showCopied s) Reg.spareStatus 26 16 = 1000 ∧ getb (showCopied s) Reg.memStatus 25 = false := by
  unfold showCopied
  refine ⟨?busy, ?permille, getb_setb_self (by decide)⟩
  case busy =>
    rw [getb_setb_apart (by decide) (by decide) (.inl (by decide)),
      getb_setf_apart (by decide) (by decide) (by decide) (.inr (.inl (by decide))),
      getb_setf_apart (by decide) (by decide) (by decide) (.inr (.inl (by decide))), getb_setb_self (by decide)]
  case permille =>
    rw [getf_setb_apart (by decide) (by decide) (by decide) (.inl (by decide)),
      getf_setf_apart (by decide) (by decide) (by decide) (by decide) (.inr (.inl (by decide))),
      getf_setf_self (by decide) (by decide)]
    rfl

/-- The end of a mechanism with its proposals dropped, none waiting to take their place. -/
theorem dropProposals_endMech_keeps {kind : Nat} {p : Proposal → Bool} (h : s.fallow.waiting = []) :
    let t := endMech (dropProposals s p) kind l code
    t.mem = s.mem ∧ t.handles = s.handles ∧ t.places = s.places ∧ t.lpddr = s.lpddr ∧
      t.fallow.proposals = s.fallow.proposals.filter (fun x => !p x) ∧
      ∀ o, o ≠ Reg.mbxStatus → getReg t o = getReg s o := by
  rw [dropProposals_of_none_waiting h]
  exact tierStands_endMech (s := { s with
    fallow := { s.fallow with proposals := s.fallow.proposals.filter fun x => !p x } })

/-- The copy of logical package `l` recorded as ended: the map, the registers and the log. -/
def copyRecorded (l : Nat) (s : State) : State :=
  memLog (showCopied (substitutePackage (setSpare s none) l)) 4 0x0C04 0 (pkgDetail (fallowPackage s))

/-- The end of a copy: it is recorded, the proposals to spare are dropped, and its background command ends. -/
def copyEnded (l : Nat) (s : State) : State := endMech (dropProposals (copyRecorded l s) fun p => p.kind == 2) 2 l 0

theorem opSpareCopyEnd_eq {since : Nat} (h : s.lpddr.spare = some (l, since)) : opSpareCopyEnd s = copyEnded l s := by
  unfold opSpareCopyEnd
  rw [h]
  rfl

theorem showsReplacement_copyRecorded : showsReplacement (setSpare s none) l (copyRecorded l s) := fun o h h' hs => by
  rw [copyRecorded, getReg_memLog_ne h h', onlyRegs_showCopied.2 o (not_or.mpr ⟨hs, h.ne'⟩)]

theorem recordsOnly_copyRecorded : recordsOnly (setSpare s none) (copyRecorded l s) :=
  recordsOnly_substitutePackage.trans ((recordsOnly_of_onlyRegs onlyRegs_showCopied).trans recordsOnly_memLog)

/-- The end of the copy is recorded, as the package's that is now in use. -/
theorem logged_copyRecorded (hl : l < 12) : logged s (copyRecorded l s) 4 0x0C04 0 (fallowPackage s * 2 ^ 59) := by
  have h := (recordsOnly_substitutePackage (l := l) (s := setSpare s none)).trans
    (recordsOnly_of_onlyRegs onlyRegs_showCopied)
  obtain ⟨-, -, -, hcycle, -⟩ := h.keeps
  refine logged_memLog_of (fun o ho => ?_) hcycle
  have hne : ∀ r, r < Reg.logHead → o ≠ r := fun r hr => by omega
  rw [onlyRegs_showCopied.2 o (not_or.mpr ⟨hne _ (by decide), hne _ (by decide)⟩),
    getReg_substitutePackage_ne (by omega) (outsidePackages_of_logHead_le ho) (hne _ (by decide)) (hne _ (by decide))
    (hne _ (by decide))]
  rfl

/-- BUSY falls, the permille is full and the code is that of the event. -/
theorem copyRecorded_fields : getb (copyRecorded l s) Reg.spareStatus 31 = false ∧
    getf (copyRecorded l s) Reg.spareStatus 26 16 = 1000 ∧ getb (copyRecorded l s) Reg.memStatus 25 = false ∧
    getf (copyRecorded l s) Reg.memStatus 15 0 = 0x0C04 := by
  have hspare : getReg (copyRecorded l s) Reg.spareStatus =
      getReg (showCopied (substitutePackage (setSpare s none) l)) Reg.spareStatus :=
    getReg_memLog_ne (by decide) (by decide)
  obtain ⟨hbusy, hpermille, hmem⟩ := showCopied_fields (s := substitutePackage (setSpare s none) l)
  refine ⟨(getb_congr (by decide) hspare).trans hbusy, (getf_congr_low (by decide) hspare).trans hpermille, ?_,
    getf_memLog_code⟩
  rw [copyRecorded, getb_memLog_memStatus (by decide) (by decide), hmem]

/-- With no proposal waiting, those to spare are gone; memory and places stand, nothing is being spared, and the registers
but DOME_MBX_STATUS are those of the record. -/
theorem copyEnded_keeps (hw : s.fallow.waiting = []) : (copyEnded l s).mem = s.mem ∧
    (copyEnded l s).handles = s.handles ∧ (copyEnded l s).places = s.places ∧ (copyEnded l s).lpddr.spare = none ∧
    (∀ x, x ∈ (copyEnded l s).fallow.proposals → x.kind ≠ 2) ∧
    ∀ o, o ≠ Reg.mbxStatus → getReg (copyEnded l s) o = getReg (copyRecorded l s) o := by
  obtain ⟨hmem, hhandles, hplaces, -, -, hlpddr, hfallow⟩ := (recordsOnly_copyRecorded (l := l) (s := s)).keeps
  obtain ⟨htmem, hthandles, htplaces, htlpddr, htprop, hreg⟩ := dropProposals_endMech_keeps (s := copyRecorded l s)
    (kind := 2) (l := l) (code := 0) (p := fun p => p.kind == 2) (by rw [hfallow]; exact hw)
  unfold copyEnded
  refine ⟨htmem.trans hmem, hthandles.trans hhandles, htplaces.trans hplaces, ?_, fun x hx => ?_, hreg⟩
  · rw [htlpddr, hlpddr]; rfl
  · rw [htprop] at hx
    simpa using (List.mem_filter.mp hx).2

theorem showsReplacement_copyEnded (hw : s.fallow.waiting = []) :
    showsReplacement (setSpare s none) l (copyEnded l s) := fun o h h' hs => by
  obtain ⟨-, -, -, -, -, hreg⟩ := copyEnded_keeps (l := l) hw
  rw [hreg o (Nat.ne_of_gt (Nat.lt_trans (by decide) h)), showsReplacement_copyRecorded o h h' hs]

theorem copyEnded_fields (hw : s.fallow.waiting = []) : getb (copyEnded l s) Reg.spareStatus 31 = false ∧
    getf (copyEnded l s) Reg.spareStatus 26 16 = 1000 ∧ getb (copyEnded l s) Reg.memStatus 25 = false ∧
    getf (copyEnded l s) Reg.memStatus 15 0 = 0x0C04 := by
  obtain ⟨-, -, -, -, -, hreg⟩ := copyEnded_keeps (l := l) hw
  rw [getb_congr (by decide) (hreg _ (by decide)), getf_congr_low (by decide) (hreg _ (by decide)),
    getb_congr (by decide) (hreg _ (by decide)), getf_congr_low (by decide) (hreg _ (by decide))]
  exact copyRecorded_fields

theorem logged_copyEnded (hl : l < 12) (hw : s.fallow.waiting = []) :
    logged s (copyEnded l s) 4 0x0C04 0 (fallowPackage s * 2 ^ 59) := by
  obtain ⟨-, -, -, -, -, hreg⟩ := copyEnded_keeps (l := l) hw
  exact logged_congr (fun _ _ => rfl) (fun o ho => hreg o (Nat.ne_of_gt (Nat.lt_of_lt_of_le (by decide) ho))) rfl
    (logged_copyRecorded hl)

end Sparing
end Sys2Proof.Machine

namespace Sys2Proof.Claims
open Sys2Proof Sys2Proof.Machine

theorem packageSparing : Claims.PackageSparing := by
  intro s
  refine ⟨fun w h => ?noStart, ?start, fun l cause h => ?notDue, fun l cause hdue hs hf hm hl => ?policy, fun h => ?noCopy,
    fun l since h hl hf hphys hne hw => ?copied⟩
  case noStart => exact congrArg Host.Outcome.next (if_neg (Bool.eq_false_iff.mp h))
  case notDue => exact congrArg Host.Outcome.next (if_neg (by simpa [autoDue] using h))
  case noCopy =>
    refine congrArg Host.Outcome.next ?_
    rw [opSpareCopyEnd, h]
  case start =>
    intro w hw hjob l refused
    have hexec : exec (.packageSpare (.reg w)) s = .next (startOrRefuse l causeHost s) :=
      congrArg Host.Outcome.next (if_pos hw)
    have hrefused : ∀ code, code < 2 ^ 16 → spareRefusal s l = some code → refused code := fun code hcode h => by
      obtain ⟨hregs, hcode, hbusy⟩ := startOrRefuse_refused h hjob hcode
      exact ⟨_, hexec, hregs, hcode, hbusy⟩
    refine ⟨fun hs => ?_, fun hs hf => ?_, fun hs hf hm => ?_, fun hs hf hm hl => ?_, fun hs hf hm hl => ?_⟩
    · exact hrefused _ (by decide) (if_pos (Option.isSome_iff_ne_none.mpr hs))
    · exact hrefused _ (by decide) (by simp [spareRefusal, hs, hf])
    · exact hrefused _ (by decide) (by simp [spareRefusal, hs, hf, hm])
    · exact hrefused _ (by decide) (by simp [spareRefusal, hs, hf, hm, hl])
    · obtain ⟨heq, hregs⟩ := onlyRegs_showSparing (s := setSpare s (some (l, s.cycle)))
      refine ⟨_, hexec.trans (congrArg Host.Outcome.next
        (startOrRefuse_of_not_refused (spareRefusal_none hs hf hm hl))), heq, fun o ho hm => ?_, showSparing_fields⟩
      exact hregs o (not_or.mpr ⟨ho, hm⟩)
  case policy =>
    have hstart : startOrRefuse l cause (dropAuto s 2 l) = showSparing (setSpare (dropAuto s 2 l) (some (l, s.cycle))) :=
      startOrRefuse_of_not_refused (spareRefusal_none (s := dropAuto s 2 l) hs hf hm hl)
    have heq := (onlyRegs_showSparing (s := setSpare (dropAuto s 2 l) (some (l, s.cycle)))).1
    refine ⟨_, congrArg Host.Outcome.next ((if_pos hdue).trans hstart), ?_, showSparing_fields.1, ?_⟩
    · rw [heq]; rfl
    · rw [heq]; rfl
  case copied =>
    obtain ⟨hmem, hhandles, hplaces, hspare, hproposals, -⟩ := copyEnded_keeps (l := l) hw
    have hshows := showsReplacement_copyEnded (l := l) hw
    have hmap := fun k hk => hshows.map (k := k) hl hk
    obtain ⟨hold, hnew, hfallow⟩ := hshows.states (by simpa using hne)
    simp only [physPackage_setSpare, fallowPackage_setSpare] at hmap hold hnew
    obtain ⟨hbusy, hpermille, hmoving, hcode⟩ := copyEnded_fields (l := l) hw
    have hexec : exec .spareCopyEnd s = .next (copyEnded l s) := congrArg Host.Outcome.next (opSpareCopyEnd_eq h)
    refine ⟨copyEnded l s, hexec, ?_, hmap 12 (by decide), fun k hk => ?_, hold, hnew, hfallow, hspare, hbusy, hpermille,
      hmoving, hcode, logged_copyEnded hl hw, hproposals, hmem, hhandles, hplaces⟩
    · rw [hmap l (by omega), if_neg (by omega), if_pos rfl]
    · rw [hmap k (by omega), if_neg (by omega), if_neg hk]

/-- Settles O51: the end of training is a survey of the packages and a decision on the tier, and a copy's end records a
replacement of the same form. -/
theorem lpddr6ServiceAndSparing : Obligations.Lpddr6ServiceAndSparing := ⟨lpddr6Training, packageSparing⟩

end Sys2Proof.Claims
end

section
/-!
Management packets (R416 to R421, R425): the bytes of a reply, what the mailbox shows of it, and the checks of a request,
said once for every opcode that R422 assigns.
-/
namespace Sys2Proof.Machine
open Sys2Proof Sys2Proof.Claims

/-! Little-endian bytes (R1). -/

section Bytes
variable {n k off v : Nat} {l : List Byte}

@[simp] theorem length_leBytes : (leBytes n v).length = n := by
  induction n generalizing v with
  | zero => rfl
  | succ n ih => rw [leBytes, List.length_cons, ih]

theorem leNat_lt (l : List Byte) : leNat l < 256 ^ l.length := by
  induction l with
  | nil => exact Nat.one_pos
  | cons b l ih =>
    have hb : b.toNat < 256 := b.isLt
    rw [leNat, List.length_cons, pow_succ]
    omega

theorem leNat_leBytes : leNat (leBytes n v) = v % 256 ^ n := by
  induction n generalizing v with
  | zero => exact (Nat.mod_one v).symm
  | succ n ih =>
    rw [leBytes, leNat, ih, BitVec.toNat_ofNat, Nat.pow_succ' (n := n), ← Nat.mod_mul]

theorem take_leBytes (h : k ≤ n) : (leBytes n v).take k = leBytes k v := by
  induction k generalizing n v with
  | zero => rfl
  | succ k ih =>
    obtain ⟨m, rfl⟩ : ∃ m, n = m + 1 := ⟨n - 1, by omega⟩
    rw [leBytes, List.take_succ_cons, ih (by omega), leBytes]

theorem drop_leBytes : (leBytes n v).drop k = leBytes (n - k) (v / 256 ^ k) := by
  induction k generalizing n v with
  | zero => simp
  | succ k ih =>
    cases n with
    | zero => simp [leBytes]
    | succ n => rw [leBytes, List.drop_succ_cons, ih, Nat.div_div_eq_div_mul, ← pow_succ', Nat.succ_sub_succ]

theorem declNat_lt : declNat l off n < 256 ^ n :=
  (leNat_lt _).trans_le (Nat.pow_le_pow_right (by decide) (List.length_take_le _ _))

/-- A field of the little-endian number at the front. -/
theorem declNat_leBytes_append (h : off + k ≤ n) : declNat (leBytes n v ++ l) off k = v / 256 ^ off % 256 ^ k := by
  have hlen : k ≤ (leBytes (n - off) (v / 256 ^ off)).length := by rw [length_leBytes]; omega
  rw [declNat, List.drop_append_of_le_length (by rw [length_leBytes]; omega), drop_leBytes,
    List.take_append_of_le_length hlen, take_leBytes (by omega), leNat_leBytes]

/-- A field after the little-endian number at the front. -/
theorem declNat_leBytes_append_add (n off : Nat) : declNat (leBytes n v ++ l) (n + off) k = declNat l off k := by
  rw [declNat, ← List.drop_drop, List.drop_left' length_leBytes, declNat]

end Bytes

/-! The layout of a reply (R417). -/

section Layout
variable {q p : List Byte} {running : Bool} {status detail : Nat}

/-- The payload that goes out with a status. -/
def payloadOf (status : Nat) (p : List Byte) : List Byte := if status = 0 then p else []

/-- The first word of a reply: SEQUENCE, RUNNING, the reply bit and OPCODE. -/
def replyWord (q : List Byte) (running : Bool) : Nat := qSeq q * 2 ^ 16 + b2n running * 2 ^ 9 + 2 ^ 8 + qOp q

theorem replyBytes_eq : replyBytes q running status detail p =
    leBytes 4 (replyWord q running) ++ (leBytes 4 (status * 2 ^ 16 + (payloadOf status p).length) ++
      (leBytes 4 detail ++ (leBytes 4 0 ++ payloadOf status p))) := by
  simp only [replyBytes, replyWord, payloadOf, List.append_assoc]

theorem length_payloadOf : (payloadOf status p).length = if status = 0 then p.length else 0 := by
  unfold payloadOf; split <;> rfl

/-- OPCODE, the flags and SEQUENCE of the first word. -/
theorem replyWord_fields : replyWord q running % 256 = qOp q ∧
    replyWord q running / 256 % 256 = (if running then 3 else 1) ∧ replyWord q running / 65536 % 65536 = qSeq q := by
  have hop : qOp q < 256 := declNat_lt
  have hseq : qSeq q < 65536 := declNat_lt
  unfold replyWord
  cases running
  · simp only [b2n, Bool.false_eq_true, if_false]; omega
  · simp only [b2n, if_true]; omega

theorem replyBytes_layout (hs : status < 2 ^ 16) (hd : detail < 2 ^ 32) (hp : p.length < 2 ^ 13) :
    let r := replyBytes q running status detail p
    declNat r 0 1 = qOp q ∧ declNat r 1 1 = (if running then 3 else 1) ∧ declNat r 2 2 = qSeq q ∧
    declNat r 4 2 = (if status = 0 then p.length else 0) ∧ declNat r 6 2 = status ∧ declNat r 8 4 = detail ∧
    declNat r 12 4 = 0 ∧ r.drop 16 = if status = 0 then p else [] := by
  obtain ⟨hop, hflags, hseq⟩ := replyWord_fields (q := q) (running := running)
  have hlen : (payloadOf status p).length < 2 ^ 13 := by rw [length_payloadOf]; split <;> omega
  simp only [replyBytes_eq]
  refine ⟨?op, ?flags, ?seq, ?len, ?status, ?detail, ?reserved, ?payload⟩
  case op => rw [declNat_leBytes_append (by decide), pow_zero, Nat.div_one, pow_one, hop]
  case flags => rw [declNat_leBytes_append (by decide), pow_one, hflags]
  case seq => rw [declNat_leBytes_append (by decide)]; exact hseq
  case len =>
    rw [declNat_leBytes_append_add 4 0, declNat_leBytes_append (by decide), ← length_payloadOf]
    omega
  case status =>
    rw [declNat_leBytes_append_add 4 2, declNat_leBytes_append (by decide)]
    omega
  case detail =>
    rw [declNat_leBytes_append_add 4 4, declNat_leBytes_append_add 4 0, declNat_leBytes_append (by decide)]
    omega
  case reserved =>
    rw [declNat_leBytes_append_add 4 8, declNat_leBytes_append_add 4 4, declNat_leBytes_append_add 4 0,
      declNat_leBytes_append (by decide), Nat.zero_div, Nat.zero_mod]
  case payload => rfl

end Layout

/-! Registers and messages. -/

section Frames
variable {s t : State} {p : Nat → Prop} {o i n off : Nat} {l : List Byte}

/-- One more of the named registers. -/
theorem onlyRegs_setReg {w : Word} (hp : p o) (h : onlyRegs s t p) : onlyRegs s (setReg t o w) p := by
  obtain ⟨heq, hregs⟩ := h
  refine ⟨?_, fun q hq => (getReg_setReg_ne w fun e : q = o => hq (e ▸ hp)).trans (hregs q hq)⟩
  rw [heq]; rfl

/-- Bytes put over words that are all among the named registers. -/
theorem onlyRegs_putWords (hp : ∀ o, off ≤ o → o < off + 4 * n → p o) (h : onlyRegs s t p) :
    onlyRegs s (putWords n t off l) p := by
  induction n generalizing t off l with
  | zero => exact h
  | succ n ih =>
    unfold putWords
    split
    · exact h
    · exact ih (fun o ho ho' => hp o (by omega) (by omega)) (onlyRegs_setReg (hp off (by omega) (by omega)) h)

theorem getReg_putWords_ne (h : o < off ∨ off + 4 * n ≤ o) : getReg (putWords n s off l) o = getReg s o :=
  (onlyRegs_putWords (p := fun o => off ≤ o ∧ o < off + 4 * n) (fun _ ho ho' => ⟨ho, ho'⟩) onlyRegs_refl).2 o
    (by omega)

/-- Each word that the bytes reach holds its four of them. -/
theorem getReg_putWords (hi : i < n) (hl : 4 * i < l.length) :
    getReg (putWords n s off l) (off + 4 * i) = BitVec.ofNat 32 (leNat ((l.drop (4 * i)).take 4)) := by
  induction n generalizing s off l i with
  | zero => exact absurd hi (Nat.not_lt_zero i)
  | succ n ih =>
    rw [putWords, if_neg (List.ne_nil_of_length_pos (by omega))]
    cases i with
    | zero => rw [getReg_putWords_ne (.inl (by omega))]; exact getReg_setReg_self _ _
    | succ i =>
      rw [show off + 4 * (i + 1) = off + 4 + 4 * i by omega, ih (by omega) (by rw [List.length_drop]; omega),
        List.drop_drop, show 4 + 4 * i = 4 * (i + 1) by omega]

/-- A mailbox event sets its bit, and sends at most a message beside. -/
theorem getReg_mgmtEvent : getReg (mgmtEvent s i) o = getReg (setb s Reg.mbxStatus i true) o :=
  getReg_risen_setb _ _ _ _ _ _ _ _

theorem onlyRegsAndMessages_msix {fn vec : Nat} (h : onlyRegs s t p) : onlyRegsAndMessages s (msix t fn vec) p := by
  obtain ⟨heq, hregs⟩ := h
  refine ⟨?_, fun o ho => (getReg_msix t fn vec o).trans (hregs o ho)⟩
  rw [msix_frame, heq]

/-- A change of the named registers, with its message where it has one. -/
theorem onlyRegsAndMessages_risen {fn vec : Nat} {c : State → Bool} {f : State → State} (h : onlyRegs s (f t) p) :
    onlyRegsAndMessages s (risen fn vec c f t) p := by
  unfold risen
  split
  · exact onlyRegsAndMessages_msix h
  · exact ⟨by rw [h.1], h.2⟩

theorem onlyRegsAndMessages_mgmtEvent (hi : i < 32) (hp : p Reg.mbxStatus) (h : onlyRegs s t p) :
    onlyRegsAndMessages s (mgmtEvent t i) p := onlyRegsAndMessages_risen (onlyRegs_setb hi hp h)

end Frames

/-! The mailbox's reply (R419, R421). -/

section Mailbox
variable {s : State} {q r : List Byte} {i : Nat}

/-- The request taken from the mailbox, and remembered with its reply. -/
def mailboxTaken (s : State) (q r : List Byte) : State :=
  { s with mgmt := { s.mgmt with mbxRequest := none, lastMbx := some (q, r) } }

/-- The reply's header and payload in their registers. -/
def replyShown (s : State) (r : List Byte) : State := putWords 1024 (putWords 4 s 0x1010 (r.take 16)) 0x3000 (r.drop 16)

/-- SEQUENCE shown and BUSY cleared. -/
def replyDone (s : State) (r : List Byte) : State :=
  setb (setf s Reg.mbxStatus 15 0 (declNat r 2 2)) Reg.mbxStatus 31 false

theorem sendReply_mailbox :
    sendReply s .mailbox q r = mgmtEvent (replyDone (replyShown (mailboxTaken s q r) r) r) 30 := rfl

theorem getReg_replyShown_header (hr : 16 ≤ r.length) (hi : i < 4) :
    getReg (replyShown s r) (0x1010 + 4 * i) = BitVec.ofNat 32 (leNat ((r.drop (4 * i)).take 4)) := by
  rw [replyShown, getReg_putWords_ne (.inl (by omega)), getReg_putWords hi (by rw [List.length_take]; omega),
    List.drop_take, List.take_take, Nat.min_eq_left (by omega)]

theorem getReg_replyShown_payload (hi : i < 1024) (hr : 16 + 4 * i < r.length) :
    getReg (replyShown s r) (0x3000 + 4 * i) = BitVec.ofNat 32 (leNat ((r.drop (16 + 4 * i)).take 4)) := by
  rw [replyShown, getReg_putWords hi (by rw [List.length_drop]; omega), List.drop_drop]

/-- Every register but DOME_MBX_STATUS after the reply was shown. -/
theorem getReg_sendReply_mailbox {o : Nat} (ho : o ≠ Reg.mbxStatus) :
    getReg (sendReply s .mailbox q r) o = getReg (replyShown (mailboxTaken s q r) r) o := by
  rw [sendReply_mailbox, getReg_mgmtEvent_ne (by decide) ho, replyDone, setb, getReg_setf_ne (by decide) ho,
    getReg_setf_ne (by decide) ho]

theorem onlyRegsAndMessages_sendReply_mailbox : onlyRegsAndMessages (mailboxTaken s q r) (sendReply s .mailbox q r)
    (fun o => o = Reg.mbxStatus ∨ (0x1010 ≤ o ∧ o < 0x1020) ∨ (0x3000 ≤ o ∧ o < 0x4000)) := by
  rw [sendReply_mailbox]
  refine onlyRegsAndMessages_mgmtEvent (by decide) (.inl rfl) ?_
  refine onlyRegs_setb (by decide) (.inl rfl) (onlyRegs_setf (by decide) (.inl rfl) ?_)
  refine onlyRegs_putWords (fun _ ho ho' => .inr (.inr ⟨ho, ho'⟩)) ?_
  exact onlyRegs_putWords (fun _ ho ho' => .inr (.inl ⟨ho, ho'⟩)) onlyRegs_refl

/-- BUSY clear, REPLY set, and SEQUENCE. -/
theorem mbxStatus_sendReply_mailbox : let t := sendReply s .mailbox q r
    getb t Reg.mbxStatus 31 = false ∧ getb t Reg.mbxStatus 30 = true ∧ getf t Reg.mbxStatus 15 0 = declNat r 2 2 := by
  have hseq : declNat r 2 2 < 2 ^ 16 := declNat_lt
  have hreg : ∀ t : State, getReg (mgmtEvent t 30) Reg.mbxStatus = getReg (setb t Reg.mbxStatus 30 true) Reg.mbxStatus :=
    fun _ => getReg_mgmtEvent
  rw [sendReply_mailbox]
  refine ⟨?busy, ?reply, ?sequence⟩
  case busy =>
    rw [getb_congr (by decide) (hreg _), getb_setb_apart (by decide) (by decide) (.inr (.inl (by decide))), replyDone,
      getb_setb_self (by decide)]
  case reply => rw [getb_congr (by decide) (hreg _), getb_setb_self (by decide)]
  case sequence =>
    rw [getf_congr_low (by decide) (hreg _), getf_setb_apart (by decide) (by decide) (by decide) (.inr (.inr (by decide))),
      replyDone, getf_setb_apart (by decide) (by decide) (by decide) (.inr (.inr (by decide))),
      getf_setf_self (by decide) (by decide)]
    exact Nat.mod_eq_of_lt hseq

end Mailbox

/-! A request served (R418, R419). -/

@[simp] theorem firstBadOf_none {l : List Bad} : firstBadOf (none :: l) = firstBadOf l := rfl

@[simp] theorem firstBadOf_some {x : Nat × Nat} {l : List Bad} : firstBadOf (some x :: l) = some x := rfl

@[simp] theorem badIf_true {code detail : Nat} : badIf true code detail = some (code, detail) := rfl

@[simp] theorem badIf_false {code detail : Nat} : badIf false code detail = none := rfl

section Serve
variable {s : State} {src : MgmtSrc} {q r : List Byte} {o : OpSpec} {fields : List Byte → State → Bad}
  {act : List Byte → State → State × Nat × List Byte} {code : Nat}

theorem serve_of_no_request (h : requestOf s src = none) : serve o fields act src s = s := by
  simp only [serve, h]

theorem serve_of_other_opcode (h : requestOf s src = some q) (hop : qOp q ≠ o.op) : serve o fields act src s = s := by
  simp only [serve, h, if_pos hop]

/-- A repeat of the last request. -/
theorem serve_of_remembered (h : requestOf s src = some q) (hop : qOp q = o.op) (hr : remembered s src q = some r) :
    serve o fields act src s = sendReply s src q r := by
  simp only [serve, h, hop, ne_eq, not_true_eq_false, if_false, hr]

/-- The first check that fails is answered, and nothing else happens. -/
theorem serve_of_bad (h : stands s src q o.op) (hbad : requestBad o fields src q s = some (code, 0)) :
    serve o fields act src s = answered s src q code 0 [] := by
  obtain ⟨hq, hop, hr⟩ := h
  simp only [serve, hq, hop, ne_eq, not_true_eq_false, if_false, hr, hbad, answered]

theorem transport_passes (h : o.mailboxOnly = true → overMctp src = false) : (overMctp src && o.mailboxOnly) = false := by
  cases hm : o.mailboxOnly with
  | false => exact Bool.and_false _
  | true => rw [h hm, Bool.false_and]

theorem state_passes (h : o.normal = true → isNormal s = true) : (o.normal && !isNormal s) = false := by
  cases hn : o.normal with
  | false => rfl
  | true => rw [h hn]; rfl

/-! The checks of R418 in their order: each is the first failure where those before it pass. -/

theorem requestBad_header (h : qReserved q = true) : requestBad o fields src q s = some (0x0001, 0) := by
  simp [requestBad, h]

theorem requestBad_transport (h : qReserved q = false) (hm : o.mailboxOnly = true) (hs : overMctp src = true) :
    requestBad o fields src q s = some (0x0D04, 0) := by
  simp [requestBad, h, hm, hs]

theorem requestBad_state (h : qReserved q = false) (hm : o.mailboxOnly = true → overMctp src = false)
    (hn : o.normal = true) (hs : isNormal s = false) : requestBad o fields src q s = some (0x0D02, 0) := by
  simp [requestBad, h, transport_passes hm, hn, hs]

theorem requestBad_length (h : qReserved q = false) (hm : o.mailboxOnly = true → overMctp src = false)
    (hn : o.normal = true → isNormal s = true) (hl : o.len (qLen q) = false ∨ q.length < 16 + qLen q) :
    requestBad o fields src q s = some (0x0D01, 0) := by
  have hlen : (!o.len (qLen q) || decide (q.length < 16 + qLen q)) = true := by simpa using hl
  simp [requestBad, h, transport_passes hm, state_passes hn, hlen]

end Serve
end Sys2Proof.Machine

namespace Sys2Proof.Claims
open Sys2Proof Sys2Proof.Machine

section Rows
variable {s : State} {src : MgmtSrc} {q : List Byte} {c : MgmtSrc → Instr} {op : Nat} {len : Nat → Bool} {normal mbx : Bool}

/-- A request that another member has passed on stands at no source of this module's own. -/
theorem ofOwn_of_request (h : requestOf s src = some q) : ofOwn src := by
  cases src with
  | mailbox | mctp => trivial
  | peer | replica => exact absurd h (by simp [requestOf])

theorem opBufferInfo_eq_serve {ans : PoolAnswer} (hown : ofOwn src) :
    ∃ fields act, opBufferInfo src ans s = serve ⟨0x52, (· == 4), true, true, none⟩ fields act src s := by
  unfold opBufferInfo
  cases src with
  | mailbox | mctp => exact ⟨_, _, rfl⟩
  | peer | replica => exact hown.elim

/-- Every management packet is served as `serve` says, with the row's opcode, LENGTH, personality and transport; a buffer
row where the request is this module's own. -/
theorem PacketRow.exec_eq_serve (row : PacketRow c op len normal mbx) (hown : op ∈ [0x50, 0x51, 0x52] → ofOwn src) :
    ∃ area fields act, exec (c src) s = .next (serve ⟨op, len, normal, mbx, area⟩ fields act src s) := by
  cases row with
  | bufferAlloc | bufferFree =>
    cases src with
    | mailbox | mctp => exact ⟨_, _, _, rfl⟩
    | peer | replica => exact (hown (by decide)).elim
  | bufferInfo =>
    obtain ⟨fields, act, heq⟩ := opBufferInfo_eq_serve (hown (by decide))
    exact ⟨_, fields, act, congrArg Host.Outcome.next heq⟩
  | _ => exact ⟨_, _, _, rfl⟩

end Rows

theorem managementReplies : Claims.ManagementReplies := by
  refine ⟨fun _ _ _ _ _ hs hd hp => replyBytes_layout hs hd hp, fun s q r hr => ?mailbox, fun s l q r => ?mctp⟩
  case mailbox =>
    refine ⟨onlyRegsAndMessages_sendReply_mailbox, fun i hi => ?_, fun i hi hlen => ?_, mbxStatus_sendReply_mailbox⟩
    · rw [getReg_sendReply_mailbox (by unfold Reg.mbxStatus; omega), getReg_replyShown_header hr hi]
    · rw [getReg_sendReply_mailbox (by unfold Reg.mbxStatus; omega), getReg_replyShown_payload hi hlen]
  case mctp => simp [sendReply, emit]

theorem managementChecks : Claims.ManagementChecks := by
  refine ⟨fun s src c op len normal mbx row => ?packets, fun s src q hq => ?reserved⟩
  case packets =>
    have served : ∀ q, requestOf s src = some q → ∃ area fields act,
        exec (c src) s = .next (serve ⟨op, len, normal, mbx, area⟩ fields act src s) := fun q hq =>
      row.exec_eq_serve fun _ => ofOwn_of_request hq
    refine ⟨fun hq hown => ?noRequest, fun q hq hop => ?otherRow, fun q r hq hop hr => ?repeated, fun q hst => ?refused⟩
    case noRequest =>
      obtain ⟨_, _, _, hexec⟩ := row.exec_eq_serve (s := s) hown
      rw [hexec, serve_of_no_request hq]
    case otherRow =>
      obtain ⟨_, _, _, hexec⟩ := served q hq
      rw [hexec, serve_of_other_opcode hq hop]
    case repeated =>
      obtain ⟨_, _, _, hexec⟩ := served q hq
      rw [hexec, serve_of_remembered hq hop hr]
    case refused =>
      obtain ⟨_, _, _, hexec⟩ := served q hst.1
      rw [hexec]
      refine ⟨fun h => ?_, fun h hm ht => ?_, fun h hm hn hs => ?_, fun h hm hn hl => ?_⟩
      · rw [serve_of_bad hst (requestBad_header h)]
      · rw [serve_of_bad hst (requestBad_transport h hm ht)]
      · rw [serve_of_bad hst (requestBad_state h hm hn hs)]
      · rw [serve_of_bad hst (requestBad_length h hm hn hl)]
  case reserved =>
    refine ⟨fun h => congrArg Host.Outcome.next ?_, fun h hr => congrArg Host.Outcome.next ?_,
      fun r h hr => congrArg Host.Outcome.next ?_⟩
    · simp only [opReservedOpcode, hq, h, if_true]
    · simp only [opReservedOpcode, hq, h, hr, Bool.false_eq_true, if_false, answered]
    · simp only [opReservedOpcode, hq, h, hr, Bool.false_eq_true, if_false]

/-- Settles O54: every packet of R422 is served by the same checks, and a reply is laid out and sent by its transport
alone. -/
theorem managementProtocol : Obligations.ManagementProtocol := ⟨managementReplies, managementChecks⟩

end Sys2Proof.Claims
end

section
/-!
The Vernier's seal, its firmware replacement and its packets (R444, R445, R448, R449): what an entry of the event log and the
end of a background command leave, said for any state, then the seal's three outcomes and the two ends of a replacement, then
the packets as requests whose header has passed.
-/
namespace Sys2Proof.Machine
open Sys2Proof Sys2Proof.Claims

/-! What a record leaves of the Vernier and of the background commands. -/

section RecordsKeep
variable {s t : State}

theorem recordsOnly.vrn (h : recordsOnly s t) : t.vrn = s.vrn := by
  obtain ⟨_, _, _, _, rfl⟩ := h
  rfl

theorem recordsOnly.mgmt (h : recordsOnly s t) : t.mgmt = s.mgmt := by
  obtain ⟨_, _, _, _, rfl⟩ := h
  rfl

theorem recordsOnly_countUp {o hi lo : Nat} : recordsOnly s (countUp s o hi lo) := by
  unfold countUp
  split
  · exact recordsOnly.refl
  · exact recordsOnly_setf

end RecordsKeep

/-! An entry of the event log that is neither limited in rate nor an alert (R456 to R461). -/

section PlainEntry
variable {s : State} {cls code loc det o : Nat}

theorem logEntry_plain (h1 : cls ≠ 1) (h4 : cls ≠ 4) : logEntry s cls code loc det =
    risen 0 257 logCond (fun s => setb s Reg.logStatus cls true) (logWrite s cls code loc det) := by
  simp [logEntry, h1, h4]

theorem recordsOnly_logEntry_plain (h1 : cls ≠ 1) (h4 : cls ≠ 4) : recordsOnly s (logEntry s cls code loc det) := by
  rw [logEntry_plain h1 h4]
  exact recordsOnly_logWrite.trans (recordsOnly_risen recordsOnly_setb)

theorem getReg_logEntry_plain (h1 : cls ≠ 1) (h4 : cls ≠ 4) : getReg (logEntry s cls code loc det) o =
    getReg (setb (logWrite s cls code loc det) Reg.logStatus cls true) o := by
  rw [logEntry_plain h1 h4, getReg_risen_setb]

theorem getReg_logEntry_plain_below (h1 : cls ≠ 1) (h4 : cls ≠ 4) (hcls : cls < 32) (ho : o < Reg.logHead) :
    getReg (logEntry s cls code loc det) o = getReg s o := by
  have hne : o ≠ Reg.logStatus := by unfold Reg.logHead Reg.logStatus at *; omega
  rw [getReg_logEntry_plain h1 h4, setb, getReg_setf_ne hcls hne, getReg_logWrite_below ho]

/-- An entry written, with its class's NEW. -/
theorem logged_setb_logWrite (hcls : cls < 32) :
    logged s (setb (logWrite s cls code loc det) Reg.logStatus cls true) cls code loc det := by
  have hword : ∀ o, o ≠ Reg.logStatus →
      getReg (setb (logWrite s cls code loc det) Reg.logStatus cls true) o = getReg (logWrite s cls code loc det) o :=
    fun o ho => getReg_setf_ne hcls ho
  have hb : Reg.logStatus < logSlot s := by unfold logSlot Reg.logStatus; omega
  have hword64 : ∀ k, get64 (setb (logWrite s cls code loc det) Reg.logStatus cls true) (logSlot s + k) =
      get64 (logWrite s cls code loc det) (logSlot s + k) := fun k => by
    unfold get64
    rw [hword _ (by omega), hword _ (by omega)]
  obtain ⟨hhead, hcode, htime, hloc, hdet⟩ :=
    logWrite_entry (s := s) (cls := cls) (code := code) (loc := loc) (det := det)
  exact ⟨(hword _ (by decide)).trans hhead, (hword _ hb.ne').trans hcode, (hword64 8).trans htime, (hword64 16).trans hloc,
    (hword64 24).trans hdet, getb_setb_self hcls⟩

theorem logged_logEntry_plain (h1 : cls ≠ 1) (h4 : cls ≠ 4) (hcls : cls < 32) :
    logged s (logEntry s cls code loc det) cls code loc det :=
  logged_congr (fun _ _ => rfl) (fun _ _ => getReg_logEntry_plain h1 h4) rfl (logged_setb_logWrite hcls)

end PlainEntry

/-! The end of a background command (R420). -/

section EndJob
variable {s : State} {area code o : Nat}

theorem endJob_vrn : (endJob s area code).vrn = s.vrn := by
  unfold endJob
  split
  · exact recordsOnly_mgmtEvent.vrn
  · rfl

theorem getReg_endJob_ne (h : o ≠ Reg.mbxStatus) : getReg (endJob s area code) o = getReg s o := by
  unfold endJob
  split
  · exact getReg_mgmtEvent_ne (by decide) h
  · rfl

theorem getJob_setJob {j : Job} : getJob (setJob s area j) area = j := smGet_smSet_self

/-- A command that runs, or waits for its window, ends with the code. -/
theorem getJob_endJob (h : jobRuns s area = true) :
    getJob (endJob s area code) area = { getJob s area with state := 2, code := code } := by
  have hmgmt := (recordsOnly_mgmtEvent (s := setJob s area { getJob s area with state := 2, code := code }) (i := 29)).mgmt
  rw [endJob, if_pos h, getJob, hmgmt]
  exact getJob_setJob

end EndJob

/-! A replacement settled (R449). -/

section Replacement
variable {s : State} {ok : Bool} {ver o a : Nat} {dig : List Byte} {f : Vrn → Vrn}

theorem getReg_modVrn : getReg (modVrn s f) o = getReg s o := rfl

theorem getJob_modVrn : getJob (modVrn s f) a = getJob s a := rfl

theorem getJob_setf {p hi lo v : Nat} : getJob (setf s p hi lo v) a = getJob s a := by
  unfold getJob
  rw [recordsOnly_setf.mgmt]

/-- The replacement that was being written is over. -/
def replaceOver (s : State) : State := setVrnState (modVrn s fun v => { v with replacing := none }) 0

/-- The slot written becomes the active one. -/
def slotActive (s : State) (ver : Nat) (dig : List Byte) : State :=
  modVrn s fun v => { v with fwVersion := ver, fwDigestNew := some dig }

theorem settleReplace_none (h : s.vrn.replacing = none) : settleReplace ok s = s := by
  simp [settleReplace, h]

theorem settleReplace_right (h : s.vrn.replacing = some (ver, dig)) :
    settleReplace true s = endJob (slotActive (replaceOver s) ver dig) 2 0 := by
  simp [settleReplace, h, slotActive, replaceOver]

theorem settleReplace_wrong (h : s.vrn.replacing ≠ none) : settleReplace false s = endJob (replaceOver s) 2 0x0E05 := by
  cases hr : s.vrn.replacing with
  | none => exact absurd hr h
  | some x => simp [settleReplace, hr, replaceOver]

theorem replaceOver_vrn : (replaceOver s).vrn = { s.vrn with replacing := none } := recordsOnly_setf.vrn

theorem getJob_replaceOver : getJob (replaceOver s) a = getJob s a := by
  rw [replaceOver, setVrnState, getJob_setf, getJob_modVrn]

theorem jobRuns_replaceOver : jobRuns (replaceOver s) a = jobRuns s a := by
  rw [jobRuns, getJob_replaceOver, jobRuns]

theorem settleReplace_right_vrn (h : s.vrn.replacing = some (ver, dig)) :
    (settleReplace true s).vrn = { s.vrn with replacing := none, fwVersion := ver, fwDigestNew := some dig } := by
  rw [settleReplace_right h, endJob_vrn, slotActive, modVrn, replaceOver_vrn]

theorem settleReplace_wrong_vrn : (settleReplace false s).vrn = { s.vrn with replacing := none } := by
  by_cases h : s.vrn.replacing = none
  · rw [settleReplace_none h, ← h]
  · rw [settleReplace_wrong h, endJob_vrn, replaceOver_vrn]

theorem getJob_settleReplace_right (h : s.vrn.replacing = some (ver, dig)) (hjob : jobRuns s 2 = true) :
    getJob (settleReplace true s) 2 = { getJob s 2 with state := 2, code := 0 } := by
  have hruns : jobRuns (slotActive (replaceOver s) ver dig) 2 = true := by
    rw [jobRuns, slotActive, getJob_modVrn, getJob_replaceOver, ← jobRuns, hjob]
  rw [settleReplace_right h, getJob_endJob hruns, slotActive, getJob_modVrn, getJob_replaceOver]

theorem getJob_settleReplace_wrong (h : s.vrn.replacing ≠ none) (hjob : jobRuns s 2 = true) :
    getJob (settleReplace false s) 2 = { getJob s 2 with state := 2, code := 0x0E05 } := by
  rw [settleReplace_wrong h, getJob_endJob (jobRuns_replaceOver.trans hjob), getJob_replaceOver]

/-- Of the registers, a replacement that fails changes VRN_STATUS and DOME_MBX_STATUS. -/
theorem getReg_settleReplace_wrong_ne (ho : o ≠ Reg.vrnStatus) (hm : o ≠ Reg.mbxStatus) :
    getReg (settleReplace false s) o = getReg s o := by
  by_cases h : s.vrn.replacing = none
  · rw [settleReplace_none h]
  · rw [settleReplace_wrong h, getReg_endJob_ne hm, replaceOver, setVrnState, getReg_setf_ne (by decide) ho, getReg_modVrn]

/-- STATE is all it changes of VRN_STATUS. -/
theorem getb_settleReplace_wrong {i : Nat} (hi : i < 30) :
    getb (settleReplace false s) Reg.vrnStatus i = getb s Reg.vrnStatus i := by
  by_cases h : s.vrn.replacing = none
  · rw [settleReplace_none h]
  · rw [settleReplace_wrong h, getb_congr (by omega) (getReg_endJob_ne (by decide)), replaceOver, setVrnState,
      getb_setf_apart (by decide) (by omega) (by decide) (.inr (.inr hi)), getb_congr (by omega) getReg_modVrn]

end Replacement

/-! The firmware started, at once or after a replacement (R440, R447, R449). -/

section Firmware
variable {s : State} {ok : Bool} {ver i : Nat} {dig : List Byte}

theorem alertLevel_over : alertLevel s i false =
    { s with power := { s.power with alertHold := putFld s.power.alertHold i i 0 } } := by
  simp [alertLevel, b2n]

theorem alertLevel_over_vrn : (alertLevel s i false).vrn = s.vrn := by rw [alertLevel_over]

theorem alertLevel_over_mgmt : (alertLevel s i false).mgmt = s.mgmt := by rw [alertLevel_over]

theorem alertLevel_over_regs : (alertLevel s i false).regs = s.regs := by rw [alertLevel_over]

/-- The firmware runs, and its version shows. -/
def firmwareShown (s : State) : State :=
  setReg (setVrnState (modVrn s fun v => { v with fwRunning := true }) 1) Reg.vrnFwVersion (BitVec.ofNat 32 s.vrn.fwVersion)

/-- A body that a loss of power left is signed. -/
def storedSigned (s : State) : State :=
  match s.vrn.stored with
  | some b => modVrn (storeRecord s b) fun v => { v with stored := none }
  | none => s

theorem firmwareShown_vrn : (firmwareShown s).vrn = { s.vrn with fwRunning := true } := recordsOnly_setf.vrn

theorem firmwareShown_mgmt : (firmwareShown s).mgmt = s.mgmt := recordsOnly_setf.mgmt

theorem getReg_firmwareShown_version :
    getReg (firmwareShown s) Reg.vrnFwVersion = BitVec.ofNat 32 s.vrn.fwVersion := getReg_setReg_self _ _

theorem storedSigned_keeps : (storedSigned s).regs = s.regs ∧ (storedSigned s).mgmt = s.mgmt ∧
    (storedSigned s).vrn.fwRunning = s.vrn.fwRunning ∧ (storedSigned s).vrn.fwVersion = s.vrn.fwVersion ∧
    (storedSigned s).vrn.fwDigestNew = s.vrn.fwDigestNew ∧ (storedSigned s).vrn.replacing = s.vrn.replacing := by
  unfold storedSigned
  split
  · exact ⟨rfl, rfl, rfl, rfl, rfl, rfl⟩
  · exact ⟨rfl, rfl, rfl, rfl, rfl, rfl⟩

theorem startFirmware_eq : startFirmware s = storedSigned (alertLevel (firmwareShown s) 7 false) := by
  have hver : (setVrnState (modVrn s fun v => { v with fwRunning := true }) 1).vrn.fwVersion = s.vrn.fwVersion := by
    rw [setVrnState, recordsOnly_setf.vrn, modVrn]
  rw [firmwareShown, ← hver]
  rfl

/-- The firmware that starts is the active slot's, and it ends nothing. -/
theorem startFirmware_shows : let t := startFirmware s
    t.vrn.fwRunning = true ∧ getReg t Reg.vrnFwVersion = BitVec.ofNat 32 s.vrn.fwVersion ∧ t.mgmt = s.mgmt ∧
    t.vrn.fwVersion = s.vrn.fwVersion ∧ t.vrn.fwDigestNew = s.vrn.fwDigestNew ∧ t.vrn.replacing = s.vrn.replacing := by
  obtain ⟨hregs, hmgmt, hruns, hver, hdig, hrep⟩ := storedSigned_keeps (s := alertLevel (firmwareShown s) 7 false)
  rw [alertLevel_over_vrn, firmwareShown_vrn] at hruns hver hdig hrep
  rw [alertLevel_over_mgmt, firmwareShown_mgmt] at hmgmt
  rw [startFirmware_eq]
  refine ⟨hruns, ?_, hmgmt, hver, hdig, hrep⟩
  rw [← getReg_firmwareShown_version, getReg, hregs, alertLevel_over_regs, getReg]

/-- An attempt after a replacement settles it and starts the firmware, whatever was read back. -/
theorem opFwLoadAttempt_of_replacing (hp : s.vrn.powered = true) (hf : s.vrn.fwRunning = false)
    (h : s.vrn.replacing = some (ver, dig)) :
    opFwLoadAttempt ok s = startFirmware (countUp (settleReplace ok s) Reg.vrnStatus 15 0) := by
  simp [opFwLoadAttempt, hp, hf, h]

/-- After the attempt the firmware runs, and its version, digest and background command are as the settling left them. -/
theorem opFwLoadAttempt_shows (hp : s.vrn.powered = true) (hf : s.vrn.fwRunning = false)
    (h : s.vrn.replacing = some (ver, dig)) : let t := opFwLoadAttempt ok s; let u := settleReplace ok s
    t.vrn.fwRunning = true ∧ getReg t Reg.vrnFwVersion = BitVec.ofNat 32 u.vrn.fwVersion ∧ getJob t 2 = getJob u 2 ∧
    t.vrn.fwVersion = u.vrn.fwVersion ∧ t.vrn.fwDigestNew = u.vrn.fwDigestNew ∧ t.vrn.replacing = u.vrn.replacing := by
  obtain ⟨hruns, hshown, hmgmt, hver, hdig, hrep⟩ :=
    startFirmware_shows (s := countUp (settleReplace ok s) Reg.vrnStatus 15 0)
  rw [recordsOnly_countUp.mgmt] at hmgmt
  rw [recordsOnly_countUp.vrn] at hshown hver hdig hrep
  rw [opFwLoadAttempt_of_replacing hp hf h]
  refine ⟨hruns, hshown, ?_, hver, hdig, hrep⟩
  rw [getJob, hmgmt, getJob]

end Firmware

/-! The seal (R448). -/

section Seal
variable {s : State} {isOpen : Bool} {o : Nat}

/-- What the Vernier sees of the seal. -/
def sealSeen (s : State) (isOpen : Bool) : State :=
  setb (modVrn s fun v => { v with sealIsOpen := isOpen, sealTouched := v.sealTouched || isOpen }) Reg.vrnStatus 29 isOpen

/-- An opening counted. -/
def openingCounted (s : State) : State :=
  setReg (sealSeen s true) Reg.vrnSealEvents (getReg (sealSeen s true) Reg.vrnSealEvents + 1)

theorem opSealCheck_opened (hp : s.vrn.powered = true) (hs : s.vrn.sealIsOpen = false) : opSealCheck true s =
    logEntry (openingCounted s) 0 0x0E0A 0 (getReg (openingCounted s) Reg.vrnSealEvents).toNat := by
  simp only [opSealCheck, openingCounted, sealSeen, hp, hs, Bool.not_true, Bool.not_false, Bool.false_eq_true, if_false,
    and_self, if_true]

theorem opSealCheck_still_open (hp : s.vrn.powered = true) (hs : s.vrn.sealIsOpen = true) :
    opSealCheck true s = sealSeen s true := by
  simp [opSealCheck, hp, hs, sealSeen]

theorem opSealCheck_closed (hp : s.vrn.powered = true) : opSealCheck false s = settleReplace false (sealSeen s false) := by
  simp [opSealCheck, hp, sealSeen]

theorem sealSeen_vrn : (sealSeen s isOpen).vrn =
    { s.vrn with sealIsOpen := isOpen, sealTouched := s.vrn.sealTouched || isOpen } := recordsOnly_setb.vrn

theorem getb_sealSeen : getb (sealSeen s isOpen) Reg.vrnStatus 29 = isOpen := by
  rw [sealSeen, getb_setb_self (by decide)]

theorem getReg_sealSeen_ne (h : o ≠ Reg.vrnStatus) : getReg (sealSeen s isOpen) o = getReg s o := by
  rw [sealSeen, setb, getReg_setf_ne (by decide) h, getReg_modVrn]

theorem getJob_sealSeen {a : Nat} : getJob (sealSeen s isOpen) a = getJob s a := by
  rw [sealSeen, setb, getJob_setf, getJob_modVrn]

theorem openingCounted_vrn : (openingCounted s).vrn = (sealSeen s true).vrn := rfl

theorem getb_openingCounted : getb (openingCounted s) Reg.vrnStatus 29 = true := by
  rw [openingCounted, getb_congr (by decide) (getReg_setReg_ne _ (by decide)), getb_sealSeen]

theorem getReg_openingCounted_events :
    getReg (openingCounted s) Reg.vrnSealEvents = getReg s Reg.vrnSealEvents + 1 := by
  rw [openingCounted, getReg_setReg_self, getReg_sealSeen_ne (by decide)]

theorem getReg_openingCounted_log (h : Reg.logHead ≤ o) : getReg (openingCounted s) o = getReg s o := by
  have hne : o ≠ Reg.vrnSealEvents ∧ o ≠ Reg.vrnStatus := by
    unfold Reg.logHead Reg.vrnSealEvents Reg.vrnStatus at *
    omega
  rw [openingCounted, getReg_setReg_ne _ hne.1, getReg_sealSeen_ne hne.2]

theorem openingCounted_cycle : (openingCounted s).cycle = s.cycle := by
  obtain ⟨_, _, _, _, h⟩ := (recordsOnly_setb.trans recordsOnly_setReg : recordsOnly (modVrn s _) (openingCounted s))
  rw [h, modVrn]

end Seal

/-! Requests whose header, transport, state and LENGTH have passed (R418, R419). -/

@[simp] theorem firstBadOf_nil : firstBadOf [] = none := rfl

section Asked
variable {s : State} {src : MgmtSrc} {q : List Byte} {o : OpSpec} {op n code : Nat} {normal : Bool}
  {fields : List Byte → State → Bad} {act : List Byte → State → State × Nat × List Byte}

/-- What is left to check is the payload's fields and the area. -/
theorem requestBad_of_asks (h : asks s src q o.op o.normal o.mailboxOnly o.len) : requestBad o fields src q s =
    firstBadOf [fields q s, (areaBusy s o.area).map fun c => (c, 0)] := by
  obtain ⟨-, hres, hmbx, hnorm, hlen, hsize⟩ := h
  have hlong : decide (q.length < 16 + qLen q) = false := decide_eq_false (by omega)
  simp [requestBad, hres, transport_passes hmbx, state_passes hnorm, hlen, hlong]

/-- An immediate request is refused by its fields alone. -/
theorem serve_imm_refused (h : asks s src q op normal false (· == n)) (hf : fields q s = some (code, 0)) :
    serve (.imm op n normal) fields act src s = answered s src q code 0 [] := by
  refine serve_of_bad h.1 ?_
  rw [requestBad_of_asks h, hf, firstBadOf_some]

/-- An immediate request whose fields pass acts, and is answered with what its action gives. -/
theorem serve_imm_acts (h : asks s src q op normal false (· == n)) (hf : fields q s = none) :
    serve (.imm op n normal) fields act src s =
      answered (act q s).1 src q (act q s).2.1 0 (act q s).2.2 := by
  have hpass : requestBad (.imm op n normal) fields src q s = none := by
    rw [requestBad_of_asks h, hf]; rfl
  obtain ⟨⟨hq, hop, hr⟩, -⟩ := h
  have hop' : qOp q = (OpSpec.imm op n normal).op := hop
  simp only [serve, hq, hop', ne_eq, not_true_eq_false, if_false, hr, hpass, answered]
  rfl

end Asked

end Sys2Proof.Machine

namespace Sys2Proof.Claims
open Sys2Proof Sys2Proof.Machine

/-- What every check of the seal shows. -/
def sealShown (s t : State) (isOpen : Bool) : Prop :=
  t.vrn.sealIsOpen = isOpen ∧ getb t Reg.vrnStatus 29 = isOpen ∧ t.vrn.sealTouched = (s.vrn.sealTouched || isOpen) ∧
    t.vrn.joules = s.vrn.joules ∧ t.vrn.records = s.vrn.records

section SealOutcomes
variable {s : State}

/-- An opening is counted and logged. -/
theorem opening_counted_and_logged (hp : s.vrn.powered = true) (hs : s.vrn.sealIsOpen = false) : let t := opSealCheck true s
    sealShown s t true ∧ getReg t Reg.vrnSealEvents = getReg s Reg.vrnSealEvents + 1 ∧
    logged s t 0 0x0E0A 0 (getReg t Reg.vrnSealEvents).toNat := by
  rw [opSealCheck_opened hp hs]
  have hreg : ∀ o det, o < Reg.logHead →
      getReg (logEntry (openingCounted s) 0 0x0E0A 0 det) o = getReg (openingCounted s) o := fun o det ho =>
    getReg_logEntry_plain_below (by decide) (by decide) (by decide) ho
  have hvrn : ∀ det, (logEntry (openingCounted s) 0 0x0E0A 0 det).vrn = (sealSeen s true).vrn := fun det =>
    (recordsOnly_logEntry_plain (by decide) (by decide)).vrn.trans openingCounted_vrn
  refine ⟨?shown, ?counted, ?logged⟩
  case shown =>
    unfold sealShown
    rw [hvrn, sealSeen_vrn, getb_congr (by decide) (hreg _ _ (by decide)), getb_openingCounted]
    exact ⟨rfl, rfl, rfl, rfl, rfl⟩
  case counted => rw [hreg _ _ (by decide), getReg_openingCounted_events]
  case logged =>
    rw [hreg _ _ (by decide)]
    exact logged_congr (fun _ ho => (getReg_openingCounted_log ho).symm) (fun _ _ => rfl) openingCounted_cycle.symm
      (logged_logEntry_plain (by decide) (by decide) (by decide))

/-- A seal that stays open is counted once. -/
theorem open_seal_counted_once (hp : s.vrn.powered = true) (hs : s.vrn.sealIsOpen = true) : let t := opSealCheck true s
    sealShown s t true ∧ getReg t Reg.vrnSealEvents = getReg s Reg.vrnSealEvents := by
  rw [opSealCheck_still_open hp hs]
  refine ⟨?_, getReg_sealSeen_ne (by decide)⟩
  unfold sealShown
  rw [sealSeen_vrn, getb_sealSeen]
  exact ⟨rfl, rfl, rfl, rfl, rfl⟩

/-- A closing ends a replacement that is being written, and its command. -/
theorem closing_ends_replacement (hp : s.vrn.powered = true) : let t := opSealCheck false s
    sealShown s t false ∧ getReg t Reg.vrnSealEvents = getReg s Reg.vrnSealEvents ∧
    t.vrn.replacing = none ∧ t.vrn.fwVersion = s.vrn.fwVersion ∧
    (s.vrn.replacing ≠ none → jobRuns s 2 = true → (getJob t 2).state = 2 ∧ (getJob t 2).code = 0x0E05) := by
  rw [opSealCheck_closed hp]
  have hvrn : (settleReplace false (sealSeen s false)).vrn = { (sealSeen s false).vrn with replacing := none } :=
    settleReplace_wrong_vrn
  rw [sealSeen_vrn] at hvrn
  refine ⟨?shown, ?counted, ?replacement, ?version, fun hrep hjob => ?command⟩
  case shown =>
    unfold sealShown
    rw [hvrn, getb_settleReplace_wrong (by decide), getb_sealSeen]
    exact ⟨rfl, rfl, rfl, rfl, rfl⟩
  case counted => rw [getReg_settleReplace_wrong_ne (by decide) (by decide), getReg_sealSeen_ne (by decide)]
  case replacement => rw [hvrn]
  case version => rw [hvrn]
  case command =>
    rw [getJob_settleReplace_wrong (by rwa [sealSeen_vrn]) (by rwa [jobRuns, getJob_sealSeen])]
    exact ⟨rfl, rfl⟩

end SealOutcomes

theorem sealAndReplacement : Claims.SealAndReplacement := by
  refine fun s isOpen => ⟨fun hp => congrArg Host.Outcome.next ?unpowered, fun hp => ⟨opSealCheck isOpen s, rfl, ?checked⟩,
    fun ver dig hp hf hrep => ⟨⟨opFwLoadAttempt true s, rfl, ?right⟩, ⟨opFwLoadAttempt false s, rfl, ?wrong⟩⟩⟩
  case unpowered => simp [opSealCheck, hp]
  case checked =>
    cases isOpen with
    | false =>
      obtain ⟨⟨hopen, hbit, htouched, hjoules, hrecords⟩, hcount, hover, hver, hended⟩ := closing_ends_replacement hp
      exact ⟨hopen, hbit, htouched, hjoules, hrecords, nofun, fun _ => hcount, fun _ hne => ⟨hover, hver, hended hne⟩⟩
    | true =>
      cases hs : s.vrn.sealIsOpen with
      | false =>
        obtain ⟨⟨hopen, hbit, htouched, hjoules, hrecords⟩, hcount, hlog⟩ := opening_counted_and_logged hp hs
        exact ⟨hopen, hbit, htouched, hjoules, hrecords, fun _ _ => ⟨hcount, hlog⟩, by simp, nofun⟩
      | true =>
        obtain ⟨⟨hopen, hbit, htouched, hjoules, hrecords⟩, hcount⟩ := open_seal_counted_once hp hs
        exact ⟨hopen, hbit, htouched, hjoules, hrecords, nofun, fun _ => hcount, nofun⟩
  case right =>
    obtain ⟨hruns, hshown, hjob, hver, hdig, hover⟩ := opFwLoadAttempt_shows (ok := true) hp hf hrep
    rw [settleReplace_right_vrn hrep] at hshown hver hdig hover
    refine ⟨hver, hdig, hover, hruns, hshown, fun hj => ?_⟩
    rw [hjob, getJob_settleReplace_right hrep hj]
    exact ⟨rfl, rfl⟩
  case wrong =>
    obtain ⟨hruns, -, hjob, hver, hdig, hover⟩ := opFwLoadAttempt_shows (ok := false) hp hf hrep
    rw [settleReplace_wrong_vrn] at hver hdig hover
    refine ⟨hver, hdig, hover, hruns, fun hj => ?_⟩
    rw [hjob, getJob_settleReplace_wrong (by simp [hrep]) hj]
    exact ⟨rfl, rfl⟩

theorem vernierPackets : Claims.VernierPackets := by
  refine fun s src q => ⟨fun h => ?latest, fun h => ?records, fun h => ?mark⟩
  case latest =>
    refine ⟨fun hnone => congrArg Host.Outcome.next ?_, fun r l hr => congrArg Host.Outcome.next ?_⟩
    · exact serve_imm_refused h (by simp [hnone])
    · rw [opVernierLatest, serve_imm_acts h (by simp [hr])]
      simp [answers, hr]
  case records =>
    refine ⟨fun hnone => congrArg Host.Outcome.next ?_, fun hsome hout => congrArg Host.Outcome.next ?_,
      fun hsome hlo hhi => congrArg Host.Outcome.next ?_⟩
    · exact serve_imm_refused h (by simp [hnone])
    · have hfirst : (decide (declNat q 16 8 < vrnOldest s) || decide (s.vrn.nextInterval ≤ declNat q 16 8)) = true := by
        rw [Bool.or_eq_true, decide_eq_true_eq, decide_eq_true_eq]
        exact hout
      refine serve_imm_refused h ?_
      rw [List.isEmpty_eq_false_iff.mpr hsome, hfirst]
      rfl
    · have hfirst : (decide (declNat q 16 8 < vrnOldest s) || decide (s.vrn.nextInterval ≤ declNat q 16 8)) = false := by
        rw [Bool.or_eq_false_iff, decide_eq_false_iff_not, decide_eq_false_iff_not]
        exact ⟨not_lt.mpr hlo, not_le.mpr hhi⟩
      rw [opVernierRecords, serve_imm_acts h (by rw [List.isEmpty_eq_false_iff.mpr hsome, hfirst]; rfl)]
      rfl
  case mark =>
    refine ⟨fun hf => congrArg Host.Outcome.next ?_, fun hf hfull => congrArg Host.Outcome.next ?_,
      fun hf hroom => congrArg Host.Outcome.next ?_⟩
    · exact serve_imm_refused h (by simp [hf])
    · exact serve_imm_refused h (by simp [hf, hfull])
    · have hmarks : decide (4 ≤ s.vrn.marks.length) = false := decide_eq_false (by omega)
      rw [opVernierMark, serve_imm_acts h (by simp [hf, hmarks])]
      rfl

/-- Settles O60: a check of the seal has three outcomes, a replacement two ends, and each packet is served as a request whose
fields alone can refuse it. -/
theorem vernierSealAndPackets : Obligations.VernierSealAndPackets := ⟨sealAndReplacement, vernierPackets⟩

end Sys2Proof.Claims
end
